-- ==== Sys2Proof/Word.lean ====
section
/-!
DEFINITION. The word types of the Vorkel (00_scope R2: bit 0 is the least significant bit; 07 R124 for the widths of the register levels).
-/
namespace Sys2Proof

/-- One byte of any memory (R2). -/
abbrev Byte := BitVec 8
/-- One 32-bit element of a lane (R124). -/
abbrev Word := BitVec 32
/-- One scalar register, special register or instruction word (R124, R213). -/
abbrev Dword := BitVec 64
/-- One bit for each of the 32 lanes of a group (R107). -/
abbrev Mask := BitVec 32
/-- One 32-bit element for each lane: the contents of an M, O or X register (R124). -/
abbrev Lanes := Vector Word 32
/-- A distance from the base of an encoding in units of 8 bytes (R113). -/
abbrev Pcoff := BitVec 54

end Sys2Proof
end

