-- ==== Sys2Proof/Config.lean ====
section
/-!
DEFINITION. What one implementation fixes and the free values: opaque constants that nothing in Lean can evaluate (assumption log 3, 8, 9, 10).
-/
namespace Sys2Proof.Config

/-- A free choice between two values (R118, R126, R224, R257, R265, R310): drawn by a number, a register index or place, and a lane. -/
opaque freeBit : Nat → Nat → Nat → Bool
/-- A free 32-bit value: an M register's lane that the spec leaves unspecified (R73, R127), by seed, register and lane. -/
opaque freeWord : Nat → Nat → Nat → Word
/-- A byte of a scratchpad that its crew has not written since it was bound (R59), by seed and offset. -/
opaque freeByte : Nat → Nat → Byte
/-- A free 64-bit value, by the number drawn. -/
opaque freeDword : Nat → Dword
/-- The silicon stepping of capq leaf 0 (R254: fixed, not stated). -/
opaque stepping : BitVec 16
/-- The CRC-64 of a flit's 248 covered bytes, read as one number (R18; the polynomial is not stated). -/
opaque flitCrc : Nat → Dword
/-- The CRC-32 of a freeze image, over its bytes 0x40 to the end (R191; the polynomial is not stated). -/
opaque freezeCrc : List Byte → Word
/-- One byte of the opaque body of a freeze image (R191: not architected), by a number that names the frozen work and an offset. -/
opaque freezeByte : Nat → Nat → Byte

end Sys2Proof.Config
end

