-- ==== Sys2Proof/Syntax.lean ====
section
/-!
DEFINITION. The syntax: one constructor of Instr for each row of spec/opcode_table.json. An instruction word's constructor carries the fields
of its format (12 R214); an event's constructor carries the data that the event brings (95_what_each_step_holds).
-/
namespace Sys2Proof

/-- The 64-bit special registers at S-class indices 81 to 95 (R217). -/
inductive Special where
  | gid | stage | round | crew | tile | launch | scope | core | ctype | cyc | time | seq | flags | aown | ctx
  deriving DecidableEq, Repr

/-- A 10-bit operand specifier (R216, R217). Every specifier value is exactly one operand. -/
inductive Operand where
  /-- M level, v0 to v255 -/
  | m (i : BitVec 8)
  /-- O level; indices above 15 never exist -/
  | o (i : BitVec 8)
  /-- X level; indices above 3 never exist -/
  | x (i : BitVec 8)
  | s (i : BitVec 6)
  | k (i : BitVec 3)
  | acc (i : BitVec 2)
  /-- S-class indices 76 to 79, reserved -/
  | resLow (i : BitVec 2)
  | lane
  | special (r : Special)
  /-- S-class indices 96 to 127, reserved -/
  | resHigh (i : BitVec 5)
  /-- inline constant; its value is c - 64 (R217) -/
  | const (c : BitVec 7)
  deriving DecidableEq, Repr

/-- An 8-bit short specifier of a pair word (R216). -/
inductive ShortOperand where
  | m (i : BitVec 6)
  | o (i : BitVec 6)
  | x (i : BitVec 6)
  | s (i : BitVec 6)
  deriving DecidableEq, Repr

/-- RND of the MR form (R222) without error feedback, which VTail.ef stands for; r5 to r7 are the codes that take 0x14. -/
inductive Rnd where
  | rne | rz | rd | ru | r5 | r6 | r7
  deriving DecidableEq, Repr

/-- CLASS of the source modifier (R224). -/
inductive ModClass where
  | none | rotate | butterfly | broadcast
  deriving DecidableEq, Repr

/-- The source modifier MOD (R224). -/
structure SrcMod where
  cls : ModClass
  seg : BitVec 3
  dist : BitVec 7
  deriving DecidableEq, Repr

/-- What B, MOD and RND of an MR word say: a second source with its modifier under a rounding, or, with RND 0b100, the two residue specifiers (R222). -/
inductive VTail where
  | src (rnd : Rnd) (b : Operand) (mod : SrcMod)
  | ef (rsrc rdst : Operand)
  deriving DecidableEq, Repr

/-- ORD (R221). -/
inductive Order where
  | plain | acq | rel | ar
  deriving DecidableEq, Repr

/-- SCOPE (R221); default is the space's own (R160). -/
inductive Scope where
  | default | group | crew | cluster | die | device | system | reserved
  deriving DecidableEq, Repr

/-- SIZE of an M-format word (R214). -/
inductive Size where
  | b8 | b16 | b32 | b64
  deriving DecidableEq, Repr

/-- An access path named by xfence (R161, R223). -/
inductive Path where
  | ls | cp | mx | instr
  deriving DecidableEq, Repr

/-- R-format word without an MR form (R214). C and MOD are the raw fields: what they mean is given with each row. -/
structure RWord where
  w : Bool
  d : Operand
  a : Operand
  b : Operand
  c : Operand
  mod : BitVec 12
  deriving DecidableEq, Repr

/-- I-format word (R214). -/
structure IWord where
  w : Bool
  d : Operand
  a : Operand
  imm : Word
  deriving DecidableEq, Repr

/-- R-format word with the MR form in C (R222). -/
structure MRWord where
  w : Bool
  d : Operand
  a : Operand
  tail : VTail
  sat : Bool
  mask : BitVec 3
  deriving DecidableEq, Repr

/-- A conversion with a packed position (R291). -/
structure CvtWord where
  p : BitVec 2
  v : MRWord
  deriving DecidableEq, Repr

/-- Major 0x0A: C is a third source and the rounding stands in FN (R283). -/
structure FmaWord where
  w : Bool
  rnd : BitVec 2
  d : Operand
  a : Operand
  b : Operand
  c : Operand
  mod : SrcMod
  deriving DecidableEq, Repr

/-- M-format word (R214). -/
structure MWord where
  w : Bool
  scope : Scope
  size : Size
  d : Operand
  base : Operand
  idx : Operand
  scale : BitVec 2
  ord : Order
  off : BitVec 18
  deriving DecidableEq, Repr

/-- An atomic: R-format with the ordering field (R223). -/
structure AWord where
  w : Bool
  d : Operand
  a : Operand
  b : Operand
  c : Operand
  ord : Order
  scope : Scope
  asz : BitVec 2
  deriving DecidableEq, Repr

/-- A fence of R165; its order is the row's own. -/
structure FenceWord where
  w : Bool
  scope : Scope
  deriving DecidableEq, Repr

/-- xfence.a.b (R170, R272). -/
structure XfenceWord where
  w : Bool
  a : Path
  b : Path
  deriving DecidableEq, Repr

/-- The short opcodes (R227). -/
inductive Sop where
  | mov | addI32 | subI32 | andB32 | orB32 | xorB32 | shlB32 | shrN32 | shrI32 | minI32
  | maxI32 | minN32 | maxN32 | addF32 | subF32 | mulF32 | minF32 | maxF32 | addBf16 | mulBf16
  deriving DecidableEq, Repr

/-- One short operation of a pair word (R214). -/
structure ShortOp where
  op : Sop
  d : ShortOperand
  a : ShortOperand
  b : ShortOperand
  deriving DecidableEq, Repr

/-- P-format word (R214). -/
structure PairWord where
  w : Bool
  op1 : ShortOp
  op2 : ShortOp
  deriving DecidableEq, Repr

/-! ## Data that events carry -/

/-- A split of a group: core = 96 * die + 8 * cluster + slot of the core (R106), the crew's resident slot, GID and split number. -/
structure SplitRef where
  core : Nat
  crew : Nat
  gid : Nat
  split : Nat
  deriving DecidableEq, Repr

/-- An outcome that a far device gives (R179, R263): data for each word asked for, or the kind of the peer or host fault. -/
inductive FarAnswer where
  | ok (data : List Dword)
  | fault (kind : BitVec 3)
  deriving DecidableEq, Repr

/-- An ATS translation completion (R44): a host physical address for 2^size bytes with its rights, or no permission. -/
structure AtsAnswer where
  hpa : Nat
  size : Nat
  read : Bool
  write : Bool
  deriving DecidableEq, Repr

/-- The response to a page request (R45). -/
inductive PriCode where
  | success | invalidRequest | responseFailure
  deriving DecidableEq, Repr

/-- KIND of a peer-port flit (R18). -/
inductive FlitKind where
  | data | idle | retry | reserved
  deriving DecidableEq, Repr

/-- A peer-port flit (R18). The payload is its 1,920 bits. -/
structure Flit where
  crc : Dword
  payload : BitVec 1920
  fseq : BitVec 12
  fack : BitVec 12
  stop : BitVec 4
  vc : BitVec 2
  kind : FlitKind
  len : BitVec 5
  reserved : BitVec 27
  deriving DecidableEq, Repr

/-- What an inbound peer access asks for: a load, a store, or an atomic of R267 (R144, R266). -/
inductive PeerOp where
  | load | store | add | and | or | xor | smin | smax | umin | umax | exch | cas | fadd
  deriving DecidableEq, Repr

/-- An inbound peer access: its address, size in bytes, data, and the third operand of a cas. -/
structure PeerAccess where
  op : PeerOp
  va : Dword
  size : Nat
  data : Dword
  data2 : Dword
  deriving DecidableEq, Repr

/-- The place whose rail connection or voltage changes (R65). -/
inductive RailTarget where
  | cluster (die cluster : Nat)
  | rail (n : Nat)
  deriving DecidableEq, Repr

/-- The host write that the host answered with an error (R49, R184). -/
inductive HostWriteRef where
  | completion (packet : Nat)
  | faultEntry (fn : Nat)
  deriving DecidableEq, Repr

/-- An access that a checker rejects (R148). -/
inductive StaleRef where
  | load (r : SplitRef)
  | store (r : SplitRef)
  | copy (cmd : Nat)
  deriving DecidableEq, Repr

/-- The instructions and steps of the Vorkel: one constructor for each row of the opcode table, in the table's order. The rule named is the row's. -/
inductive Instr where
  /-- MODULE_RESET (R24) -/
  | moduleReset
  /-- TIME_TICK (R24) -/
  | timeTick (slip : BitVec 34)
  /-- ALIGNMENT_PULSE (R24) -/
  | alignmentPulse
  /-- REGISTER_WRITE (R31) -/
  | registerWrite (fn : BitVec 6) (off : BitVec 18) (size : Nat) (val : Dword)
  /-- AQI_CTL_WRITE (R36) -/
  | aqiCtlWrite (fn : BitVec 6) (n : BitVec 5) (val : Dword)
  /-- DOORBELL_WRITE (R38) -/
  | doorbellWrite (fn : BitVec 6) (n : BitVec 5) (size : Nat) (val : Dword)
  /-- PACKET_FETCH (R39) -/
  | packetFetch (fn : BitVec 6) (n : BitVec 5)
  /-- TORN_SUBMISSION (R39) -/
  | tornSubmission (fn : BitVec 6) (n : BitVec 5)
  /-- NOP_PACKET (R42) -/
  | nopPacket (id : Nat)
  /-- LAUNCH (R42) -/
  | launch (id : Nat)
  /-- CANCEL_PACKET (R42) -/
  | cancelPacket (id : Nat)
  /-- SIGNAL (R42) -/
  | signal (id : Nat)
  /-- SNAPCUT (R51) -/
  | snapcut (id : Nat)
  /-- CUT_SWITCH (R158) -/
  | cutSwitch (p : BitVec 6) (snap : BitVec 3)
  /-- STREAM (R52) -/
  | stream (id : Nat)
  /-- SNAPEND (R53) -/
  | snapend (id : Nat)
  /-- PACKET_COMPLETION (R48) -/
  | packetCompletion (id : Nat)
  /-- ATS_TRANSLATION_RESPONSE (R44) -/
  | atsTranslationResponse (fn : BitVec 6) (pasid : BitVec 20) (iova : Nat) (ans : Option AtsAnswer)
  /-- PAGE_REQUEST_RESPONSE (R45) -/
  | pageRequestResponse (fn : BitVec 6) (pasid : BitVec 20) (iova : Nat) (code : PriCode)
  /-- PAGE_REQUEST_TIMEOUT (R45) -/
  | pageRequestTimeout (fn : BitVec 6) (pasid : BitVec 20) (iova : Nat)
  /-- ATS_INVALIDATION (R46) -/
  | atsInvalidation (fn : BitVec 6) (pasid : BitVec 20) (iova : Nat) (len : Nat)
  /-- FLIT_TRANSMIT (R20) -/
  | flitTransmit (port : Nat) (vc : BitVec 2)
  /-- IDLE_FLIT (R20) -/
  | idleFlit (port : Nat)
  /-- FLIT_RECEIVE (R19) -/
  | flitReceive (port : Nat) (flit : Flit)
  /-- RETRAIN_COMPLETE (R22) -/
  | retrainComplete (port : Nat)
  /-- RETRAIN_TIMEOUT (R22) -/
  | retrainTimeout (port : Nat)
  /-- PPRETR_WRITE (R22) -/
  | ppretrWrite (val : Dword)
  /-- PEER_INBOUND_ACCESS (R144) -/
  | peerInboundAccess (port : Nat) (acc : PeerAccess)
  /-- FMAP_WRITE (R55) -/
  | fmapWrite (val : Dword)
  /-- FWALL_WRITE (R55) -/
  | fwallWrite (val : Dword)
  /-- PPMAP_WRITE (R55) -/
  | ppmapWrite (high : Bool) (val : Dword)
  /-- PARTITION_ENABLE (R57) -/
  | partitionEnable (p : BitVec 6) (val : Dword)
  /-- PARTITION_RESET (R58) -/
  | partitionReset (p : BitVec 6) (val : Dword)
  /-- FOWN_WRITE (R59) -/
  | fownWrite (f : BitVec 10) (val : Byte)
  /-- FRAME_ZEROED (R59) -/
  | frameZeroed (f : BitVec 10)
  /-- SCTB_WRITE (R89) -/
  | sctbWrite (p : BitVec 6) (val : Dword)
  /-- RSW_WRITE (R65) -/
  | rswWrite (die : BitVec 3) (val : Dword)
  /-- RVOLT_WRITE (R65) -/
  | rvoltWrite (rail : BitVec 2) (val : Dword)
  /-- QUIESCE_TIMEOUT (R65) -/
  | quiesceTimeout (t : RailTarget)
  /-- RAIL_CHANGE_APPLIED (R65) -/
  | railChangeApplied (t : RailTarget)
  /-- RAIL_OVERCURRENT (R27) -/
  | railOvercurrent (rail : BitVec 2)
  /-- THROTTLE_RELEASE (R27) -/
  | throttleRelease (rail : BitVec 2)
  /-- CONTROL_INTERVAL_END (R63) -/
  | controlIntervalEnd (energy : List (Nat × Nat))
  /-- THERM_WRITE (R67) -/
  | thermWrite (die : BitVec 3) (val : Dword)
  /-- TEMPERATURE_READ (R66) -/
  | temperatureRead (core : Nat) (temp : Nat)
  /-- THERMAL_CUT_STEP (R66) -/
  | thermalCutStep (core : Nat)
  /-- ROW_TEST_DONE (R68) -/
  | rowTestDone (row : Nat) (pass : Bool) (spareLeft : Bool)
  /-- SPRE_REQUEST (R102) -/
  | spreRequest (die : BitVec 3) (val : Dword)
  /-- SPRE_RELEASE (R102) -/
  | spreRelease (die : BitVec 3) (val : Dword)
  /-- SPRE_DONE (R103) -/
  | spreDone (die : BitVec 3)
  /-- CAPMASK_WRITE (R255) -/
  | capmaskWrite (val : Dword)
  /-- ASTB_WRITE (R144) -/
  | astbWrite (fn : BitVec 6) (val : Dword)
  /-- PPAS_WRITE (R144) -/
  | ppasWrite (port : Nat) (val : Dword)
  /-- GCMD_WRITE (R149) -/
  | gcmdWrite (fn : BitVec 6) (val : Dword)
  /-- GENERATION_ADVANCE_DONE (R149) -/
  | generationAdvanceDone (fn : BitVec 6)
  /-- STALE_REJECTION (R148) -/
  | staleRejection (r : StaleRef)
  /-- TRANSLATION_WALK (R145) -/
  | translationWalk (cluster : Nat) (fn : BitVec 6) (pasid : BitVec 20) (va : Dword)
  /-- WALK_TIMEOUT (R179) -/
  | walkTimeout (r : SplitRef)
  /-- PREFETCH (R143) -/
  | prefetch (cluster : Nat) (fn : BitVec 6) (pasid : BitVec 20) (va : Dword)
  /-- RESULT_RETURN (R118) -/
  | resultReturn (r : SplitRef) (id : Nat) (ans : FarAnswer)
  /-- STORE_ACKNOWLEDGE (R262) -/
  | storeAcknowledge (r : SplitRef) (id : Nat) (ans : FarAnswer)
  /-- ISSUE_CYCLE (R122) -/
  | issueCycle (core : Nat)
  /-- GENERATE_RECORD (R79) -/
  | generateRecord (p : BitVec 6) (launch : Word) (slot : Nat)
  /-- STEP_BOUNDARY (R79) -/
  | stepBoundary (p : BitVec 6) (launch : Word)
  /-- DISPATCH_BIND (R86) -/
  | dispatchBind (die : BitVec 3)
  /-- WORK_STEAL (R84) -/
  | workSteal (die : BitVec 3)
  /-- SLICE_END (R60) -/
  | sliceEnd (fence : BitVec 3)
  /-- GROUP_RESUME (R60) -/
  | groupResume (core : Nat) (crew : Nat) (gid : Nat)
  /-- CREW_RETIRE (R75) -/
  | crewRetire (core : Nat) (crew : Nat)
  /-- QUEUE_RETRY (R81) -/
  | queueRetry (die : BitVec 3)
  /-- CANCEL_APPLY (R93) -/
  | cancelApply (die : BitVec 3) (p : BitVec 6) (scope : BitVec 16)
  /-- KILL_TIMEOUT (R94) -/
  | killTimeout (core : Nat) (crew : Nat) (gid : Nat)
  /-- CANCEL_ACKNOWLEDGE (R97) -/
  | cancelAcknowledge (p : BitVec 6) (scope : BitVec 16)
  /-- MIGRATION (R137) -/
  | migration (core : Nat) (crew : Nat) (target : Nat)
  /-- MIGRATION_STOP_TIMEOUT (R137) -/
  | migrationStopTimeout (core : Nat) (crew : Nat) (gid : Nat)
  /-- FQCTL_WRITE (R184) -/
  | fqctlWrite (fn : BitVec 6) (val : Dword)
  /-- FQHEAD_WRITE (R184) -/
  | fqheadWrite (fn : BitVec 6) (val : Dword)
  /-- FRES_RETRY (R184) -/
  | fresRetry (fn : BitVec 6) (token : Word)
  /-- FRES_KILL (R184) -/
  | fresKill (fn : BitVec 6) (token : Word)
  /-- ACCUMULATOR_SWITCH (R190) -/
  | accumulatorSwitch (core : Nat) (crew : Nat) (tile : BitVec 2)
  /-- COPY_START (R151) -/
  | copyStart (core : Nat) (crew : Nat)
  /-- COPY (R154) -/
  | copy (cmd : Nat)
  /-- TRANSPOSE (R154) -/
  | transpose (cmd : Nat)
  /-- FILL (R154) -/
  | fill (cmd : Nat)
  /-- CASK_ADD (R155) -/
  | caskAdd (cmd : Nat)
  /-- SETTLE (R156) -/
  | settle (cmd : Nat)
  /-- GRIST_LOAD (R154) -/
  | gristLoad (cmd : Nat)
  /-- CELLAR_STREAM (R158) -/
  | cellarStream (cmd : Nat)
  /-- COPY_COMPLETE (R153) -/
  | copyComplete (cmd : Nat)
  /-- TUN_STEP (R307) -/
  | tunStep (core : Nat)
  /-- TUN_OPERATION_DONE (R300) -/
  | tunOperationDone (core : Nat)
  /-- PEER_ADD_APPLY (R313) -/
  | peerAddApply (core : Nat) (crew : Nat) (tile : BitVec 2)
  /-- CTAB_DONE (R315) -/
  | ctabDone (core : Nat)
  /-- WAIT_TIMEOUT (R323) -/
  | waitTimeout (r : SplitRef)
  /-- PAIR_WORD (R117) -/
  | pairWord (f : PairWord)
  /-- NOP (R252) -/
  | nop (f : RWord)
  /-- CAPQ (R253) -/
  | capq (f : RWord)
  /-- TRAP (R332) -/
  | trap (f : RWord)
  /-- RTE (R333) -/
  | rte (f : RWord)
  /-- BR (R241) -/
  | br (f : IWord)
  /-- BZ (R241) -/
  | bz (f : IWord)
  /-- BNZ (R241) -/
  | bnz (f : IWord)
  /-- BK (R241) -/
  | bk (f : IWord)
  /-- BNK (R241) -/
  | bnk (f : IWord)
  /-- CALL (R242) -/
  | call (f : IWord)
  /-- RET (R242) -/
  | ret (f : IWord)
  /-- MARK (R244) -/
  | mark (f : IWord)
  /-- JOIN (R244) -/
  | join (f : IWord)
  /-- EXIT (R245) -/
  | exit (f : IWord)
  /-- ADD_B64 (R233) -/
  | addB64 (f : RWord)
  /-- SUB_B64 (R233) -/
  | subB64 (f : RWord)
  /-- MUL_B64 (R233) -/
  | mulB64 (f : RWord)
  /-- MULHI_I64 (R233) -/
  | mulhiI64 (f : RWord)
  /-- MULHI_N64 (R233) -/
  | mulhiN64 (f : RWord)
  /-- AND_B64 (R233) -/
  | andB64 (f : RWord)
  /-- OR_B64 (R233) -/
  | orB64 (f : RWord)
  /-- XOR_B64 (R233) -/
  | xorB64 (f : RWord)
  /-- ANDN_B64 (R233) -/
  | andnB64 (f : RWord)
  /-- SHL_B64 (R233) -/
  | shlB64 (f : RWord)
  /-- SHR_N64 (R233) -/
  | shrN64 (f : RWord)
  /-- SHR_I64 (R233) -/
  | shrI64 (f : RWord)
  /-- MIN_I64 (R233) -/
  | minI64 (f : RWord)
  /-- MAX_I64 (R233) -/
  | maxI64 (f : RWord)
  /-- MIN_N64 (R233) -/
  | minN64 (f : RWord)
  /-- MAX_N64 (R233) -/
  | maxN64 (f : RWord)
  /-- MADD_B64 (R233) -/
  | maddB64 (f : RWord)
  /-- ADDO_I64 (R235) -/
  | addoI64 (f : RWord)
  /-- ADDO_N64 (R235) -/
  | addoN64 (f : RWord)
  /-- SUBO_I64 (R235) -/
  | suboI64 (f : RWord)
  /-- SUBO_N64 (R235) -/
  | suboN64 (f : RWord)
  /-- MULO_I64 (R235) -/
  | muloI64 (f : RWord)
  /-- MULO_N64 (R235) -/
  | muloN64 (f : RWord)
  /-- ADDI_B64 (R236) -/
  | addiB64 (f : IWord)
  /-- ANDI_B64 (R236) -/
  | andiB64 (f : IWord)
  /-- ORI_B64 (R236) -/
  | oriB64 (f : IWord)
  /-- XORI_B64 (R236) -/
  | xoriB64 (f : IWord)
  /-- INSH_B64 (R236) -/
  | inshB64 (f : IWord)
  /-- MOVI_B64 (R236) -/
  | moviB64 (f : IWord)
  /-- CMP_EQ_B64 (R237) -/
  | cmpEqB64 (f : RWord)
  /-- CMP_NE_B64 (R237) -/
  | cmpNeB64 (f : RWord)
  /-- CMP_LT_I64 (R237) -/
  | cmpLtI64 (f : RWord)
  /-- CMP_LE_I64 (R237) -/
  | cmpLeI64 (f : RWord)
  /-- CMP_LT_N64 (R237) -/
  | cmpLtN64 (f : RWord)
  /-- CMP_LE_N64 (R237) -/
  | cmpLeN64 (f : RWord)
  /-- SEL_B64 (R237) -/
  | selB64 (f : RWord)
  /-- POPC_B64 (R237) -/
  | popcB64 (f : RWord)
  /-- CLZ_B64 (R237) -/
  | clzB64 (f : RWord)
  /-- CTZ_B64 (R237) -/
  | ctzB64 (f : RWord)
  /-- BREV_B64 (R237) -/
  | brevB64 (f : RWord)
  /-- BEXT_B64 (R238) -/
  | bextB64 (f : RWord)
  /-- BINS_B64 (R238) -/
  | binsB64 (f : RWord)
  /-- RDFR (R248) -/
  | rdfr (f : RWord)
  /-- WRSR (R249) -/
  | wrsr (f : RWord)
  /-- SE (R246) -/
  | se (f : IWord)
  /-- MIGR (R247) -/
  | migr (f : IWord)
  /-- ADD_I32 (R277) -/
  | addI32 (f : MRWord)
  /-- SUB_I32 (R277) -/
  | subI32 (f : MRWord)
  /-- ADD_N32 (R277) -/
  | addN32 (f : MRWord)
  /-- SUB_N32 (R277) -/
  | subN32 (f : MRWord)
  /-- AND_B32 (R277) -/
  | andB32 (f : MRWord)
  /-- OR_B32 (R277) -/
  | orB32 (f : MRWord)
  /-- XOR_B32 (R277) -/
  | xorB32 (f : MRWord)
  /-- ANDN_B32 (R277) -/
  | andnB32 (f : MRWord)
  /-- SHL_B32 (R277) -/
  | shlB32 (f : MRWord)
  /-- SHR_N32 (R277) -/
  | shrN32 (f : MRWord)
  /-- SHR_I32 (R277) -/
  | shrI32 (f : MRWord)
  /-- MIN_I32 (R277) -/
  | minI32 (f : MRWord)
  /-- MAX_I32 (R277) -/
  | maxI32 (f : MRWord)
  /-- MIN_N32 (R277) -/
  | minN32 (f : MRWord)
  /-- MAX_N32 (R277) -/
  | maxN32 (f : MRWord)
  /-- MUL_B32 (R277) -/
  | mulB32 (f : MRWord)
  /-- MULHI_I32 (R277) -/
  | mulhiI32 (f : MRWord)
  /-- MULHI_N32 (R277) -/
  | mulhiN32 (f : MRWord)
  /-- DRCP_N32 (R279) -/
  | drcpN32 (f : MRWord)
  /-- DCOR_N32 (R279) -/
  | dcorN32 (f : MRWord)
  /-- ADD_I16 (R277) -/
  | addI16 (f : MRWord)
  /-- SUB_I16 (R277) -/
  | subI16 (f : MRWord)
  /-- MIN_I16 (R277) -/
  | minI16 (f : MRWord)
  /-- MAX_I16 (R277) -/
  | maxI16 (f : MRWord)
  /-- ADD_I8 (R277) -/
  | addI8 (f : MRWord)
  /-- SUB_I8 (R277) -/
  | subI8 (f : MRWord)
  /-- MIN_N8 (R277) -/
  | minN8 (f : MRWord)
  /-- MAX_N8 (R277) -/
  | maxN8 (f : MRWord)
  /-- ABS_I32 (R277) -/
  | absI32 (f : MRWord)
  /-- POPC_B32 (R277) -/
  | popcB32 (f : MRWord)
  /-- CLZ_B32 (R277) -/
  | clzB32 (f : MRWord)
  /-- BREV_B32 (R277) -/
  | brevB32 (f : MRWord)
  /-- ADDI_I32 (R280) -/
  | addiI32 (f : IWord)
  /-- ANDI_B32 (R280) -/
  | andiB32 (f : IWord)
  /-- ORI_B32 (R280) -/
  | oriB32 (f : IWord)
  /-- XORI_B32 (R280) -/
  | xoriB32 (f : IWord)
  /-- SHLI_B32 (R280) -/
  | shliB32 (f : IWord)
  /-- SHRI_N32 (R280) -/
  | shriN32 (f : IWord)
  /-- SHRI_I32 (R280) -/
  | shriI32 (f : IWord)
  /-- MOVI_B32 (R280) -/
  | moviB32 (f : IWord)
  /-- ADD_F32 (R282) -/
  | addF32 (f : MRWord)
  /-- SUB_F32 (R282) -/
  | subF32 (f : MRWord)
  /-- MUL_F32 (R282) -/
  | mulF32 (f : MRWord)
  /-- MIN_F32 (R282) -/
  | minF32 (f : MRWord)
  /-- MAX_F32 (R282) -/
  | maxF32 (f : MRWord)
  /-- ADD_F16 (R282) -/
  | addF16 (f : MRWord)
  /-- SUB_F16 (R282) -/
  | subF16 (f : MRWord)
  /-- MUL_F16 (R282) -/
  | mulF16 (f : MRWord)
  /-- MIN_F16 (R282) -/
  | minF16 (f : MRWord)
  /-- MAX_F16 (R282) -/
  | maxF16 (f : MRWord)
  /-- ADD_BF16 (R282) -/
  | addBf16 (f : MRWord)
  /-- SUB_BF16 (R282) -/
  | subBf16 (f : MRWord)
  /-- MUL_BF16 (R282) -/
  | mulBf16 (f : MRWord)
  /-- MIN_BF16 (R282) -/
  | minBf16 (f : MRWord)
  /-- MAX_BF16 (R282) -/
  | maxBf16 (f : MRWord)
  /-- ABS_F32 (R282) -/
  | absF32 (f : MRWord)
  /-- NEG_F32 (R282) -/
  | negF32 (f : MRWord)
  /-- ABS_F16 (R282) -/
  | absF16 (f : MRWord)
  /-- NEG_F16 (R282) -/
  | negF16 (f : MRWord)
  /-- ABS_BF16 (R282) -/
  | absBf16 (f : MRWord)
  /-- NEG_BF16 (R282) -/
  | negBf16 (f : MRWord)
  /-- FMA_F32 (R283) -/
  | fmaF32 (f : FmaWord)
  /-- FMS_F32 (R283) -/
  | fmsF32 (f : FmaWord)
  /-- FNMA_F32 (R283) -/
  | fnmaF32 (f : FmaWord)
  /-- FNMS_F32 (R283) -/
  | fnmsF32 (f : FmaWord)
  /-- FMA_F16 (R283) -/
  | fmaF16 (f : FmaWord)
  /-- FMA_BF16 (R283) -/
  | fmaBf16 (f : FmaWord)
  /-- CMP_EQ_I32 (R284) -/
  | cmpEqI32 (f : MRWord)
  /-- CMP_NE_I32 (R284) -/
  | cmpNeI32 (f : MRWord)
  /-- CMP_LT_I32 (R284) -/
  | cmpLtI32 (f : MRWord)
  /-- CMP_LE_I32 (R284) -/
  | cmpLeI32 (f : MRWord)
  /-- CMP_LT_N32 (R284) -/
  | cmpLtN32 (f : MRWord)
  /-- CMP_LE_N32 (R284) -/
  | cmpLeN32 (f : MRWord)
  /-- CMP_EQ_F32 (R284) -/
  | cmpEqF32 (f : MRWord)
  /-- CMP_NE_F32 (R284) -/
  | cmpNeF32 (f : MRWord)
  /-- CMP_LT_F32 (R284) -/
  | cmpLtF32 (f : MRWord)
  /-- CMP_LE_F32 (R284) -/
  | cmpLeF32 (f : MRWord)
  /-- CMP_UN_F32 (R284) -/
  | cmpUnF32 (f : MRWord)
  /-- KAND (R285) -/
  | kand (f : MRWord)
  /-- KOR (R285) -/
  | kor (f : MRWord)
  /-- KXOR (R285) -/
  | kxor (f : MRWord)
  /-- KANDN (R285) -/
  | kandn (f : MRWord)
  /-- KNOT (R285) -/
  | knot (f : MRWord)
  /-- KFIRST (R285) -/
  | kfirst (f : MRWord)
  /-- COMPRESS_B32 (R287) -/
  | compressB32 (f : MRWord)
  /-- EXPAND_B32 (R287) -/
  | expandB32 (f : MRWord)
  /-- SLIDEUP_B32 (R287) -/
  | slideupB32 (f : MRWord)
  /-- SLIDEDN_B32 (R287) -/
  | slidednB32 (f : MRWord)
  /-- MATCH_B32 (R287) -/
  | matchB32 (f : MRWord)
  /-- RED_ADD_I32 (R289) -/
  | redAddI32 (f : MRWord)
  /-- RED_ADD_F32 (R289) -/
  | redAddF32 (f : MRWord)
  /-- RED_MIN_I32 (R289) -/
  | redMinI32 (f : MRWord)
  /-- RED_MAX_I32 (R289) -/
  | redMaxI32 (f : MRWord)
  /-- RED_MIN_N32 (R289) -/
  | redMinN32 (f : MRWord)
  /-- RED_MAX_N32 (R289) -/
  | redMaxN32 (f : MRWord)
  /-- RED_MIN_F32 (R289) -/
  | redMinF32 (f : MRWord)
  /-- RED_MAX_F32 (R289) -/
  | redMaxF32 (f : MRWord)
  /-- RED_AND_B32 (R289) -/
  | redAndB32 (f : MRWord)
  /-- RED_OR_B32 (R289) -/
  | redOrB32 (f : MRWord)
  /-- RED_XOR_B32 (R289) -/
  | redXorB32 (f : MRWord)
  /-- SCAN_ADD_I32 (R289) -/
  | scanAddI32 (f : MRWord)
  /-- SCAN_ADD_F32 (R289) -/
  | scanAddF32 (f : MRWord)
  /-- SCAN_MAX_I32 (R289) -/
  | scanMaxI32 (f : MRWord)
  /-- SCAN_MAX_F32 (R289) -/
  | scanMaxF32 (f : MRWord)
  /-- CVT_F16_F32 (R292) -/
  | cvtF16F32 (f : CvtWord)
  /-- CVT_BF16_F32 (R292) -/
  | cvtBf16F32 (f : CvtWord)
  /-- CVT_F8E4_F32 (R292) -/
  | cvtF8e4F32 (f : CvtWord)
  /-- CVT_F8E5_F32 (R292) -/
  | cvtF8e5F32 (f : CvtWord)
  /-- CVT_F32_F16 (R292) -/
  | cvtF32F16 (f : CvtWord)
  /-- CVT_F32_BF16 (R292) -/
  | cvtF32Bf16 (f : CvtWord)
  /-- CVT_F32_F8E4 (R292) -/
  | cvtF32F8e4 (f : CvtWord)
  /-- CVT_F32_F8E5 (R292) -/
  | cvtF32F8e5 (f : CvtWord)
  /-- CVT_F32_I32 (R292) -/
  | cvtF32I32 (f : MRWord)
  /-- CVT_F32_N32 (R292) -/
  | cvtF32N32 (f : MRWord)
  /-- CVT_I32_F32 (R292) -/
  | cvtI32F32 (f : MRWord)
  /-- CVT_N32_F32 (R292) -/
  | cvtN32F32 (f : MRWord)
  /-- PACK_I16_I32 (R292) -/
  | packI16I32 (f : MRWord)
  /-- PACK_I8_I16 (R292) -/
  | packI8I16 (f : MRWord)
  /-- CVT_HQ4_F32 (R294) -/
  | cvtHq4F32 (f : MRWord)
  /-- RCP_F32 (R295) -/
  | rcpF32 (f : MRWord)
  /-- RSQRT_F32 (R295) -/
  | rsqrtF32 (f : MRWord)
  /-- SQRT_F32 (R295) -/
  | sqrtF32 (f : MRWord)
  /-- EXP2_F32 (R295) -/
  | exp2F32 (f : MRWord)
  /-- LOG2_F32 (R295) -/
  | log2F32 (f : MRWord)
  /-- SINPI_F32 (R295) -/
  | sinpiF32 (f : MRWord)
  /-- COSPI_F32 (R295) -/
  | cospiF32 (f : MRWord)
  /-- TANH_F32 (R295) -/
  | tanhF32 (f : MRWord)
  /-- DIV_F32 (R295) -/
  | divF32 (f : MRWord)
  /-- LDS (R260) -/
  | lds (f : MWord)
  /-- STS (R260) -/
  | sts (f : MWord)
  /-- LDC (R260) -/
  | ldc (f : MWord)
  /-- STC (R260) -/
  | stc (f : MWord)
  /-- LDD (R260) -/
  | ldd (f : MWord)
  /-- STD (R260) -/
  | std (f : MWord)
  /-- LDP (R260) -/
  | ldp (f : MWord)
  /-- STP (R260) -/
  | stp (f : MWord)
  /-- LDH (R260) -/
  | ldh (f : MWord)
  /-- STH (R266) -/
  | sth (f : MWord)
  /-- LDK (R265) -/
  | ldk (f : MWord)
  /-- ATS_ADD (R269) -/
  | atsAdd (f : AWord)
  /-- ATS_AND (R269) -/
  | atsAnd (f : AWord)
  /-- ATS_OR (R269) -/
  | atsOr (f : AWord)
  /-- ATS_XOR (R269) -/
  | atsXor (f : AWord)
  /-- ATS_SMIN (R269) -/
  | atsSmin (f : AWord)
  /-- ATS_SMAX (R269) -/
  | atsSmax (f : AWord)
  /-- ATS_UMIN (R269) -/
  | atsUmin (f : AWord)
  /-- ATS_UMAX (R269) -/
  | atsUmax (f : AWord)
  /-- ATS_EXCH (R269) -/
  | atsExch (f : AWord)
  /-- ATS_CAS (R269) -/
  | atsCas (f : AWord)
  /-- ATS_FADD (R269) -/
  | atsFadd (f : AWord)
  /-- ATC_ADD (R269) -/
  | atcAdd (f : AWord)
  /-- ATC_AND (R269) -/
  | atcAnd (f : AWord)
  /-- ATC_OR (R269) -/
  | atcOr (f : AWord)
  /-- ATC_XOR (R269) -/
  | atcXor (f : AWord)
  /-- ATC_SMIN (R269) -/
  | atcSmin (f : AWord)
  /-- ATC_SMAX (R269) -/
  | atcSmax (f : AWord)
  /-- ATC_UMIN (R269) -/
  | atcUmin (f : AWord)
  /-- ATC_UMAX (R269) -/
  | atcUmax (f : AWord)
  /-- ATC_EXCH (R269) -/
  | atcExch (f : AWord)
  /-- ATC_CAS (R269) -/
  | atcCas (f : AWord)
  /-- ATC_FADD (R269) -/
  | atcFadd (f : AWord)
  /-- ATD_ADD (R269) -/
  | atdAdd (f : AWord)
  /-- ATD_AND (R269) -/
  | atdAnd (f : AWord)
  /-- ATD_OR (R269) -/
  | atdOr (f : AWord)
  /-- ATD_XOR (R269) -/
  | atdXor (f : AWord)
  /-- ATD_SMIN (R269) -/
  | atdSmin (f : AWord)
  /-- ATD_SMAX (R269) -/
  | atdSmax (f : AWord)
  /-- ATD_UMIN (R269) -/
  | atdUmin (f : AWord)
  /-- ATD_UMAX (R269) -/
  | atdUmax (f : AWord)
  /-- ATD_EXCH (R269) -/
  | atdExch (f : AWord)
  /-- ATD_CAS (R269) -/
  | atdCas (f : AWord)
  /-- ATD_FADD (R269) -/
  | atdFadd (f : AWord)
  /-- ATR_P_ADD (R269) -/
  | atrPAdd (f : AWord)
  /-- ATR_P_AND (R269) -/
  | atrPAnd (f : AWord)
  /-- ATR_P_OR (R269) -/
  | atrPOr (f : AWord)
  /-- ATR_P_XOR (R269) -/
  | atrPXor (f : AWord)
  /-- ATR_P_SMIN (R269) -/
  | atrPSmin (f : AWord)
  /-- ATR_P_SMAX (R269) -/
  | atrPSmax (f : AWord)
  /-- ATR_P_UMIN (R269) -/
  | atrPUmin (f : AWord)
  /-- ATR_P_UMAX (R269) -/
  | atrPUmax (f : AWord)
  /-- ATR_P_EXCH (R269) -/
  | atrPExch (f : AWord)
  /-- ATR_P_CAS (R269) -/
  | atrPCas (f : AWord)
  /-- ATR_P_FADD (R269) -/
  | atrPFadd (f : AWord)
  /-- ATR_H_ADD (R269) -/
  | atrHAdd (f : AWord)
  /-- ATR_H_AND (R269) -/
  | atrHAnd (f : AWord)
  /-- ATR_H_OR (R269) -/
  | atrHOr (f : AWord)
  /-- ATR_H_XOR (R269) -/
  | atrHXor (f : AWord)
  /-- ATR_H_SMIN (R269) -/
  | atrHSmin (f : AWord)
  /-- ATR_H_SMAX (R269) -/
  | atrHSmax (f : AWord)
  /-- ATR_H_UMIN (R269) -/
  | atrHUmin (f : AWord)
  /-- ATR_H_UMAX (R269) -/
  | atrHUmax (f : AWord)
  /-- ATR_H_EXCH (R269) -/
  | atrHExch (f : AWord)
  /-- ATR_H_CAS (R269) -/
  | atrHCas (f : AWord)
  /-- ATR_H_FADD (R269) -/
  | atrHFadd (f : AWord)
  /-- FENCE_ACQ (R165) -/
  | fenceAcq (f : FenceWord)
  /-- FENCE_REL (R165) -/
  | fenceRel (f : FenceWord)
  /-- FENCE_AR (R165) -/
  | fenceAr (f : FenceWord)
  /-- FENCE_TOT (R168) -/
  | fenceTot (f : FenceWord)
  /-- XFENCE (R170) -/
  | xfence (f : XfenceWord)
  /-- FENCE_I (R171) -/
  | fenceI (w : Bool)
  /-- BAR_ARR (R321) -/
  | barArr (f : RWord)
  /-- BAR_HOLD (R321) -/
  | barHold (f : RWord)
  /-- WAIT (R323) -/
  | wait (f : RWord)
  /-- PASS (R324) -/
  | pass (f : RWord)
  /-- CPOST (R325) -/
  | cpost (f : RWord)
  /-- CDRAIN (R326) -/
  | cdrain (f : RWord)
  /-- SPAWN (R327) -/
  | spawn (f : RWord)
  /-- SPAWN_OPEN (R327) -/
  | spawnOpen (f : RWord)
  /-- ARM (R328) -/
  | arm (f : RWord)
  /-- CANCEL (R329) -/
  | cancel (f : RWord)
  /-- STEP (R330) -/
  | step (f : RWord)
  /-- RETIRE (R331) -/
  | retire (f : RWord)
  /-- MLDA (R302) -/
  | mlda (f : MWord)
  /-- MLDA_T (R302) -/
  | mldaT (f : MWord)
  /-- MLDB (R303) -/
  | mldb (f : MWord)
  /-- MMA (R306) -/
  | mma (f : RWord)
  /-- MMA_Z (R306) -/
  | mmaZ (f : RWord)
  /-- MZERO (R308) -/
  | mzero (f : RWord)
  /-- MDRAIN (R310) -/
  | mdrain (f : RWord)
  /-- MDRAINP (R312) -/
  | mdrainp (f : RWord)
  /-- MARM (R311) -/
  | marm (f : RWord)
  /-- MSTAT (R314) -/
  | mstat (f : RWord)
  /-- CTAB (R315) -/
  | ctab (f : RWord)
  /-- MSAVE (R316) -/
  | msave (f : RWord)
  /-- MREST (R316) -/
  | mrest (f : RWord)
  /-- HOST_WRITE_ERROR (R49) -/
  | hostWriteError (r : HostWriteRef)
  deriving DecidableEq, Repr


end Sys2Proof
end

