-- ==== Sys2Proof/Machine/State.lean ====
section
/-!
DEFINITION. The state of one HV-768 as plain data, its faults and refusals, and the machine right after module reset. Each field's docstring names the
rule that gives it. Sparse maps list only what differs from the default of their kind.
-/
namespace Sys2Proof.Machine

/-- A sparse map by rising key; a key that is not listed holds the default of its kind. -/
abbrev SMap (α : Type) := List (Nat × α)

/-- Keys strictly rising. -/
def SMap.wf {α : Type} : SMap α → Bool
  | [] => true
  | [_] => true
  | (a, _) :: (b, v) :: m => decide (a < b) && SMap.wf ((b, v) :: m)

/-- A memory of bytes: strictly rising addresses, no entry equal to the byte an unlisted address reads as (log 2). -/
abbrev Memory := List Host.Cell

/-- What an unlisted byte reads as, in device memory, host memory and grist. DESIGN CHOICE (log 2). -/
def Memory.unlisted : Byte := 0#8

/-- The form that every memory keeps: addresses strictly rising and no entry that an unlisted address would read as. -/
def Memory.wf : Memory → Bool
  | [] => true
  | [(_, b)] => b != Memory.unlisted
  | (a, b) :: (a', b') :: m => b != Memory.unlisted && decide (a < a') && Memory.wf ((a', b') :: m)

/-! ## Cores, groups and splits (06, 07, 10) -/

/-- Timing classes (R105, R225). -/
inductive TClass where
  | t1 | t2 | t3 | t4
  deriving DecidableEq, Repr

/-- A register of a group. -/
inductive Reg where
  | m (i : Nat) | o (i : Nat) | x (i : Nat) | s (i : Nat) | k (i : Nat)
  deriving DecidableEq, Repr

/-- The contents of a register: lanes of an M, O or X register, or a scalar (a k register in its low 32 bits). -/
inductive Val where
  | vec (v : Lanes)
  | sc (v : Dword)
  deriving DecidableEq, Repr

/-- A write that a read may still miss (R125, R126, R162, R224, R257): the older contents, the lanes concerned, and the number of the reader's own slots that
still separate it from the result, or none for a write of another split that no fusion has ordered. -/
structure Hazard where
  /-- the number of the word that wrote -/
  id : Nat
  reg : Reg
  lanes : Mask
  old : Val
  left : Option Nat
  deriving DecidableEq, Repr

/-- One condition of a wait (R322). -/
inductive WaitCond where
  | counter (device : Bool) (addr : Nat) (target : Dword)
  | barrier (b : Nat) (target : Dword)
  | paddle
  | scope (id : Nat)
  | time (target : Dword)
  deriving DecidableEq, Repr

/-- A wait in progress (R323). -/
structure Waiting where
  dst : Nat
  t0 : Dword
  tmo : Word
  all : Bool
  conds : List WaitCond
  /-- another word has written its destination meanwhile (R118) -/
  hit : Bool
  deriving DecidableEq, Repr

/-- Why a split does not issue its next word yet. Each kind ends when its condition holds (Machine/Sched.lean). -/
inductive Park where
  /-- a paddle-needing word met a paddle its crew does not own (R108) -/
  | paddle
  /-- the Tun holds four accepted words (R300) -/
  | tunFull
  /-- the tile's arming is not complete (R311) -/
  | arming (tile : Nat)
  /-- an arrival of a later phase (R320) -/
  | phase (bar : Nat) (ph : Dword)
  /-- no room in the copy ring (R325) -/
  | ring
  /-- the grist is another partition's, and one of its started grist loads is not complete (R59, R157) -/
  | grist
  /-- mdrainp waits for its destination (R312): destination core, crew slot, tile -/
  | target (core crew tile : Nat)
  /-- a fence, which parks its group, waits for these outstanding accesses of the split (R273) -/
  | access (ids : List Nat)
  /-- xfence waits for Tun operations numbered below n (R273) -/
  | tun (n : Nat)
  /-- cdrain waits for commands below pub to the space dsp (R326) -/
  | drain (pub : Dword) (dsp : Nat)
  /-- an ATS request is under way for a page (R44), with the lane and address that met it, and whether for writing -/
  | ats (page lane : Nat) (addr : Dword) (write : Bool)
  /-- the word waits for these accesses: one after a release or a far acquire (R164, R273), a far atomic for its own answer (R271), rte for its group's -/
  | release (ids : List Nat)
  deriving DecidableEq, Repr

/-- A split of a group (R110, R129, R131). -/
structure Split where
  num : Nat
  /-- PC as PCOFF of the encoding in use (R113) -/
  pc : Pcoff
  mask : Mask
  /-- ENT (R129), and the equivalence point of the se there -/
  ent : Pcoff
  ep : BitVec 16
  closed : Bool
  /-- the split started by a fusion or a MARK's PARK entry and has issued nothing: its first word must be se (R131) -/
  fused : Bool
  /-- pending barrier wait: barrier and the count awaited (R321) -/
  barWait : Option (Nat × Dword)
  waiting : Option Waiting
  parked : Option Park
  /-- accesses that later stores and atomics wait for, after a release (R273) -/
  relIds : List Nat
  /-- far acquire accesses that every later access waits for (R164) -/
  acqIds : List Nat
  /-- what the split's next word may still read as old (R125, R126, R162) -/
  view : List Hazard
  /-- FLAGS and CTX as the word after a wrsr still reads them and acts under them (R249) -/
  oldSpec : Option (Byte × Dword)
  /-- it runs the handler (R187): the faulting split, or a part of it -/
  hnd : Bool
  /-- halted by a migration stop before an se (R133, R137), which it has not executed since: the point of that se -/
  atSe : Option Nat
  /-- rejections in a row of its strand (R148), and whether its next se enters that strand again -/
  stale : Nat
  rerun : Bool
  /-- accesses, and Tun operations, of words before the last division or fusion, which come before its words in program order (R162) -/
  past : List Nat
  tunPast : List Nat
  deriving DecidableEq, Repr

/-- KIND of a join-stack entry (R113). -/
inductive EntryKind where
  | mark | park
  deriving DecidableEq, Repr

/-- A join-stack entry (R113) with its shadow ENT (R129) and what its lanes may still read as old. Top of the stack first. -/
structure Entry where
  kind : EntryKind
  mask : Mask
  arr : Mask
  pcoff : Pcoff
  ent : Pcoff
  ep : BitVec 16
  fused : Bool
  hnd : Bool
  view : List Hazard
  /-- what the lanes' splits leave to the split that starts from it, as in Split (R162) -/
  relIds : List Nat
  acqIds : List Nat
  past : List Nat
  tunPast : List Nat
  deriving DecidableEq, Repr

/-- What an outstanding access or result is (R118, R262). -/
inductive OutKind where
  | load | store | atomic | special
  /-- the grist write of mldb, which ends when the Tun has performed it (R303) -/
  | mx
  deriving DecidableEq, Repr

/-- An access that its far end performs: at a peer, which answers from outside, or an atomic or a store on host memory, by the X-die (R266, R270). -/
inductive Far where
  | peer (write : Bool)
  | host
  deriving DecidableEq, Repr

/-- The generation under which an access was translated (R46, R147), none for that of a far device, and the code of its space's stale answer (R148, R179). -/
structure Tag where
  code : Byte
  gen : Option Nat
  deriving DecidableEq, Repr

/-- An outstanding variable-latency result or store (R118, R262). -/
structure Out where
  id : Nat
  split : Nat
  kind : OutKind
  lanes : Mask
  /-- what the result writes when it returns -/
  dests : List (Reg × Val)
  /-- lanes of destinations that another word has written meanwhile, and the bits that it wrote of each (R118, R348) -/
  contested : List (Reg × Mask × Word)
  far : Option Far
  /-- lane and address of each access, in lane order -/
  addrs : List (Nat × Dword)
  /-- width of an access in bytes -/
  width : Nat
  /-- the scalar form: one access, an s register (R260, R268) -/
  scalar : Bool
  /-- the destination register of a far answer: M or S index -/
  dst : Option Reg
  /-- offset of the word that issued it, for the fault record of a far answer, and the CTX under which that word acts (R249) -/
  pc : Pcoff
  ctx : Dword
  /-- what a load's checker compares (R147) -/
  tag : Option Tag
  /-- a release of the split's own (R172) -/
  rel : Bool
  /-- it goes over the host link (R266) -/
  host : Bool
  deriving DecidableEq, Repr

/-- The fault record (R182). -/
structure FaultRec where
  fstat : Dword
  faddr : Dword
  fpc : Dword
  fpcx : Dword
  fent : Dword
  fentx : Dword
  seq : Dword
  fctx : Dword
  deriving DecidableEq, Repr

/-- How a group is kept from running by its fault (R183, R185). -/
inductive FaultWait where
  /-- parked through the fault queue, with its TOKEN; a retry that arrived while the group was saved is recorded (R184, R185) -/
  | queue (token : Word) (retried : Bool)
  /-- waits on a page request (R45): function, PASID, guest page -/
  | pri (fn : Nat) (pasid : Nat) (page : Nat)
  /-- waits for the context sequencer to switch these tiles (R190) -/
  | context (tiles : List Nat)
  deriving DecidableEq, Repr

/-- A trap that waits to be taken (R112, R119, R290). -/
structure PendTrap where
  split : Nat
  code : Byte
  lane : Nat
  addr : Dword
  /-- the word of a far answer, where it is not the split's next (R182) -/
  pc : Option Pcoff
  /-- the CTX under which the word acts (R249) -/
  ctx : Dword
  deriving DecidableEq, Repr

/-- A group (R107, R110, R124, R182, R186, R188). -/
structure Group where
  gid : Nat
  /-- the group has not ended -/
  live : Bool
  s : Vector Dword 64
  /-- k1 to k7 at 1 to 7 -/
  k : Vector Word 8
  /-- M registers that have been written -/
  m : SMap Lanes
  /-- names the free values of the M registers that m does not list (R73, R127; log 3) -/
  mseed : Nat
  /-- its units of 32 M registers that another partition has used last, and that are zeroed (R59) -/
  mzero : List Nat
  o : Vector Lanes 16
  x : Vector Lanes 4
  seq : Dword
  flags : Byte
  ctx : Dword
  frec : FaultRec
  /-- handler mode: the faulting split, and where it resumes if it is closed (R187) -/
  handler : Option (Nat × Pcoff)
  /-- a trap that waits until the words and results of the group that it may not cut short have ended (R112, R119, R290) -/
  pendTrap : Option PendTrap
  /-- software traps that have completed (R332) and wait until an earlier trap of the group has been dealt with -/
  heldTraps : List PendTrap
  /-- TIME at which the trap that the record names was taken (R183) -/
  trapAt : Nat
  /-- splits, in rising number -/
  splits : List Split
  /-- join stack, top first (R113) -/
  stack : List Entry
  outs : List Out
  fwait : Option FaultWait
  /-- a TOKEN that software has not answered, of a group that re-runs its strand since it has resumed (R184, R185) -/
  openToken : Option Word
  /-- arrivals at each barrier so far (R320) -/
  arrived : Vector Nat 8
  /-- reaches its next kill point and dies (R93, R183) -/
  doomed : Bool
  /-- runs on to its next se for a migration (R137) -/
  migStop : Bool
  /-- stopped (halted, or before the se of a migration) -/
  stopped : Bool
  /-- a walk that timed out gives this split's next access code 0x7F (R179): the split -/
  walkOut : Option Nat
  /-- cycle at which the group's reduction or scan has left E3 (R290) -/
  holdUntil : Nat
  deriving DecidableEq, Repr

/-- A task record (R69). -/
structure TaskRec where
  code : Dword
  args : Dword
  tile : Dword
  succ : Dword
  scope : Word
  energy : BitVec 16
  peak : BitVec 16
  key : Dword
  shape : Word
  launch : Word
  rsvd : Dword
  deriving DecidableEq, Repr

/-- A code descriptor (R72). -/
structure CodeDesc where
  dbase : Dword
  lbase : Dword
  smtab : Dword
  need : Word
  mix : Word
  genergy : BitVec 16
  gpeak : BitVec 16
  cflags : Word
  nep : Word
  /-- every reserved byte is zero -/
  rsvdZero : Bool
  deriving DecidableEq, Repr

/-- The second half of a launch root (R78). -/
structure RootExt where
  nxm : BitVec 16
  nym : BitVec 16
  nzm : BitVec 16
  steplen : Dword
  dmin : Byte
  dmax : Byte
  stepctr : Dword
  keybase : Dword
  ksx : Dword
  ksy : Dword
  ksz : Dword
  rsvdZero : Bool
  deriving DecidableEq, Repr

/-- A crew barrier (R320). -/
structure Barrier where
  bph : Dword
  /-- groups that have arrived at the open phase -/
  arr : List Nat
  /-- the count they carry -/
  count : Option Nat
  deriving DecidableEq, Repr

/-- One entry of an arming (R311). -/
structure ArmEntry where
  core : Nat
  crew : Nat
  /-- position in the sender list -/
  idx : Nat
  /-- reserved by an accepted message (R312): the number of the operation that sends it -/
  reserved : Option Nat
  /-- the sender's partition and scope, while its message is in flight (R90) -/
  from_ : Option (Nat × Nat)
  /-- the message's rows, once it has been sent (rows absent are none) -/
  msg : Option (List (Option Lanes))
  applied : Bool
  cancelled : Bool
  deriving DecidableEq, Repr

/-- The arming of a tile (R311, R314). -/
structure Arming where
  f32 : Bool
  entries : List ArmEntry
  /-- operations numbered below this come before the adds (R313) -/
  after : Nat
  deriving DecidableEq, Repr

/-- A tile's 32 rows of 32 words (R299). -/
abbrev Tile := Vector Lanes 32

/-- What a crew's a0 to a3 are (R190). -/
structure TileMap where
  /-- the physical tile -/
  phys : Nat
  arming : Option Arming
  /-- the spill image -/
  saved : Option Tile
  /-- saved with poison (R192) -/
  poison : Option Nat
  deriving DecidableEq, Repr

/-- The element formats of an mma operand and the like (R194 codes). -/
abbrev Fmt := BitVec 4

/-- An accepted mma with its copies (R306). -/
structure Mma where
  z : Bool
  tile : Nat
  act : Mask
  k : Nat
  af : Fmt
  bf : Fmt
  /-- the copied run of A; lane i holds row i (R306) -/
  a : List Lanes
  /-- the copies of B's scale arrays: codes by block and column, and G by column (R209) -/
  bscale : List (List Byte)
  bg : List Word
  bank : List (BitVec 16)
  goff : Nat
  /-- K already done (R307) -/
  pos : Nat
  /-- the flags that it has raised so far, merged when it completes (R202) -/
  flags : Byte
  deriving DecidableEq, Repr

/-- What a Tun operation is. -/
inductive TunKind where
  | mma (o : Mma)
  | mzero (tile : Nat) (act : Mask)
  /-- the drain: tile, rows, destination, stride, format, i32 source, rounding, residue address, next row -/
  | mdrain (tile : Nat) (act : Mask) (dst : Nat) (str : Nat) (fmt : Fmt) (i32 : Bool) (rnd : BitVec 3) (res : Option Nat) (row : Nat)
  | mdrainp (tile : Nat) (act : Mask) (core crew dtile : Nat)
  | marm (tile : Nat)
  /-- the grist write: GOFF, lanes, run, and the store that switch markers wait for (R303) -/
  | mldb (goff : Nat) (act : Mask) (run : List Lanes) (out : Nat)
  deriving DecidableEq, Repr

/-- An operation in a Tun, or kept with its crew under a stop (R191, R300). -/
structure TunOp where
  id : Nat
  crew : Nat
  gid : Nat
  split : Nat
  kind : TunKind
  deriving DecidableEq, Repr

/-- A crew (R69 to R75, R103, R107, R151, R189, R190, R320). -/
structure Crew where
  slot : Nat
  part : Nat
  pasid : BitVec 20
  task : TaskRec
  code : CodeDesc
  /-- the priority of the queue that it came from (R81) -/
  prio : Nat
  /-- the slot that a crew that gave it up takes again when it resumes -/
  home : Nat
  round : Dword
  groups : List Group
  bars : Vector Barrier 8
  /-- the bytes of the scratchpad that have been written since the crew was bound -/
  spad : SMap Byte
  /-- names the free values of the others (R59; log 3) -/
  spadSeed : Nat
  /-- another partition has used a part of the allocation last, so that it is zeroed (R59) -/
  spadZero : Bool
  spadPoison : List Nat
  pub : Dword
  take : Dword
  /-- commands of the ring started and not ended: their names, sequence numbers and DSP (R151, R326) -/
  started : List (Nat × Nat × Nat)
  flags : Byte
  migr : Bool
  tiles : List TileMap
  bands : BitVec 64
  /-- older bytes of the grist that its MX reads may still see: a copy has written the place since the crew's last xfence.cp.mx (R142, R170) -/
  gristOld : SMap Byte
  /-- grist bands kept with a saved crew (R103), and their poisoned places (R192) -/
  savedGrist : Option (Memory × List Nat)
  usedCtab : Bool
  savedBanks : Option (List (BitVec 16) × List (BitVec 16) × Bool)
  byGen : Bool
  /-- the storage that it holds: units of 32 M registers, and KiB of scratchpad, of its core. A halted crew loses what another partition claims (R60) -/
  rows : List Nat
  blocks : List Nat
  /-- halted in place (R60) -/
  halted : Bool
  /-- a stop is due: its groups issue nothing beyond their next instruction boundary (R60, R61, R65, R103) -/
  halting : Bool
  /-- when it halted, by a number that rises -/
  haltNo : Nat
  /-- killed: some group died (R94) -/
  killed : Bool
  /-- a reset of its partition has ended it: no successor decrement (R58) -/
  reset : Bool
  /-- CYC at which a cancel or a kill took effect, and at which a migration began to stop it (R94, R121, R137) -/
  killAt : Option Dword
  moveAt : Option Dword
  /-- a migration has begun to stop its groups (R137) -/
  moving : Bool
  /-- ticks for which it has run on this core (R66) -/
  resid : Nat
  /-- the CUR at which its declarations count in the cluster's charge of the present interval (R65, R85) -/
  charged : Option Nat
  /-- the type of the core that it stands on, or left: true for an L-core (R104, R137) -/
  fromL : Bool
  /-- the paddle is asked for again on resumption (R108) -/
  wantPaddle : Bool
  /-- Tun work kept under a stop (R191) -/
  cont : List TunOp
  ctxId : BitVec 14
  /-- the crew's own name, which its copy commands bear, and the core on which it stands or stood last -/
  uid : Nat
  lastCore : Nat
  /-- undone migration: bind only to the type it left (R137) -/
  pinned : Option Bool
  deriving DecidableEq, Repr

/-- A word in E1 to E4 (R120): cycles left in E1, in E2 and E3 together, in E4. -/
structure InFlight where
  cls : TClass
  e1 : Nat
  e23 : Nat
  e4 : Nat
  deriving DecidableEq, Repr

/-- A candidate's record with the selector (R122): crew slot, GID, split, the cycle since which it is ready, cycles passed over in a row. -/
structure Cand where
  crew : Nat
  gid : Nat
  split : Nat
  since : Nat
  passed : Nat
  deriving DecidableEq, Repr

/-- The owner entry of a physical accumulator tile (R190, R192). -/
structure PhysTile where
  data : Tile
  /-- owner's context id (R190) -/
  owner : Option (BitVec 14)
  /-- poisoned by this grist place, 32 × GOFF + slice -/
  poison : Option Nat
  /-- the owner's spill image is current -/
  current : Bool
  deriving DecidableEq, Repr

/-- A core (R105 to R122, R142, R190, R208, R300). -/
structure Core where
  cyc : Dword
  /-- elapsed time of its cycles, in 0.1 ps (R121) -/
  elapsed : Nat
  pipe : List InFlight
  /-- a pipe held by the second cycle of an issue (R116): P, Q; and the groups that may not issue in it -/
  holdP : Bool
  holdQ : Bool
  holdG : List (Nat × Nat)
  /-- the reads that a word issued over two cycles still makes in its second (R116) -/
  holdReads : List Nat
  cands : List Cand
  temp : Nat
  /-- TIME of its die when its sensor was read last, and when its thermal cut, or the side of THOT that it is on, changed last (R66) -/
  tempAt : Dword
  cut : Nat
  cutAt : Dword
  hot : Bool
  withdrawn : Bool
  crews : List Crew
  paddle : Option Nat
  paddleReq : List Nat
  /-- the crew that has passed in this cycle and kept the paddle, since none had asked (R123) -/
  passed : Option Nat
  tun : List TunOp
  tunNext : Nat
  /-- chances of the Tun to take a step, of which a cut takes some away (R63) -/
  tunBeat : Nat
  bank0 : List (BitVec 16)
  bank1 : List (BitVec 16)
  bankSel : Bool
  bankPart : Nat
  /-- code-table loads not yet complete, oldest first: crew, GID, entries (R212, R315) -/
  ctabPend : List (Nat × Nat × List (BitVec 16))
  tiles : Vector PhysTile 4
  grist : Memory
  gristPart : Nat
  gristPoison : List Nat
  icache : List (Nat × Nat × Nat × Dword)
  kcache : List (Nat × Nat × Nat × Dword)
  ctxNext : BitVec 14
  /-- who has used each unit of 32 M registers, and each KiB of scratchpad, last: a partition plus 1; 65 for one that a reset has zeroed (R58, R59) -/
  rowLast : SMap Nat
  blockLast : SMap Nat
  deriving DecidableEq, Repr

/-! ## Memory path, copy engines (08) -/

/-- A cached translation of device space (R146): the address-space table of a function, PASID, page base, page size, frame address, rights, generation. -/
structure Tlb where
  fn : Nat
  pasid : Nat
  vbase : Nat
  size : Nat
  pbase : Nat
  w : Bool
  x : Bool
  gen : Nat
  deriving DecidableEq, Repr

/-- A copy command in progress (R151, R152). -/
structure Cmd where
  id : Nat
  core : Nat
  crew : Nat
  w0 : Dword
  w1 : Dword
  w2 : Dword
  w3 : Dword
  /-- the posting crew's partition, PASID, launch, scope, name -/
  part : Nat
  pasid : BitVec 20
  launch : Word
  scope : Nat
  uid : Nat
  /-- that crew as it was when it left its core: the command goes on with its scratchpad (R103) -/
  image : Option Crew
  /-- performed, or the error word of its abort -/
  done : Bool
  err : Option Dword
  deriving DecidableEq, Repr

/-- A cluster: translations, admission charges, copy engine (R85, R143, R146, R150). -/
structure Cluster where
  tlb : List Tlb
  energy : Nat
  peak : Nat
  cmds : List Cmd
  /-- where the round-robin of the rings stands -/
  robin : Nat
  /-- chances to start a command, of which a cut takes some away (R63) -/
  beat : Nat
  deriving DecidableEq, Repr

/-- A snapshot's phase (R51, R158). -/
inductive SnapPhase where
  | free | holding | active
  deriving DecidableEq, Repr

/-- A snapshot (R51 to R53, R158). -/
structure Snap where
  phase : SnapPhase
  pasid : BitVec 20
  base : Nat
  pages : Nat
  journal : Nat
  cap : Nat
  used : Nat
  overflowed : Bool
  /-- the SNAPCUT packet -/
  pkt : Nat
  /-- physical pages of the range, and of the journal and state map, in order -/
  phys : List Nat
  jphys : List Nat
  deriving DecidableEq, Repr

/-! ## Scopes, launches, queues (04, 05) -/

/-- STATE of a scope (R89). -/
inductive ScopeState where
  | free | opened | cancelling | cancelled
  deriving DecidableEq, Repr

/-- A scope entry (R89), with the CANCEL packets that wait for its acknowledgement (R97). -/
structure ScopeEnt where
  st : ScopeState
  parent : BitVec 16
  depth : BitVec 4
  pend : Word
  aerr : Bool
  hroot : Bool
  ackv : Dword
  acka : Dword
  opas : BitVec 20
  /-- a reset of the partition has cancelled it: no add at ACKA (R58) -/
  mute : Bool
  /-- dies on which the cancel has taken effect (R92) -/
  applied : List Nat
  packets : List Nat
  deriving DecidableEq, Repr

/-- The first unhandled trap of a launch (R183): TIME, 0 for a group and 1 for another, core or die, GID or FADDR, cause and FADDR. -/
structure FirstTrap where
  time : Nat
  rank : Nat
  k1 : Nat
  k2 : Nat
  cause : Byte
  faddr : Dword
  deriving DecidableEq, Repr

/-- One die's share of a step (R80). -/
structure Slot where
  die : Nat
  next : Nat
  stop : Nat
  deriving DecidableEq, Repr

/-- A launch (R78, R79). -/
structure Launch where
  part : Nat
  id : Word
  pasid : BitVec 20
  task : TaskRec
  ext : RootExt
  code : CodeDesc
  home : Nat
  step : Nat
  slots : List Slot
  /-- crew records of the step made and not yet retired or killed -/
  alive : Nat
  /-- no more records are made: the generator has stopped -/
  stopped : Bool
  last : Bool
  retired : Nat
  exc : Byte
  /-- energy attributed to it, in units of 64 nJ, and whether a crew of it has been bound (R62) -/
  energy : Dword
  ran : Bool
  trap : Option FirstTrap
  /-- the host packet that started it -/
  pkt : Option Nat
  deriving DecidableEq, Repr

/-- A record in a die's queue (R81): fresh, a launch root, or a resumable crew (R103). A queue's records stand oldest first. -/
structure QRec where
  part : Nat
  pasid : BitVec 20
  prio : Nat
  bin : Nat
  task : TaskRec
  root : Option RootExt
  saved : Option Crew
  byGen : Bool
  /-- it lies in the partition's overflow area (R81) -/
  spilled : Bool
  /-- address of the record, for its malformed cause -/
  addr : Dword
  /-- the host packet that a root came with (R81) -/
  pkt : Option Nat
  /-- a reset of its partition has cancelled it (R58) -/
  reset : Bool
  deriving DecidableEq, Repr

/-- The place of a ready queue (R83). -/
structure QState where
  part : Nat
  pasid : BitVec 20
  prio : Nat
  bin : Nat
  run : Nat
  /-- last cluster for each bin (R86) -/
  last : List (Nat × Nat)
  deriving DecidableEq, Repr

/-- The record of a released cell that waits for room (R77, R81). -/
structure HeldCell where
  part : Nat
  pasid : BitVec 20
  cell : Dword
  task : TaskRec
  /-- a reset of its partition has cancelled it (R58) -/
  reset : Bool
  deriving DecidableEq, Repr

/-- A core held by a spatial pre-emption request (R102). -/
structure HeldCore where
  core : Nat
  forPart : Option Nat
  vacated : Bool
  deriving DecidableEq, Repr

/-- What a C-die holds beside its cores: dispatcher, SPRE, THERM, ECNT, RSW. -/
structure Die where
  queue : List QRec
  qstate : List QState
  /-- deficits of the round robin over PASIDs, the one served first (R60) -/
  drr : List (Nat × BitVec 20 × Nat)
  cells : List HeldCell
  spre : Dword
  sprc0 : Dword
  sprc1 : Dword
  held : List HeldCore
  rsw : Dword
  therm : Dword
  ecnt : Dword
  /-- which partition has the fence's slice is with the fence; cancels broadcast and not yet applied: partition, scope -/
  cancels : List (Nat × Nat)
  deriving DecidableEq, Repr

/-! ## Host interface (02) -/

/-- An AQI (R35, R37). -/
structure Aqi where
  rbase : Dword
  ctl : Dword
  head : BitVec 16
  nextseq : BitVec 16
  status : Dword
  tail : BitVec 16
  /-- it has entered error state since EN last went from 0 to 1 (R40) -/
  halt : Bool
  /-- doorbells whose slots have not all been accepted, oldest first: TAIL, and TIME of the function's X-die (R39) -/
  bells : List (BitVec 16 × Dword)
  deriving DecidableEq, Repr

/-- A packet accepted and not completed (R41 to R43). -/
structure Packet where
  id : Nat
  fn : Nat
  aqi : Nat
  /-- its 64 bytes as eight words -/
  w : Vector Dword 8
  idx : BitVec 16
  /-- TIME at acceptance (R48) -/
  tstart : Dword
  /-- execution has begun -/
  begun : Bool
  /-- the completion record to write: result, OPV, and the rest of R48 as STAT and body words -/
  comp : Option (List Dword)
  /-- pages that a STREAM has copied -/
  pos : Nat
  /-- VECC of its AQI when a partition reset ended it -/
  vec : Option Nat
  /-- packets whose records of the same acknowledgement come before its own (R97) -/
  after : List Nat
  /-- an acknowledgement has completed it (R97) -/
  acked : Bool
  deriving DecidableEq, Repr

/-- An ATS translation held by the device (R44). -/
structure AtsEntry where
  fn : Nat
  pasid : Nat
  iova : Nat
  hpa : Nat
  size : Nat
  read : Bool
  write : Bool
  /-- the PASID's host-space generation when it was cached (R46) -/
  gen : BitVec 16
  deriving DecidableEq, Repr

/-- An entry of the MSI-X table (R31, R47): message address and data, vector control. -/
structure MsixEntry where
  addr : Dword
  data : Word
  ctl : Word
  deriving DecidableEq, Repr

/-- A function's registers and host-side work (R31 to R37, R44, R45, R144, R149, R184, R186). -/
structure Fn where
  pwinBase : Dword
  pwinLim : Dword
  pwsel : Dword
  astb : Dword
  gcmd : Dword
  fqbase : Dword
  fqctl : Dword
  fqhead : Dword
  pgerr : Dword
  /-- fault records that wait to be posted (R184): core, crew, GID, record -/
  posts : List (Nat × Nat × Nat × FaultRec)
  /-- TOKENs of the posts that have found the queue full (R184) -/
  full : List Word
  /-- PASID is enabled, and page requests may be sent (R36, R45) -/
  pasidOn : Bool
  priOn : Bool
  /-- page requests outstanding: PASID, page, write -/
  pri : List (Nat × Nat × Bool)
  /-- ATS requests outstanding: PASID, page, write -/
  atsReq : List (Nat × Nat × Bool)
  /-- host-space generation by PASID (R46) -/
  hostGen : SMap (BitVec 16)
  /-- TOKENs given out so far -/
  tokens : Word
  /-- the MSI-X table and the pending bits of BAR2 (R30, R31) -/
  msixTab : Vector MsixEntry 32
  msixPend : Word
  /-- MSI-X messages that are due, by entry, and the writes made for those that no mask holds (R47) -/
  msix : List Nat
  msixOut : List (Dword × Word)
  /-- ATS invalidations whose completion is not sent: PASID, and the earlier host accesses that it waits for; how many have been completed (R46) -/
  inval : List (Nat × List Nat)
  invalDone : Nat
  aqis : SMap Aqi
  deriving DecidableEq, Repr

/-- A partition (R57, R58, R62, R63, R89, R255). -/
structure Part where
  pcfg0 : Dword
  pcfg1 : Dword
  pen : Dword
  hist : List Nat
  sctb : Dword
  capmask : Vector Dword 8
  snaps : Vector Snap 8
  nextLaunch : Word
  deriving DecidableEq, Repr

/-! ## Package (01, 03) -/

/-- A peer port (R16 to R22). -/
structure Port where
  down : Bool
  train : Bool
  /-- TIME of its X-die when it began to retrain (R22) -/
  trainAt : Dword
  /-- FSEQ of the last new flit sent -/
  txSeq : BitVec 12
  /-- FSEQ of the last flit received in order and intact: FACK -/
  rxSeq : BitVec 12
  /-- flits sent and not acknowledged, oldest first; those still to be sent again; retry requests since FACK last advanced (log 41) -/
  retry : List Flit
  resend : List Flit
  retries : Nat
  /-- a retry request is due that the full retry buffer has held up -/
  due : Bool
  /-- STOP as last received -/
  stopTx : BitVec 4
  /-- flits in the receiver's buffers of each channel -/
  rxBuf : Vector Nat 4
  ppas : Dword
  /-- peer accesses whose requests wait for a flit of VC 0, and those whose responses wait for one of VC 1 (R266) -/
  reqs : List Nat
  await : List Nat
  /-- copy commands whose bulk data waits for a flit of VC 2, with whether it goes out (R16) -/
  bulk : List (Nat × Bool)
  /-- arrivals for another fence, dropped (R56) -/
  dropped : Nat
  /-- the port's own output: flits sent, and answers to inbound accesses, kind (0 for data) and value (R144) -/
  sent : List Flit
  answers : List (Nat × Dword)
  deriving DecidableEq, Repr

/-- A voltage rail (R27, R64, R65). -/
structure Rail where
  rvolt : Dword
  throttled : Bool
  /-- X0's TIME when its current was last above its rating (R27) -/
  overAt : Dword
  deriving DecidableEq, Repr

/-- A rail or connection change under way (R65): for a cluster with the rail that it still stands on. -/
structure RailChange where
  target : RailTarget
  from_ : Nat
  /-- X0's TIME when it began: its quiesce lasts 50 µs at most -/
  since : Dword
  /-- a rail that ramps: the voltage, in mV, and X0's TIME when it began, or was retargeted -/
  ramp : Option (Nat × Dword)
  deriving DecidableEq, Repr

/-- A host atomic between its read and its write (R270), or a host store that has not been transmitted (R263, R266): its access, its function, and the bytes to
write. -/
structure HostRmw where
  id : Nat
  fn : Nat
  writes : List (Nat × List Byte)
  deriving DecidableEq, Repr

/-- An input: an event of the opcode table, or a change of memory by the host, by system software or by a fault of the storage (log 4, 7). -/
inductive Input where
  | event (i : Instr)
  | hostMem (addr : Nat) (bytes : List Byte)
  | devMem (addr : Nat) (bytes : List Byte)
  | devPoison (word : Nat)
  | spadPoison (core crew word : Nat)
  | gristPoison (core place : Nat)
  /-- a completion of host memory comes poisoned (R179) -/
  | hostPoison (word : Nat)
  /-- an internal array that the split's next word reads, not the grist, is uncorrectable: a code of class 10 domain 2 (R180, R192) -/
  | arrayError (r : SplitRef) (code : Byte)
  /-- the image of a stopped crew is uncorrectable, or its freeze image is of a version that is refused (R180) -/
  | imageError (core crew : Nat) (refused : Bool)
  /-- a corrected error in a row starts its test (R68) -/
  | rowError (row : Nat)
  /-- the PF enables page requests of a function again (R45) -/
  | priEnable (fn : Nat)
  /-- a write to BAR2 of a function (R31) -/
  | bar2Write (fn off : Nat) (bytes : List Byte)
  deriving DecidableEq, Repr

/-- What a word on Q reads of its group and crew as it was before the word on P of the same group and cycle wrote (R112: both read before either writes). -/
structure Pre where
  s : Vector Dword 64
  k : Vector Word 8
  seq : Dword
  flags : Byte
  ctx : Dword
  round : Dword
  deriving DecidableEq, Repr

/-- The split whose word is executed, and its pipe (R112). -/
structure Cur where
  r : SplitRef
  onQ : Bool
  /-- its sources, where a word on P of the same group and cycle has written since -/
  pre : Option Pre
  deriving DecidableEq, Repr

/-- What ends within a stated time: a page request, within 1 s (R45), and the broadcast of a cancel to a die, within 2 µs (R92). -/
inductive Bound where
  | page (fn pasid page : Nat) (write : Bool)
  | cancel (die part scope : Nat)
  deriving DecidableEq, Repr

/-- The machine. -/
structure State where
  /-- TIME of each die (R23, R24): 0 to 7 the C-dies, 8 to 15 the G-dies, 16 and 17 the X-dies, 18 to 33 the base dies -/
  times : Vector Dword 34
  /-- what an alignment pulse leaves to do for each die's next tick (R24): 0 nothing, 1 hold, 2 step by two -/
  timeAdj : Vector Nat 34
  cores : SMap Core
  clusters : SMap Cluster
  dies : SMap Die
  ports : SMap Port
  rails : SMap Rail
  changes : List RailChange
  fns : SMap Fn
  parts : SMap Part
  /-- FOWN of each frame (R59) -/
  fown : SMap Byte
  fmap : Dword
  fwall : Dword
  merr : Dword
  ppmap0 : Dword
  ppmap1 : Dword
  capsel : Dword
  /-- the partition that holds each fence's cores in the current slice, plus 1; 0 is none (R60) -/
  slice : SMap Nat
  /-- TIME of a fence's lowest die at which its slice began (R60) -/
  sliceAt : SMap Nat
  /-- fences whose slice is over while groups still come to their next instruction boundary (R60) -/
  ending : List Nat
  /-- X0's TIME at its last alignment pulse (R24) -/
  pulseAt : Dword
  /-- X0's TIME at the end of the last control interval (R63) -/
  intervalAt : Dword
  /-- since when, by X0's TIME, what ends within a stated time is under way -/
  since : List (Bound × Dword)
  /-- partitions with work, or with cores, in the present control interval, and the energy that completion records of the interval have named (R62) -/
  worked : List Nat
  spent : List (Nat × Nat)
  packets : List Packet
  scopes : SMap ScopeEnt
  launches : List Launch
  ats : List AtsEntry
  /-- device memory by physical address, host memory by host physical address -/
  mem : Memory
  host : Memory
  /-- poisoned protected words of device memory, by address div 64 (R13, R192) -/
  poison : List Nat
  /-- poisoned words of host memory, by address div 64 (R179) -/
  hostPoison : List Nat
  /-- host atomics between their read and their write (R270) -/
  hostRmw : List HostRmw
  /-- rows under test (R68) -/
  rows : List Nat
  /-- the words that are COUNT of a join cell: named so far by an arm or by a record's SUCC (R74, R76; log 12) -/
  cells : List Nat
  /-- the frozen work that a freeze image records, by the number that names its body (R191, R316) -/
  frozen : List (Nat × List TunOp)
  /-- the model's own: inputs still to come, words selected and not executed, the word executing (log 4) -/
  agenda : List Input
  issueQ : List Cur
  cur : Option Cur
  /-- the model's own: free values drawn so far (log 3, 8), names given out so far -/
  free : Nat
  nextId : Nat
  deriving DecidableEq, Repr

/-! ## Faults and refusals -/

/-- Where the machine stops. -/
inductive Fault where
  /-- Raised by every instruction word's meaning when no split issues it (State.cur names none that lives): the spec gives a word a meaning only as
  the word of a split. Safe: nothing about a next state follows. -/
  | noIssuer
  deriving DecidableEq, Repr

/-- Why a meaning is refused. -/
inductive Refusal where
  /-- Raised by an arm of exec whose instruction has no meaning in this model yet. Safe. -/
  | notModelled (mnemonic : String)
  deriving DecidableEq, Repr

/-! ## Reset -/

/-- 32 lanes of zero. -/
def zeroLanes : Lanes := Vector.replicate 32 0#32

/-- The fault record before the first trap reads zero (R248). -/
def FaultRec.zero : FaultRec := ⟨0, 0, 0, 0, 0, 0, 0, 0⟩

/-- A tile of zeros. -/
def zeroTile : Tile := Vector.replicate 32 zeroLanes

/-- A physical tile that no context holds. -/
def PhysTile.reset : PhysTile := { data := zeroTile, owner := none, poison := none, current := false }

/-- Sixteen BF16 zeros: a bank of the code table at module reset (R208). -/
def zeroBank : List (BitVec 16) := List.replicate 16 0#16

/-- A core at module reset; what the spec does not state is zero or empty (log 1). -/
def Core.reset : Core :=
  { cyc := 0, elapsed := 0, pipe := [], holdP := false, holdQ := false, holdG := [], holdReads := [], cands := [], temp := 0, tempAt := 0, cut := 0, cutAt := 0, hot := false,
    withdrawn := false, crews := [], paddle := none, paddleReq := [], passed := none, tun := [], tunNext := 0, tunBeat := 0, bank0 := zeroBank, bank1 := zeroBank, bankSel := false,
    bankPart := 0, ctabPend := [], tiles := Vector.replicate 4 PhysTile.reset, grist := [], gristPart := 0, gristPoison := [], icache := [],
    kcache := [], ctxNext := 1, rowLast := [], blockLast := [] }

/-- A cluster at module reset. -/
def Cluster.reset : Cluster := { tlb := [], energy := 0, peak := 0, cmds := [], robin := 0, beat := 0 }

/-- The RSW of a die that connects clusters 0 to 11 to the rail of code n (two bits each, R64). -/
def rswAll (n : Nat) : Dword := BitVec.ofNat 64 ((List.range 12).foldl (fun a c => a + n * 4 ^ c) 0)

/-- A C-die at module reset: SEL by pairs of dies (R64), TCRIT 110 and THOT 95 (R66). -/
def Die.reset (d : Nat) : Die :=
  { queue := [], qstate := [], drr := [], cells := [], spre := 0, sprc0 := 0, sprc1 := 0, held := [], rsw := rswAll (d / 2),
    therm := 0x6E5F, ecnt := 0, cancels := [] }

/-- A peer port at module reset: DOWN (R22). -/
def Port.reset : Port :=
  { down := true, train := false, trainAt := 0, txSeq := 0, rxSeq := 0, retry := [], resend := [], retries := 0, due := false, stopTx := 0,
    rxBuf := Vector.replicate 4 0, ppas := 0, reqs := [], await := [], bulk := [], dropped := 0, sent := [], answers := [] }

/-- An AQI at module reset: LOGN 6 (R35). -/
def Aqi.reset : Aqi := { rbase := 0, ctl := 0xC, head := 0, nextseq := 0, status := 0, tail := 0, halt := false, bells := [] }

/-- An entry of the MSI-X table at module reset: masked, as PCI Express has it. PRESUMED (log 75). -/
def MsixEntry.reset : MsixEntry := { addr := 0, data := 0, ctl := 1 }

/-- A function at module reset: FQHEAD.LOGN 6 (R184). -/
def Fn.reset : Fn :=
  { pwinBase := 0, pwinLim := 0, pwsel := 0, astb := 0, gcmd := 0, fqbase := 0, fqctl := 0, fqhead := 0x60000, pgerr := 0, posts := [], full := [],
    pasidOn := true, priOn := true, pri := [], atsReq := [], hostGen := [], tokens := 0, msixTab := Vector.replicate 32 MsixEntry.reset, msixPend := 0, msix := [], msixOut := [],
    inval := [], invalDone := 0, aqis := [] }

/-- A snapshot id that is not in use. -/
def Snap.reset : Snap :=
  { phase := .free, pasid := 0, base := 0, pages := 0, journal := 0, cap := 0, used := 0, overflowed := false, pkt := 0, phys := [], jphys := [] }

/-- A partition at module reset: AQICNT 8, SLICE 16 (R57). -/
def Part.reset : Part :=
  { pcfg0 := 0x0020001000000000, pcfg1 := 0, pen := 0, hist := [], sctb := 0, capmask := Vector.replicate 8 (BitVec.allOnes 64),
    snaps := Vector.replicate 8 Snap.reset, nextLaunch := 1 }

/-- A scope that is not in use. -/
def ScopeEnt.free : ScopeEnt :=
  { st := .free, parent := 0, depth := 0, pend := 0, aerr := false, hroot := false, ackv := 0, acka := 0, opas := 0, mute := false, applied := [], packets := [] }

/-- A rail at module reset (R64): CUR and SET 720 mV. -/
def Rail.reset : Rail := { rvolt := 0x02D002D0, throttled := false, overAt := 0 }

/-- The machine right after module reset (R24 and the reset columns of 01 to 13). Nothing is loaded and no crew is bound (log 1, 7). -/
def State.reset : State :=
  { times := Vector.replicate 34 0, timeAdj := Vector.replicate 34 0, cores := [], clusters := [], dies := [], ports := [], rails := [],
    changes := [], fns := [], parts := [], fown := [], fmap := 0, fwall := 0, merr := 0, ppmap0 := 0, ppmap1 := 0, capsel := 0,
    slice := [], sliceAt := [], ending := [], pulseAt := 0, intervalAt := 0, since := [], worked := [], spent := [], packets := [], scopes := [], launches := [], ats := [], mem := [], host := [], poison := [], hostPoison := [], hostRmw := [], rows := [], cells := [], frozen := [],
    agenda := [], issueQ := [], cur := none, free := 0, nextId := 0 }

end Sys2Proof.Machine
end

