-- ==== Sys2Proof/Machine/Base.lean ====
section
/-!
DEFINITION. The plainest operations over the state: sparse maps, memories, bit fields, and the accessors of cores, crews, groups and splits.
-/
namespace Sys2Proof.Machine

/-- The outcome of a step. -/
abbrev Out3 := Host.Outcome State Fault Refusal

/-! ## Sparse maps and memories -/

/-- What a sparse map holds at a key. -/
def SMap.get {α : Type} (m : SMap α) (k : Nat) (d : α) : α :=
  match m with
  | [] => d
  | (k', v) :: t => if k = k' then v else SMap.get t k d

/-- Write a key. -/
def SMap.put {α : Type} (m : SMap α) (k : Nat) (v : α) : SMap α :=
  match m with
  | [] => [(k, v)]
  | (k', v') :: t => if k < k' then (k, v) :: (k', v') :: t else if k = k' then (k, v) :: t else (k', v') :: SMap.put t k v

/-- Write bytes by rising key. -/
def SMap.putBytes (m : SMap Byte) (k : Nat) : List Byte → SMap Byte
  | [] => m
  | b :: t => SMap.putBytes (m.put k b) (k + 1) t

/-- Read one byte of a memory. -/
def Memory.get (m : Memory) (a : Nat) : Byte :=
  match m with
  | [] => Memory.unlisted
  | (a', b) :: t => if a = a' then b else Memory.get t a

/-- Put a byte in front, unless it is what an unlisted address reads as. -/
def Memory.cons (a : Nat) (b : Byte) (m : Memory) : Memory := if b = Memory.unlisted then m else (a, b) :: m

/-- Write one byte of a memory, keeping the canonical form. -/
def Memory.set (m : Memory) (a : Nat) (b : Byte) : Memory :=
  match m with
  | [] => Memory.cons a b []
  | (a', b') :: t => if a < a' then Memory.cons a b ((a', b') :: t) else if a = a' then Memory.cons a b t else (a', b') :: Memory.set t a b

/-- Write bytes from an address on. -/
def Memory.setBytes (m : Memory) (a : Nat) : List Byte → Memory
  | [] => m
  | b :: t => Memory.setBytes (m.set a b) (a + 1) t

/-- Read n bytes from an address on. -/
def Memory.getBytes (m : Memory) (a n : Nat) : List Byte := (List.range n).map fun i => m.get (a + i)

/-- A little-endian number from its bytes (00 R2). -/
def leNat : List Byte → Nat
  | [] => 0
  | b :: t => b.toNat + 256 * leNat t

/-- The n little-endian bytes of a number (00 R2). -/
def leBytes (n v : Nat) : List Byte :=
  match n with
  | 0 => []
  | n + 1 => BitVec.ofNat 8 v :: leBytes n (v / 256)

/-- Zero the bytes of a memory from base up to, but not including, stop. -/
def Memory.zeroRange (m : Memory) (base stop : Nat) : Memory := m.filter fun c => c.1 < base || stop ≤ c.1

/-! ## Bits -/

/-- Bits hi down to lo of a number held in a word, as a number. -/
def bits {w : Nat} (v : BitVec w) (hi lo : Nat) : Nat := v.toNat / 2 ^ lo % 2 ^ (hi + 1 - lo)

/-- v with bits hi down to lo replaced by n. -/
def setBits {w : Nat} (v : BitVec w) (hi lo n : Nat) : BitVec w :=
  BitVec.ofNat w (v.toNat - (bits v hi lo) * 2 ^ lo + (n % 2 ^ (hi + 1 - lo)) * 2 ^ lo)

/-- One bit as a number. -/
def bit (b : Bool) : Nat := if b then 1 else 0

/-- The bits of a number that are 1 in a mask, kept. -/
def maskNat (v : Dword) (m : Nat) : Dword := v &&& BitVec.ofNat 64 m

/-- Number of 1 bits of the low n bits. -/
def popcount {w : Nat} (v : BitVec w) : Nat := ((List.range w).filter fun i => v.getLsbD i).length

/-- The lanes of a mask, ascending. -/
def lanesOf (m : Mask) : List Nat := (List.range 32).filter fun l => m.getLsbD l

/-- A mask from a predicate on lanes. -/
def maskOf (p : Nat → Bool) : Mask := BitVec.ofNat 32 ((List.range 32).foldl (fun a l => a + bit (p l) * 2 ^ l) 0)

/-- The element of a lane; lanes are below 32. -/
def lane (v : Lanes) (l : Nat) : Word := v.getD l 0

/-- Lanes from a function. -/
def ofLanes (f : Nat → Word) : Lanes := Vector.ofFn fun i => f i.val

/-- Replace the lanes of a mask. -/
def mergeLanes (m : Mask) (new old : Lanes) : Lanes := ofLanes fun l => if m.getLsbD l then lane new l else lane old l

/-- Round a number down to a multiple. -/
def floorTo (a n : Nat) : Nat := a / n * n

/-- Smallest number of units of n that hold a. -/
def ceilDiv (a n : Nat) : Nat := (a + n - 1) / n

/-- Modify the first element that satisfies p. -/
def modFirst {α : Type} (l : List α) (p : α → Bool) (f : α → α) : List α :=
  match l with
  | [] => []
  | x :: t => if p x then f x :: t else x :: modFirst t p f

/-- Modify element i of a vector. -/
def vmod {α : Type} {n : Nat} (v : Vector α n) (i : Nat) (f : α → α) : Vector α n := Vector.ofFn fun j => if j.val = i then f v[j] else v[j]

/-! ## Cores and dies -/

/-- Core = 96 × die + 8 × cluster + slot (R106). -/
def dieOf (core : Nat) : Nat := core / 96
/-- Index of the core's cluster in the package: 12 × die + cluster. -/
def clusterOf (core : Nat) : Nat := core / 8
/-- Cluster of the core within its die. -/
def clusterInDie (core : Nat) : Nat := core / 8 % 12
/-- SLOT of the core. -/
def slotOf (core : Nat) : Nat := core % 8
/-- CTYPE: slots 6 and 7 are L-cores (R106). -/
def isL (core : Nat) : Bool := decide (6 ≤ core % 8)
/-- Number of the core among those of its type in its die (R106). -/
def typeNum (core : Nat) : Nat := if isL core then 2 * clusterInDie core + slotOf core - 6 else 6 * clusterInDie core + slotOf core
/-- CORE (R106). -/
def coreReg (core : Nat) : Dword := BitVec.ofNat 64 (dieOf core * 128 + clusterInDie core * 8 + slotOf core)

namespace State

def core (s : State) (c : Nat) : Core := s.cores.get c Core.reset
def setCore (s : State) (c : Nat) (v : Core) : State := { s with cores := s.cores.put c v }
def modCore (s : State) (c : Nat) (f : Core → Core) : State := s.setCore c (f (s.core c))
def cluster (s : State) (c : Nat) : Cluster := s.clusters.get c Cluster.reset
def setCluster (s : State) (c : Nat) (v : Cluster) : State := { s with clusters := s.clusters.put c v }
def modCluster (s : State) (c : Nat) (f : Cluster → Cluster) : State := s.setCluster c (f (s.cluster c))
def die (s : State) (d : Nat) : Die := s.dies.get d (Die.reset d)
def setDie (s : State) (d : Nat) (v : Die) : State := { s with dies := s.dies.put d v }
def modDie (s : State) (d : Nat) (f : Die → Die) : State := s.setDie d (f (s.die d))
def port (s : State) (p : Nat) : Port := s.ports.get p Port.reset
def setPort (s : State) (p : Nat) (v : Port) : State := { s with ports := s.ports.put p v }
def rail (s : State) (r : Nat) : Rail := s.rails.get r Rail.reset
def setRail (s : State) (r : Nat) (v : Rail) : State := { s with rails := s.rails.put r v }
def fn (s : State) (f : Nat) : Fn := s.fns.get f Fn.reset
def setFn (s : State) (f : Nat) (v : Fn) : State := { s with fns := s.fns.put f v }
def modFn (s : State) (f : Nat) (g : Fn → Fn) : State := s.setFn f (g (s.fn f))
def part (s : State) (p : Nat) : Part := s.parts.get p Part.reset
def setPart (s : State) (p : Nat) (v : Part) : State := { s with parts := s.parts.put p v }
def modPart (s : State) (p : Nat) (g : Part → Part) : State := s.setPart p (g (s.part p))
def aqi (s : State) (f n : Nat) : Aqi := (s.fn f).aqis.get n Aqi.reset
def setAqi (s : State) (f n : Nat) (a : Aqi) : State := s.modFn f fun x => { x with aqis := x.aqis.put n a }

/-- TIME of a C-die (R24). -/
def timeOf (s : State) (d : Nat) : Dword := s.times.getD d 0

def crew? (s : State) (core slot : Nat) : Option Crew := (s.core core).crews.find? fun c => c.slot == slot
def modCrew (s : State) (core slot : Nat) (f : Crew → Crew) : State :=
  s.modCore core fun c => { c with crews := modFirst c.crews (fun w => w.slot == slot) f }

end State

def Crew.group? (w : Crew) (gid : Nat) : Option Group := w.groups.find? fun g => g.gid == gid
def Crew.modGroup (w : Crew) (gid : Nat) (f : Group → Group) : Crew := { w with groups := modFirst w.groups (fun g => g.gid == gid) f }
def Group.split? (g : Group) (n : Nat) : Option Split := g.splits.find? fun p => p.num == n
def Group.modSplit (g : Group) (n : Nat) (f : Split → Split) : Group := { g with splits := modFirst g.splits (fun p => p.num == n) f }

namespace State

def group? (s : State) (core slot gid : Nat) : Option Group := (s.crew? core slot).bind fun w => w.group? gid
def modGroup (s : State) (core slot gid : Nat) (f : Group → Group) : State := s.modCrew core slot fun w => w.modGroup gid f
def modSplit (s : State) (r : SplitRef) (f : Split → Split) : State := s.modGroup r.core r.crew r.gid fun g => g.modSplit r.split f

end State

/-- REGS of a record's SHAPE (R69). -/
def TaskRec.regs (r : TaskRec) : Nat := bits r.shape 16 13
/-- SPAD in KiB (R69). -/
def TaskRec.spad (r : TaskRec) : Nat := bits r.shape 12 4
/-- Number of groups (R69). -/
def TaskRec.grp (r : TaskRec) : Nat := bits r.shape 3 0 + 1
/-- Units of 32 M registers of a crew (R59, R70). -/
def TaskRec.units (r : TaskRec) : Nat := r.grp * r.regs
/-- ACC (R69). -/
def TaskRec.acc (r : TaskRec) : Nat := bits r.shape 19 17
/-- AFF (R69). -/
def TaskRec.aff (r : TaskRec) : Nat := bits r.shape 21 20
/-- SCOPE.ID (R69). -/
def TaskRec.scopeId (r : TaskRec) : Nat := bits r.scope 15 0
/-- SCOPE.PRIO (R69). -/
def TaskRec.prio (r : TaskRec) : Nat := bits r.scope 19 16
/-- SCOPE.ROOT (R69). -/
def TaskRec.isRoot (r : TaskRec) : Bool := r.scope.getLsbD 20
/-- SCOPE.LOCAL (R69). -/
def TaskRec.isLocal (r : TaskRec) : Bool := r.scope.getLsbD 21
/-- DPRES, LPRES (R72). -/
def CodeDesc.dpres (c : CodeDesc) : Bool := c.cflags.getLsbD 0
def CodeDesc.lpres (c : CodeDesc) : Bool := c.cflags.getLsbD 1
/-- The base of the encoding of a core type (R72). -/
def CodeDesc.base (c : CodeDesc) (l : Bool) : Dword := if l then c.lbase else c.dbase

/-- A byte of the scratchpad: the one written since the crew was bound; else zero, where another partition has used the allocation last, or a free value
(R59; log 3). -/
def Crew.spadByte (w : Crew) (a : Nat) : Byte := w.spad.get a (if w.spadZero then 0 else Config.freeByte w.spadSeed a)
/-- n bytes of the scratchpad. -/
def Crew.spadRead (w : Crew) (a n : Nat) : List Byte := (List.range n).map fun i => w.spadByte (a + i)
/-- Number of groups of a crew, n of R107. -/
def Crew.n (w : Crew) : Nat := w.task.grp
/-- STAGE of a group (R107). -/
def Crew.stage (w : Crew) (gid : Nat) : Nat := (gid + w.n - w.round.toNat % w.n) % w.n
/-- Base of the encoding in use on a core. -/
def Crew.curBase (w : Crew) (core : Nat) : Dword := w.code.base (isL core)
/-- The address of a PCOFF in the encoding in use (R113). -/
def Crew.addrOf (w : Crew) (core : Nat) (off : Pcoff) : Dword := w.curBase core + off.setWidth 64 * 8#64

/-! ## The executing word's context -/

/-- Where the executing word stands. -/
structure Ctx where
  r : SplitRef
  onQ : Bool
  pre : Option Pre
  crew : Crew
  g : Group
  sp : Split
  deriving DecidableEq, Repr

/-- The context of State.cur, if that split lives. -/
def State.ctx (s : State) : Option Ctx :=
  match s.cur with
  | none => none
  | some u =>
    match s.crew? u.r.core u.r.crew with
    | none => none
    | some w =>
      match w.group? u.r.gid with
      | none => none
      | some g =>
        if !g.live then none
        else match g.split? u.r.split with
          | none => none
          | some p => some ⟨u.r, u.onQ, u.pre, w, g, p⟩

/-- What a word comes to: a trap with its lane and address, a wait at issue, or the state after it. -/
inductive Res where
  | trap (code : Byte) (lane : Nat) (addr : Dword)
  | park (p : Park)
  | ok (s : State)
  deriving DecidableEq, Repr

end Sys2Proof.Machine
end

