-- ==== Sys2Proof/Machine/Clock.lean ====
section
/-!
DEFINITION. The timing-class clock of a core: cycle lengths, and the idle cycles up to its die's TIME (R64, R65, R105, R120, R121).
-/
namespace Sys2Proof.Machine

/-- The rail that a core's cluster stands on: that of RSW, or the older one until a change is applied (R64, R65). -/
def railOf (s : State) (core : Nat) : Nat :=
  match s.changes.find? fun c => c.target == .cluster (dieOf core) (clusterInDie core) with
  | some c => c.from_
  | none => bits (s.die (dieOf core)).rsw (2 * clusterInDie core + 1) (2 * clusterInDie core)

/-- Order of classes. -/
def TClass.num : TClass → Nat
  | .t1 => 1 | .t2 => 2 | .t3 => 3 | .t4 => 4

/-- Cycle length of a class at 0.72 V, in 0.1 ps (R105). -/
def baseLength (l : Bool) : TClass → Nat
  | .t1 => if l then 3300 else 4000
  | .t2 => if l then 4500 else 5200
  | .t3 => if l then 7000 else 7700
  | .t4 => if l then 9500 else 10500

/-- The voltage factor in hundredths: that of the highest table voltage at or below CUR (R65). -/
def voltFactor (cur : Nat) : Nat := if 850 ≤ cur then 82 else if 780 ≤ cur then 90 else if 720 ≤ cur then 100 else if 660 ≤ cur then 114 else 130

/-- Cycle length of a core in 0.1 ps. -/
def cycleLength (s : State) (core : Nat) (t : TClass) : Nat := baseLength (isL core) t * voltFactor (bits (s.rail (railOf s core)).rvolt 31 16) / 100

/-- The longest of some classes; T1 if there are none. -/
def longest (l : List InFlight) : TClass := l.foldl (fun a f => if a.num < f.cls.num then f.cls else a) .t1

/-- A word one cycle further; none once it has left E4 (R120). -/
def InFlight.advance (f : InFlight) : Option InFlight :=
  if f.e1 ≠ 0 then some { f with e1 := f.e1 - 1 } else if f.e23 ≠ 0 then some { f with e23 := f.e23 - 1 } else if 1 < f.e4 then some { f with e4 := f.e4 - 1 } else none

/-- A pipe one cycle further: what has left E4 goes. -/
def advancePipe (l : List InFlight) : List InFlight :=
  (l.filterMap InFlight.advance).filter fun f => f.e1 + f.e23 + f.e4 != 0

/-- A cycle in which nothing issues. -/
def idleCycle (s : State) (core : Nat) (k : Core) : Core :=
  { k with cyc := k.cyc + 1, elapsed := k.elapsed + cycleLength s core (longest k.pipe), pipe := advancePipe k.pipe }

/-- A tick in 0.1 ps (R23). -/
def tickLength : Nat := 40000

/-- The idle cycles that bring a core up to its die's TIME: those in which its last words drain, then those of the T1 length (R120, R121). The
cycle of a pass is over then (R108). -/
def catchUp (s : State) (core : Nat) (k : Core) : Core :=
  let t := (s.timeOf (dieOf core)).toNat * tickLength
  let k := if k.elapsed ≤ t then { k with passed := none } else k
  let k := (List.range 32).foldl (fun k _ => if k.pipe.isEmpty || decide (t < k.elapsed + tickLength) then k else idleCycle s core k) k
  let len := cycleLength s core .t1
  let n := if k.pipe.isEmpty then (t - k.elapsed) / len else 0
  { k with cyc := k.cyc + BitVec.ofNat 64 n, elapsed := k.elapsed + n * len }

/-- The idle cycles of a core up to its die's TIME are counted (R121). -/
def State.caughtUp (s : State) (core : Nat) : State := s.setCore core (catchUp s core (s.core core))

/-- The cores whose cycle length a change concerns: those of a cluster, or those of the clusters on a rail (R65). -/
def coresOn (s : State) (t : RailTarget) : List Nat :=
  (List.range 768).filter fun core => match t with
    | .cluster d c => dieOf core == d && clusterInDie core == c
    | .rail n => railOf s core == n

/-- Those of every core that a change concerns, in use or not: before it takes effect, so that no cycle is counted at another voltage (R65, R121). -/
def State.allCaughtUp (s : State) (t : RailTarget) : State := (coresOn s t).foldl State.caughtUp s

end Sys2Proof.Machine
end

