-- ==== Sys2Proof/WellFormed.lean ====
section
/-!
DEFINITION. Well-formed instruction words: those that the decode domain of R228 accepts (codes 0x08 to 0x0D), whatever the core, the group and the
partition. What an operand names is judged when the word executes (R181).
-/
namespace Sys2Proof

/-- Why a word does not decode (R228); the code is the cause code of R178. -/
inductive DecodeErr where
  | reservedMajor | unassignedFn | reservedField | illegalPair | illegalOrder | illegalPath
  deriving DecidableEq, Repr

/-- The cause code (R178, R228). -/
def DecodeErr.code : DecodeErr → Byte
  | .reservedMajor => 0x08 | .unassignedFn => 0x09 | .reservedField => 0x0A | .illegalPair => 0x0B | .illegalOrder => 0x0C | .illegalPath => 0x0D

/-- What a word decodes to: an instruction, or the reason it is none. -/
inductive Decoded where
  | instr (i : Instr)
  | err (e : DecodeErr)
  deriving DecidableEq, Repr

/-- A special's place after index 81 (R217). -/
def Special.num : Special → Nat
  | .gid => 0 | .stage => 1 | .round => 2 | .crew => 3 | .tile => 4 | .launch => 5 | .scope => 6 | .core => 7 | .ctype => 8 | .cyc => 9
  | .time => 10 | .seq => 11 | .flags => 12 | .aown => 13 | .ctx => 14

/-- The 10-bit specifier (R216, R217). -/
def Operand.bits : Operand → BitVec 10
  | .m i => 0#2 ++ i
  | .o i => 1#2 ++ i
  | .x i => 2#2 ++ i
  | .s i => 3#2 ++ (0#2 ++ i)
  | .k i => 3#2 ++ (8#5 ++ i)
  | .acc i => 3#2 ++ (18#6 ++ i)
  | .resLow i => 3#2 ++ (19#6 ++ i)
  | .lane => 0x350
  | .special r => BitVec.ofNat 10 (0x351 + r.num)
  | .resHigh i => 3#2 ++ (3#3 ++ i)
  | .const c => 3#2 ++ (1#1 ++ c)

/-- No source modifier (R224). -/
def SrcMod.zero : SrcMod := ⟨.none, 0, 0⟩

/-- The fields that a row does not use hold zero (R215): which of D, A, B and C it uses, and the bits of MOD it uses. -/
def RWord.zero (f : RWord) (d a b c : Bool) (mod : BitVec 12) : Bool :=
  (d || f.d == .m 0) && (a || f.a == .m 0) && (b || f.b == .m 0) && (c || f.c == .m 0) && (f.mod &&& ~~~mod == 0)

/-- R215 for an I-format row. -/
def IWord.zero (f : IWord) (d a : Bool) (imm : Word) : Bool :=
  (d || f.d == .m 0) && (a || f.a == .m 0) && (f.imm &&& ~~~imm == 0)

/-- R215 for an MR row that uses B or a modifier. A row that uses neither holds zero in both whatever RND says (R277, R281, R286, R288, R295). -/
def MRWord.zero (f : MRWord) (b mod : Bool) : Bool :=
  match f.tail with
  | .src _ s m => (b || s == .m 0) && (mod || m == .zero)
  | .ef rs rd => (b || rs == .m 0) && (mod || rd == .m 0)

/-- R215 for a one-source conversion: B and MOD are zero unless `.ef` is named (R291). -/
def MRWord.zeroOrEf (f : MRWord) : Bool :=
  match f.tail with
  | .src _ s m => s == .m 0 && m == .zero
  | .ef _ _ => true

/-- The matrix loads hold zero in SCALE and ORD, and carry no scope (R301). -/
def MWord.zero (f : MWord) : Bool := f.scale == 0 && f.ord == .plain && f.scope == .default

/-- Short mov holds zero in B (R227). -/
def ShortOp.zero (f : ShortOp) : Bool := f.op != .mov || f.b == .m 0

/-- The orders of a load (R221). -/
def MWord.loadOrder (f : MWord) : Bool :=
  f.scope != .reserved && ((f.ord == .plain && f.scope == .default) || f.ord == .acq)

/-- The orders of a store (R221). -/
def MWord.storeOrder (f : MWord) : Bool :=
  f.scope != .reserved && ((f.ord == .plain && f.scope == .default) || f.ord == .rel)

/-- The orders of an atomic (R221). -/
def AWord.order (f : AWord) : Bool := f.scope != .reserved && (f.ord != .plain || f.scope == .default)

/-- Does the short opcode have class T2 (R227)? The others have class T1. -/
def Sop.isT2 : Sop → Bool
  | .addF32 | .subF32 | .mulF32 | .minF32 | .maxF32 | .addBf16 | .mulBf16 => true
  | .mov | .addI32 | .subI32 | .andB32 | .orB32 | .xorB32 | .shlB32 | .shrN32 | .shrI32 | .minI32 | .maxI32 | .minN32 | .maxN32 => false

/-- The M registers that a short operation reads; mov reads A alone. -/
def ShortOp.mSources (f : ShortOp) : List (BitVec 6) :=
  (match f.a with | .m i => [i] | _ => []) ++ (if f.op == .mov then [] else match f.b with | .m i => [i] | _ => [])

/-- The level bank of a destination (R117): M by index mod 4, then X, O and S. -/
def ShortOperand.bank : ShortOperand → Nat
  | .m i => i.toNat % 4
  | .x _ => 4
  | .o _ => 5
  | .s _ => 6

/-- The pair rules of R117; every short operation may issue on Q (R115). -/
def PairWord.legal (f : PairWord) : Bool :=
  let srcs := (f.op1.mSources ++ f.op2.mSources).eraseDups
  f.op1.op.isT2 == f.op2.op.isT2 && decide (srcs.length ≤ 3) && (srcs.map (fun i => i.toNat % 4)).eraseDups.length == srcs.length
    && f.op1.d.bank != f.op2.d.bank

namespace Instr

/-- Is it an instruction word? The others are the device's own steps and the events that reach it; they have no encoding. -/
def isWord : Instr → Bool
  | .pairWord _ => true
  | .nop _ => true
  | .capq _ => true
  | .trap _ => true
  | .rte _ => true
  | .br _ => true
  | .bz _ => true
  | .bnz _ => true
  | .bk _ => true
  | .bnk _ => true
  | .call _ => true
  | .ret _ => true
  | .mark _ => true
  | .join _ => true
  | .exit _ => true
  | .addB64 _ => true
  | .subB64 _ => true
  | .mulB64 _ => true
  | .mulhiI64 _ => true
  | .mulhiN64 _ => true
  | .andB64 _ => true
  | .orB64 _ => true
  | .xorB64 _ => true
  | .andnB64 _ => true
  | .shlB64 _ => true
  | .shrN64 _ => true
  | .shrI64 _ => true
  | .minI64 _ => true
  | .maxI64 _ => true
  | .minN64 _ => true
  | .maxN64 _ => true
  | .maddB64 _ => true
  | .addoI64 _ => true
  | .addoN64 _ => true
  | .suboI64 _ => true
  | .suboN64 _ => true
  | .muloI64 _ => true
  | .muloN64 _ => true
  | .addiB64 _ => true
  | .andiB64 _ => true
  | .oriB64 _ => true
  | .xoriB64 _ => true
  | .inshB64 _ => true
  | .moviB64 _ => true
  | .cmpEqB64 _ => true
  | .cmpNeB64 _ => true
  | .cmpLtI64 _ => true
  | .cmpLeI64 _ => true
  | .cmpLtN64 _ => true
  | .cmpLeN64 _ => true
  | .selB64 _ => true
  | .popcB64 _ => true
  | .clzB64 _ => true
  | .ctzB64 _ => true
  | .brevB64 _ => true
  | .bextB64 _ => true
  | .binsB64 _ => true
  | .rdfr _ => true
  | .wrsr _ => true
  | .se _ => true
  | .migr _ => true
  | .addI32 _ => true
  | .subI32 _ => true
  | .addN32 _ => true
  | .subN32 _ => true
  | .andB32 _ => true
  | .orB32 _ => true
  | .xorB32 _ => true
  | .andnB32 _ => true
  | .shlB32 _ => true
  | .shrN32 _ => true
  | .shrI32 _ => true
  | .minI32 _ => true
  | .maxI32 _ => true
  | .minN32 _ => true
  | .maxN32 _ => true
  | .mulB32 _ => true
  | .mulhiI32 _ => true
  | .mulhiN32 _ => true
  | .drcpN32 _ => true
  | .dcorN32 _ => true
  | .addI16 _ => true
  | .subI16 _ => true
  | .minI16 _ => true
  | .maxI16 _ => true
  | .addI8 _ => true
  | .subI8 _ => true
  | .minN8 _ => true
  | .maxN8 _ => true
  | .absI32 _ => true
  | .popcB32 _ => true
  | .clzB32 _ => true
  | .brevB32 _ => true
  | .addiI32 _ => true
  | .andiB32 _ => true
  | .oriB32 _ => true
  | .xoriB32 _ => true
  | .shliB32 _ => true
  | .shriN32 _ => true
  | .shriI32 _ => true
  | .moviB32 _ => true
  | .addF32 _ => true
  | .subF32 _ => true
  | .mulF32 _ => true
  | .minF32 _ => true
  | .maxF32 _ => true
  | .addF16 _ => true
  | .subF16 _ => true
  | .mulF16 _ => true
  | .minF16 _ => true
  | .maxF16 _ => true
  | .addBf16 _ => true
  | .subBf16 _ => true
  | .mulBf16 _ => true
  | .minBf16 _ => true
  | .maxBf16 _ => true
  | .absF32 _ => true
  | .negF32 _ => true
  | .absF16 _ => true
  | .negF16 _ => true
  | .absBf16 _ => true
  | .negBf16 _ => true
  | .fmaF32 _ => true
  | .fmsF32 _ => true
  | .fnmaF32 _ => true
  | .fnmsF32 _ => true
  | .fmaF16 _ => true
  | .fmaBf16 _ => true
  | .cmpEqI32 _ => true
  | .cmpNeI32 _ => true
  | .cmpLtI32 _ => true
  | .cmpLeI32 _ => true
  | .cmpLtN32 _ => true
  | .cmpLeN32 _ => true
  | .cmpEqF32 _ => true
  | .cmpNeF32 _ => true
  | .cmpLtF32 _ => true
  | .cmpLeF32 _ => true
  | .cmpUnF32 _ => true
  | .kand _ => true
  | .kor _ => true
  | .kxor _ => true
  | .kandn _ => true
  | .knot _ => true
  | .kfirst _ => true
  | .compressB32 _ => true
  | .expandB32 _ => true
  | .slideupB32 _ => true
  | .slidednB32 _ => true
  | .matchB32 _ => true
  | .redAddI32 _ => true
  | .redAddF32 _ => true
  | .redMinI32 _ => true
  | .redMaxI32 _ => true
  | .redMinN32 _ => true
  | .redMaxN32 _ => true
  | .redMinF32 _ => true
  | .redMaxF32 _ => true
  | .redAndB32 _ => true
  | .redOrB32 _ => true
  | .redXorB32 _ => true
  | .scanAddI32 _ => true
  | .scanAddF32 _ => true
  | .scanMaxI32 _ => true
  | .scanMaxF32 _ => true
  | .cvtF16F32 _ => true
  | .cvtBf16F32 _ => true
  | .cvtF8e4F32 _ => true
  | .cvtF8e5F32 _ => true
  | .cvtF32F16 _ => true
  | .cvtF32Bf16 _ => true
  | .cvtF32F8e4 _ => true
  | .cvtF32F8e5 _ => true
  | .cvtF32I32 _ => true
  | .cvtF32N32 _ => true
  | .cvtI32F32 _ => true
  | .cvtN32F32 _ => true
  | .packI16I32 _ => true
  | .packI8I16 _ => true
  | .cvtHq4F32 _ => true
  | .rcpF32 _ => true
  | .rsqrtF32 _ => true
  | .sqrtF32 _ => true
  | .exp2F32 _ => true
  | .log2F32 _ => true
  | .sinpiF32 _ => true
  | .cospiF32 _ => true
  | .tanhF32 _ => true
  | .divF32 _ => true
  | .lds _ => true
  | .sts _ => true
  | .ldc _ => true
  | .stc _ => true
  | .ldd _ => true
  | .std _ => true
  | .ldp _ => true
  | .stp _ => true
  | .ldh _ => true
  | .sth _ => true
  | .ldk _ => true
  | .atsAdd _ => true
  | .atsAnd _ => true
  | .atsOr _ => true
  | .atsXor _ => true
  | .atsSmin _ => true
  | .atsSmax _ => true
  | .atsUmin _ => true
  | .atsUmax _ => true
  | .atsExch _ => true
  | .atsCas _ => true
  | .atsFadd _ => true
  | .atcAdd _ => true
  | .atcAnd _ => true
  | .atcOr _ => true
  | .atcXor _ => true
  | .atcSmin _ => true
  | .atcSmax _ => true
  | .atcUmin _ => true
  | .atcUmax _ => true
  | .atcExch _ => true
  | .atcCas _ => true
  | .atcFadd _ => true
  | .atdAdd _ => true
  | .atdAnd _ => true
  | .atdOr _ => true
  | .atdXor _ => true
  | .atdSmin _ => true
  | .atdSmax _ => true
  | .atdUmin _ => true
  | .atdUmax _ => true
  | .atdExch _ => true
  | .atdCas _ => true
  | .atdFadd _ => true
  | .atrPAdd _ => true
  | .atrPAnd _ => true
  | .atrPOr _ => true
  | .atrPXor _ => true
  | .atrPSmin _ => true
  | .atrPSmax _ => true
  | .atrPUmin _ => true
  | .atrPUmax _ => true
  | .atrPExch _ => true
  | .atrPCas _ => true
  | .atrPFadd _ => true
  | .atrHAdd _ => true
  | .atrHAnd _ => true
  | .atrHOr _ => true
  | .atrHXor _ => true
  | .atrHSmin _ => true
  | .atrHSmax _ => true
  | .atrHUmin _ => true
  | .atrHUmax _ => true
  | .atrHExch _ => true
  | .atrHCas _ => true
  | .atrHFadd _ => true
  | .fenceAcq _ => true
  | .fenceRel _ => true
  | .fenceAr _ => true
  | .fenceTot _ => true
  | .xfence _ => true
  | .fenceI _ => true
  | .barArr _ => true
  | .barHold _ => true
  | .wait _ => true
  | .pass _ => true
  | .cpost _ => true
  | .cdrain _ => true
  | .spawn _ => true
  | .spawnOpen _ => true
  | .arm _ => true
  | .cancel _ => true
  | .step _ => true
  | .retire _ => true
  | .mlda _ => true
  | .mldaT _ => true
  | .mldb _ => true
  | .mma _ => true
  | .mmaZ _ => true
  | .mzero _ => true
  | .mdrain _ => true
  | .mdrainp _ => true
  | .marm _ => true
  | .mstat _ => true
  | .ctab _ => true
  | .msave _ => true
  | .mrest _ => true
  | .moduleReset => false
  | .timeTick _ => false
  | .alignmentPulse => false
  | .registerWrite _ _ _ _ => false
  | .aqiCtlWrite _ _ _ => false
  | .doorbellWrite _ _ _ _ => false
  | .packetFetch _ _ => false
  | .tornSubmission _ _ => false
  | .nopPacket _ => false
  | .launch _ => false
  | .cancelPacket _ => false
  | .signal _ => false
  | .snapcut _ => false
  | .cutSwitch _ _ => false
  | .stream _ => false
  | .snapend _ => false
  | .packetCompletion _ => false
  | .atsTranslationResponse _ _ _ _ => false
  | .pageRequestResponse _ _ _ _ => false
  | .pageRequestTimeout _ _ _ => false
  | .atsInvalidation _ _ _ _ => false
  | .flitTransmit _ _ => false
  | .idleFlit _ => false
  | .flitReceive _ _ => false
  | .retrainComplete _ => false
  | .retrainTimeout _ => false
  | .ppretrWrite _ => false
  | .peerInboundAccess _ _ => false
  | .fmapWrite _ => false
  | .fwallWrite _ => false
  | .ppmapWrite _ _ => false
  | .partitionEnable _ _ => false
  | .partitionReset _ _ => false
  | .fownWrite _ _ => false
  | .frameZeroed _ => false
  | .sctbWrite _ _ => false
  | .rswWrite _ _ => false
  | .rvoltWrite _ _ => false
  | .quiesceTimeout _ => false
  | .railChangeApplied _ => false
  | .railOvercurrent _ => false
  | .throttleRelease _ => false
  | .controlIntervalEnd _ => false
  | .thermWrite _ _ => false
  | .temperatureRead _ _ => false
  | .thermalCutStep _ => false
  | .rowTestDone _ _ _ => false
  | .spreRequest _ _ => false
  | .spreRelease _ _ => false
  | .spreDone _ => false
  | .capmaskWrite _ => false
  | .astbWrite _ _ => false
  | .ppasWrite _ _ => false
  | .gcmdWrite _ _ => false
  | .generationAdvanceDone _ => false
  | .staleRejection _ => false
  | .translationWalk _ _ _ _ => false
  | .walkTimeout _ => false
  | .prefetch _ _ _ _ => false
  | .resultReturn _ _ _ => false
  | .storeAcknowledge _ _ _ => false
  | .issueCycle _ => false
  | .generateRecord _ _ _ => false
  | .stepBoundary _ _ => false
  | .dispatchBind _ => false
  | .workSteal _ => false
  | .sliceEnd _ => false
  | .groupResume _ _ _ => false
  | .crewRetire _ _ => false
  | .queueRetry _ => false
  | .cancelApply _ _ _ => false
  | .killTimeout _ _ _ => false
  | .cancelAcknowledge _ _ => false
  | .migration _ _ _ => false
  | .migrationStopTimeout _ _ _ => false
  | .fqctlWrite _ _ => false
  | .fqheadWrite _ _ => false
  | .fresRetry _ _ => false
  | .fresKill _ _ => false
  | .accumulatorSwitch _ _ _ => false
  | .copyStart _ _ => false
  | .copy _ => false
  | .transpose _ => false
  | .fill _ => false
  | .caskAdd _ => false
  | .settle _ => false
  | .gristLoad _ => false
  | .cellarStream _ => false
  | .copyComplete _ => false
  | .tunStep _ => false
  | .tunOperationDone _ => false
  | .peerAddApply _ _ _ => false
  | .ctabDone _ => false
  | .waitTimeout _ => false
  | .hostWriteError _ => false

/-- The fields that the row does not use hold zero (R215, R222, R223 and each row). -/
def fieldsZero : Instr → Bool
  | .pairWord f => f.op1.zero && f.op2.zero
  | .nop f => f.zero false false false false 0
  | .capq f => f.zero true true false false 0
  | .trap f => f.zero false true false false 0
  | .rte f => f.zero false false false false 0
  | .br f => f.zero false false (BitVec.allOnes 32)
  | .bz f => f.zero false true (BitVec.allOnes 32)
  | .bnz f => f.zero false true (BitVec.allOnes 32)
  | .bk f => f.zero false true (BitVec.allOnes 32)
  | .bnk f => f.zero false true (BitVec.allOnes 32)
  | .call f => f.zero true false (BitVec.allOnes 32)
  | .ret f => f.zero false true 0
  | .mark f => f.zero false false (BitVec.allOnes 32)
  | .join f => f.zero false false 0
  | .exit f => f.zero false false 0
  | .addB64 f => f.zero true true true false 0
  | .subB64 f => f.zero true true true false 0
  | .mulB64 f => f.zero true true true false 0
  | .mulhiI64 f => f.zero true true true false 0
  | .mulhiN64 f => f.zero true true true false 0
  | .andB64 f => f.zero true true true false 0
  | .orB64 f => f.zero true true true false 0
  | .xorB64 f => f.zero true true true false 0
  | .andnB64 f => f.zero true true true false 0
  | .shlB64 f => f.zero true true true false 0
  | .shrN64 f => f.zero true true true false 0
  | .shrI64 f => f.zero true true true false 0
  | .minI64 f => f.zero true true true false 0
  | .maxI64 f => f.zero true true true false 0
  | .minN64 f => f.zero true true true false 0
  | .maxN64 f => f.zero true true true false 0
  | .maddB64 f => f.zero true true true true 0
  | .addoI64 f => f.zero true true true false 0
  | .addoN64 f => f.zero true true true false 0
  | .suboI64 f => f.zero true true true false 0
  | .suboN64 f => f.zero true true true false 0
  | .muloI64 f => f.zero true true true false 0
  | .muloN64 f => f.zero true true true false 0
  | .addiB64 f => f.zero true true (BitVec.allOnes 32)
  | .andiB64 f => f.zero true true (BitVec.allOnes 32)
  | .oriB64 f => f.zero true true (BitVec.allOnes 32)
  | .xoriB64 f => f.zero true true (BitVec.allOnes 32)
  | .inshB64 f => f.zero true true (BitVec.allOnes 32)
  | .moviB64 f => f.zero true false (BitVec.allOnes 32)
  | .cmpEqB64 f => f.zero true true true false 0
  | .cmpNeB64 f => f.zero true true true false 0
  | .cmpLtI64 f => f.zero true true true false 0
  | .cmpLeI64 f => f.zero true true true false 0
  | .cmpLtN64 f => f.zero true true true false 0
  | .cmpLeN64 f => f.zero true true true false 0
  | .selB64 f => f.zero true true true true 0
  | .popcB64 f => f.zero true true false false 0
  | .clzB64 f => f.zero true true false false 0
  | .ctzB64 f => f.zero true true false false 0
  | .brevB64 f => f.zero true true false false 0
  | .bextB64 f => f.zero true true false true 0
  | .binsB64 f => f.zero true true true true 0
  | .rdfr f => f.zero true true false false 0
  | .wrsr f => f.zero true true false false 0
  | .se f => f.zero false false 0xFFFF
  | .migr f => f.zero true false 0
  | .addI32 f => f.zero true true
  | .subI32 f => f.zero true true
  | .addN32 f => f.zero true true
  | .subN32 f => f.zero true true
  | .andB32 f => f.zero true true
  | .orB32 f => f.zero true true
  | .xorB32 f => f.zero true true
  | .andnB32 f => f.zero true true
  | .shlB32 f => f.zero true true
  | .shrN32 f => f.zero true true
  | .shrI32 f => f.zero true true
  | .minI32 f => f.zero true true
  | .maxI32 f => f.zero true true
  | .minN32 f => f.zero true true
  | .maxN32 f => f.zero true true
  | .mulB32 f => f.zero true true
  | .mulhiI32 f => f.zero true true
  | .mulhiN32 f => f.zero true true
  | .drcpN32 f => f.zero false false
  | .dcorN32 f => f.zero true true
  | .addI16 f => f.zero true true
  | .subI16 f => f.zero true true
  | .minI16 f => f.zero true true
  | .maxI16 f => f.zero true true
  | .addI8 f => f.zero true true
  | .subI8 f => f.zero true true
  | .minN8 f => f.zero true true
  | .maxN8 f => f.zero true true
  | .absI32 f => f.zero false false
  | .popcB32 f => f.zero false false
  | .clzB32 f => f.zero false false
  | .brevB32 f => f.zero false false
  | .addiI32 f => f.zero true true (BitVec.allOnes 32)
  | .andiB32 f => f.zero true true (BitVec.allOnes 32)
  | .oriB32 f => f.zero true true (BitVec.allOnes 32)
  | .xoriB32 f => f.zero true true (BitVec.allOnes 32)
  | .shliB32 f => f.zero true true (BitVec.allOnes 32)
  | .shriN32 f => f.zero true true (BitVec.allOnes 32)
  | .shriI32 f => f.zero true true (BitVec.allOnes 32)
  | .moviB32 f => f.zero true false (BitVec.allOnes 32)
  | .addF32 f => f.zero true true
  | .subF32 f => f.zero true true
  | .mulF32 f => f.zero true true
  | .minF32 f => f.zero true true
  | .maxF32 f => f.zero true true
  | .addF16 f => f.zero true true
  | .subF16 f => f.zero true true
  | .mulF16 f => f.zero true true
  | .minF16 f => f.zero true true
  | .maxF16 f => f.zero true true
  | .addBf16 f => f.zero true true
  | .subBf16 f => f.zero true true
  | .mulBf16 f => f.zero true true
  | .minBf16 f => f.zero true true
  | .maxBf16 f => f.zero true true
  | .absF32 f => f.zero false false
  | .negF32 f => f.zero false false
  | .absF16 f => f.zero false false
  | .negF16 f => f.zero false false
  | .absBf16 f => f.zero false false
  | .negBf16 f => f.zero false false
  | .fmaF32 _ => true
  | .fmsF32 _ => true
  | .fnmaF32 _ => true
  | .fnmsF32 _ => true
  | .fmaF16 _ => true
  | .fmaBf16 _ => true
  | .cmpEqI32 f => f.zero true true
  | .cmpNeI32 f => f.zero true true
  | .cmpLtI32 f => f.zero true true
  | .cmpLeI32 f => f.zero true true
  | .cmpLtN32 f => f.zero true true
  | .cmpLeN32 f => f.zero true true
  | .cmpEqF32 f => f.zero true true
  | .cmpNeF32 f => f.zero true true
  | .cmpLtF32 f => f.zero true true
  | .cmpLeF32 f => f.zero true true
  | .cmpUnF32 f => f.zero true true
  | .kand f => f.zero true true
  | .kor f => f.zero true true
  | .kxor f => f.zero true true
  | .kandn f => f.zero true true
  | .knot f => f.zero false false
  | .kfirst f => f.zero false false
  | .compressB32 f => f.zero false false
  | .expandB32 f => f.zero false false
  | .slideupB32 f => f.zero true false
  | .slidednB32 f => f.zero true false
  | .matchB32 f => f.zero false false
  | .redAddI32 f => f.zero false false
  | .redAddF32 f => f.zero false false
  | .redMinI32 f => f.zero false false
  | .redMaxI32 f => f.zero false false
  | .redMinN32 f => f.zero false false
  | .redMaxN32 f => f.zero false false
  | .redMinF32 f => f.zero false false
  | .redMaxF32 f => f.zero false false
  | .redAndB32 f => f.zero false false
  | .redOrB32 f => f.zero false false
  | .redXorB32 f => f.zero false false
  | .scanAddI32 f => f.zero false false
  | .scanAddF32 f => f.zero false false
  | .scanMaxI32 f => f.zero false false
  | .scanMaxF32 f => f.zero false false
  | .cvtF16F32 f => f.v.zeroOrEf && f.p ≤ 1
  | .cvtBf16F32 f => f.v.zeroOrEf && f.p ≤ 1
  | .cvtF8e4F32 f => f.v.zeroOrEf && f.p ≤ 3
  | .cvtF8e5F32 f => f.v.zeroOrEf && f.p ≤ 3
  | .cvtF32F16 f => f.v.zeroOrEf && f.p ≤ 1
  | .cvtF32Bf16 f => f.v.zeroOrEf && f.p ≤ 1
  | .cvtF32F8e4 f => f.v.zeroOrEf && f.p ≤ 3
  | .cvtF32F8e5 f => f.v.zeroOrEf && f.p ≤ 3
  | .cvtF32I32 f => f.zeroOrEf
  | .cvtF32N32 f => f.zeroOrEf
  | .cvtI32F32 f => f.zeroOrEf
  | .cvtN32F32 f => f.zeroOrEf
  | .packI16I32 f => f.zero true true
  | .packI8I16 f => f.zero true true
  | .cvtHq4F32 f => f.zero true false
  | .rcpF32 f => f.zero false false
  | .rsqrtF32 f => f.zero false false
  | .sqrtF32 f => f.zero false false
  | .exp2F32 f => f.zero false false
  | .log2F32 f => f.zero false false
  | .sinpiF32 f => f.zero false false
  | .cospiF32 f => f.zero false false
  | .tanhF32 f => f.zero false false
  | .divF32 f => f.zero true true
  | .lds _ => true
  | .sts _ => true
  | .ldc _ => true
  | .stc _ => true
  | .ldd _ => true
  | .std _ => true
  | .ldp _ => true
  | .stp _ => true
  | .ldh _ => true
  | .sth _ => true
  | .ldk _ => true
  | .atsAdd f => f.c == .m 0
  | .atsAnd f => f.c == .m 0
  | .atsOr f => f.c == .m 0
  | .atsXor f => f.c == .m 0
  | .atsSmin f => f.c == .m 0
  | .atsSmax f => f.c == .m 0
  | .atsUmin f => f.c == .m 0
  | .atsUmax f => f.c == .m 0
  | .atsExch f => f.c == .m 0
  | .atsCas _ => true
  | .atsFadd f => f.c == .m 0
  | .atcAdd f => f.c == .m 0
  | .atcAnd f => f.c == .m 0
  | .atcOr f => f.c == .m 0
  | .atcXor f => f.c == .m 0
  | .atcSmin f => f.c == .m 0
  | .atcSmax f => f.c == .m 0
  | .atcUmin f => f.c == .m 0
  | .atcUmax f => f.c == .m 0
  | .atcExch f => f.c == .m 0
  | .atcCas _ => true
  | .atcFadd f => f.c == .m 0
  | .atdAdd f => f.c == .m 0
  | .atdAnd f => f.c == .m 0
  | .atdOr f => f.c == .m 0
  | .atdXor f => f.c == .m 0
  | .atdSmin f => f.c == .m 0
  | .atdSmax f => f.c == .m 0
  | .atdUmin f => f.c == .m 0
  | .atdUmax f => f.c == .m 0
  | .atdExch f => f.c == .m 0
  | .atdCas _ => true
  | .atdFadd f => f.c == .m 0
  | .atrPAdd f => f.c == .m 0
  | .atrPAnd f => f.c == .m 0
  | .atrPOr f => f.c == .m 0
  | .atrPXor f => f.c == .m 0
  | .atrPSmin f => f.c == .m 0
  | .atrPSmax f => f.c == .m 0
  | .atrPUmin f => f.c == .m 0
  | .atrPUmax f => f.c == .m 0
  | .atrPExch f => f.c == .m 0
  | .atrPCas _ => true
  | .atrPFadd f => f.c == .m 0
  | .atrHAdd f => f.c == .m 0
  | .atrHAnd f => f.c == .m 0
  | .atrHOr f => f.c == .m 0
  | .atrHXor f => f.c == .m 0
  | .atrHSmin f => f.c == .m 0
  | .atrHSmax f => f.c == .m 0
  | .atrHUmin f => f.c == .m 0
  | .atrHUmax f => f.c == .m 0
  | .atrHExch f => f.c == .m 0
  | .atrHCas _ => true
  | .atrHFadd f => f.c == .m 0
  | .fenceAcq _ => true
  | .fenceRel _ => true
  | .fenceAr _ => true
  | .fenceTot _ => true
  | .xfence _ => true
  | .fenceI _ => true
  | .barArr f => f.zero true true true false 0
  | .barHold f => f.zero false true true false 0
  | .wait f => f.zero true true true false 0
  | .pass f => f.zero false false false false 0
  | .cpost f => f.zero true true false false 0
  | .cdrain f => f.zero false false false true 0x380 && f.c.bits &&& 0x07F#10 == 0
  | .spawn f => f.zero true true false false 0
  | .spawnOpen f => f.zero true true true false 0
  | .arm f => f.zero true true true false 0
  | .cancel f => f.zero true true false false 0
  | .step f => f.zero true true false false 0
  | .retire f => f.zero false false false false 0
  | .mlda f => f.zero
  | .mldaT f => f.zero
  | .mldb f => f.zero && f.size == .b8
  | .mma f => f.zero true true true true 0xFFF
  | .mmaZ f => f.zero true true true true 0xFFF
  | .mzero f => f.zero true false false false 0xE00
  | .mdrain f => f.zero (f.mod.extractLsb' 6 3 == 4#3) true true true 0xFFE
  | .mdrainp f => f.zero false true true false 0xE00
  | .marm f => f.zero true true false false 0x002
  | .mstat f => f.zero true true false false 0
  | .ctab f => f.zero false true false false 0
  | .msave f => f.zero false true false false 0
  | .mrest f => f.zero false true false false 0
  | .moduleReset => true
  | .timeTick _ => true
  | .alignmentPulse => true
  | .registerWrite _ _ _ _ => true
  | .aqiCtlWrite _ _ _ => true
  | .doorbellWrite _ _ _ _ => true
  | .packetFetch _ _ => true
  | .tornSubmission _ _ => true
  | .nopPacket _ => true
  | .launch _ => true
  | .cancelPacket _ => true
  | .signal _ => true
  | .snapcut _ => true
  | .cutSwitch _ _ => true
  | .stream _ => true
  | .snapend _ => true
  | .packetCompletion _ => true
  | .atsTranslationResponse _ _ _ _ => true
  | .pageRequestResponse _ _ _ _ => true
  | .pageRequestTimeout _ _ _ => true
  | .atsInvalidation _ _ _ _ => true
  | .flitTransmit _ _ => true
  | .idleFlit _ => true
  | .flitReceive _ _ => true
  | .retrainComplete _ => true
  | .retrainTimeout _ => true
  | .ppretrWrite _ => true
  | .peerInboundAccess _ _ => true
  | .fmapWrite _ => true
  | .fwallWrite _ => true
  | .ppmapWrite _ _ => true
  | .partitionEnable _ _ => true
  | .partitionReset _ _ => true
  | .fownWrite _ _ => true
  | .frameZeroed _ => true
  | .sctbWrite _ _ => true
  | .rswWrite _ _ => true
  | .rvoltWrite _ _ => true
  | .quiesceTimeout _ => true
  | .railChangeApplied _ => true
  | .railOvercurrent _ => true
  | .throttleRelease _ => true
  | .controlIntervalEnd _ => true
  | .thermWrite _ _ => true
  | .temperatureRead _ _ => true
  | .thermalCutStep _ => true
  | .rowTestDone _ _ _ => true
  | .spreRequest _ _ => true
  | .spreRelease _ _ => true
  | .spreDone _ => true
  | .capmaskWrite _ => true
  | .astbWrite _ _ => true
  | .ppasWrite _ _ => true
  | .gcmdWrite _ _ => true
  | .generationAdvanceDone _ => true
  | .staleRejection _ => true
  | .translationWalk _ _ _ _ => true
  | .walkTimeout _ => true
  | .prefetch _ _ _ _ => true
  | .resultReturn _ _ _ => true
  | .storeAcknowledge _ _ _ => true
  | .issueCycle _ => true
  | .generateRecord _ _ _ => true
  | .stepBoundary _ _ => true
  | .dispatchBind _ => true
  | .workSteal _ => true
  | .sliceEnd _ => true
  | .groupResume _ _ _ => true
  | .crewRetire _ _ => true
  | .queueRetry _ => true
  | .cancelApply _ _ _ => true
  | .killTimeout _ _ _ => true
  | .cancelAcknowledge _ _ => true
  | .migration _ _ _ => true
  | .migrationStopTimeout _ _ _ => true
  | .fqctlWrite _ _ => true
  | .fqheadWrite _ _ => true
  | .fresRetry _ _ => true
  | .fresKill _ _ => true
  | .accumulatorSwitch _ _ _ => true
  | .copyStart _ _ => true
  | .copy _ => true
  | .transpose _ => true
  | .fill _ => true
  | .caskAdd _ => true
  | .settle _ => true
  | .gristLoad _ => true
  | .cellarStream _ => true
  | .copyComplete _ => true
  | .tunStep _ => true
  | .tunOperationDone _ => true
  | .peerAddApply _ _ _ => true
  | .ctabDone _ => true
  | .waitTimeout _ => true
  | .hostWriteError _ => true

/-- The order and scope codes that the row accepts (R221, R258, R272, R326). -/
def orderLegal : Instr → Bool
  | .pairWord _ => true
  | .nop _ => true
  | .capq _ => true
  | .trap _ => true
  | .rte _ => true
  | .br _ => true
  | .bz _ => true
  | .bnz _ => true
  | .bk _ => true
  | .bnk _ => true
  | .call _ => true
  | .ret _ => true
  | .mark _ => true
  | .join _ => true
  | .exit _ => true
  | .addB64 _ => true
  | .subB64 _ => true
  | .mulB64 _ => true
  | .mulhiI64 _ => true
  | .mulhiN64 _ => true
  | .andB64 _ => true
  | .orB64 _ => true
  | .xorB64 _ => true
  | .andnB64 _ => true
  | .shlB64 _ => true
  | .shrN64 _ => true
  | .shrI64 _ => true
  | .minI64 _ => true
  | .maxI64 _ => true
  | .minN64 _ => true
  | .maxN64 _ => true
  | .maddB64 _ => true
  | .addoI64 _ => true
  | .addoN64 _ => true
  | .suboI64 _ => true
  | .suboN64 _ => true
  | .muloI64 _ => true
  | .muloN64 _ => true
  | .addiB64 _ => true
  | .andiB64 _ => true
  | .oriB64 _ => true
  | .xoriB64 _ => true
  | .inshB64 _ => true
  | .moviB64 _ => true
  | .cmpEqB64 _ => true
  | .cmpNeB64 _ => true
  | .cmpLtI64 _ => true
  | .cmpLeI64 _ => true
  | .cmpLtN64 _ => true
  | .cmpLeN64 _ => true
  | .selB64 _ => true
  | .popcB64 _ => true
  | .clzB64 _ => true
  | .ctzB64 _ => true
  | .brevB64 _ => true
  | .bextB64 _ => true
  | .binsB64 _ => true
  | .rdfr _ => true
  | .wrsr _ => true
  | .se _ => true
  | .migr _ => true
  | .addI32 _ => true
  | .subI32 _ => true
  | .addN32 _ => true
  | .subN32 _ => true
  | .andB32 _ => true
  | .orB32 _ => true
  | .xorB32 _ => true
  | .andnB32 _ => true
  | .shlB32 _ => true
  | .shrN32 _ => true
  | .shrI32 _ => true
  | .minI32 _ => true
  | .maxI32 _ => true
  | .minN32 _ => true
  | .maxN32 _ => true
  | .mulB32 _ => true
  | .mulhiI32 _ => true
  | .mulhiN32 _ => true
  | .drcpN32 _ => true
  | .dcorN32 _ => true
  | .addI16 _ => true
  | .subI16 _ => true
  | .minI16 _ => true
  | .maxI16 _ => true
  | .addI8 _ => true
  | .subI8 _ => true
  | .minN8 _ => true
  | .maxN8 _ => true
  | .absI32 _ => true
  | .popcB32 _ => true
  | .clzB32 _ => true
  | .brevB32 _ => true
  | .addiI32 _ => true
  | .andiB32 _ => true
  | .oriB32 _ => true
  | .xoriB32 _ => true
  | .shliB32 _ => true
  | .shriN32 _ => true
  | .shriI32 _ => true
  | .moviB32 _ => true
  | .addF32 _ => true
  | .subF32 _ => true
  | .mulF32 _ => true
  | .minF32 _ => true
  | .maxF32 _ => true
  | .addF16 _ => true
  | .subF16 _ => true
  | .mulF16 _ => true
  | .minF16 _ => true
  | .maxF16 _ => true
  | .addBf16 _ => true
  | .subBf16 _ => true
  | .mulBf16 _ => true
  | .minBf16 _ => true
  | .maxBf16 _ => true
  | .absF32 _ => true
  | .negF32 _ => true
  | .absF16 _ => true
  | .negF16 _ => true
  | .absBf16 _ => true
  | .negBf16 _ => true
  | .fmaF32 _ => true
  | .fmsF32 _ => true
  | .fnmaF32 _ => true
  | .fnmsF32 _ => true
  | .fmaF16 _ => true
  | .fmaBf16 _ => true
  | .cmpEqI32 _ => true
  | .cmpNeI32 _ => true
  | .cmpLtI32 _ => true
  | .cmpLeI32 _ => true
  | .cmpLtN32 _ => true
  | .cmpLeN32 _ => true
  | .cmpEqF32 _ => true
  | .cmpNeF32 _ => true
  | .cmpLtF32 _ => true
  | .cmpLeF32 _ => true
  | .cmpUnF32 _ => true
  | .kand _ => true
  | .kor _ => true
  | .kxor _ => true
  | .kandn _ => true
  | .knot _ => true
  | .kfirst _ => true
  | .compressB32 _ => true
  | .expandB32 _ => true
  | .slideupB32 _ => true
  | .slidednB32 _ => true
  | .matchB32 _ => true
  | .redAddI32 _ => true
  | .redAddF32 _ => true
  | .redMinI32 _ => true
  | .redMaxI32 _ => true
  | .redMinN32 _ => true
  | .redMaxN32 _ => true
  | .redMinF32 _ => true
  | .redMaxF32 _ => true
  | .redAndB32 _ => true
  | .redOrB32 _ => true
  | .redXorB32 _ => true
  | .scanAddI32 _ => true
  | .scanAddF32 _ => true
  | .scanMaxI32 _ => true
  | .scanMaxF32 _ => true
  | .cvtF16F32 _ => true
  | .cvtBf16F32 _ => true
  | .cvtF8e4F32 _ => true
  | .cvtF8e5F32 _ => true
  | .cvtF32F16 _ => true
  | .cvtF32Bf16 _ => true
  | .cvtF32F8e4 _ => true
  | .cvtF32F8e5 _ => true
  | .cvtF32I32 _ => true
  | .cvtF32N32 _ => true
  | .cvtI32F32 _ => true
  | .cvtN32F32 _ => true
  | .packI16I32 _ => true
  | .packI8I16 _ => true
  | .cvtHq4F32 _ => true
  | .rcpF32 _ => true
  | .rsqrtF32 _ => true
  | .sqrtF32 _ => true
  | .exp2F32 _ => true
  | .log2F32 _ => true
  | .sinpiF32 _ => true
  | .cospiF32 _ => true
  | .tanhF32 _ => true
  | .divF32 _ => true
  | .lds f => f.loadOrder
  | .sts f => f.storeOrder
  | .ldc f => f.loadOrder
  | .stc f => f.storeOrder
  | .ldd f => f.loadOrder
  | .std f => f.storeOrder
  | .ldp f => f.loadOrder
  | .stp f => f.storeOrder
  | .ldh f => f.loadOrder
  | .sth f => f.storeOrder
  | .ldk f => f.ord == .plain && f.scope == .default
  | .atsAdd f => f.order
  | .atsAnd f => f.order
  | .atsOr f => f.order
  | .atsXor f => f.order
  | .atsSmin f => f.order
  | .atsSmax f => f.order
  | .atsUmin f => f.order
  | .atsUmax f => f.order
  | .atsExch f => f.order
  | .atsCas f => f.order
  | .atsFadd f => f.order
  | .atcAdd f => f.order
  | .atcAnd f => f.order
  | .atcOr f => f.order
  | .atcXor f => f.order
  | .atcSmin f => f.order
  | .atcSmax f => f.order
  | .atcUmin f => f.order
  | .atcUmax f => f.order
  | .atcExch f => f.order
  | .atcCas f => f.order
  | .atcFadd f => f.order
  | .atdAdd f => f.order
  | .atdAnd f => f.order
  | .atdOr f => f.order
  | .atdXor f => f.order
  | .atdSmin f => f.order
  | .atdSmax f => f.order
  | .atdUmin f => f.order
  | .atdUmax f => f.order
  | .atdExch f => f.order
  | .atdCas f => f.order
  | .atdFadd f => f.order
  | .atrPAdd f => f.order
  | .atrPAnd f => f.order
  | .atrPOr f => f.order
  | .atrPXor f => f.order
  | .atrPSmin f => f.order
  | .atrPSmax f => f.order
  | .atrPUmin f => f.order
  | .atrPUmax f => f.order
  | .atrPExch f => f.order
  | .atrPCas f => f.order
  | .atrPFadd f => f.order
  | .atrHAdd f => f.order
  | .atrHAnd f => f.order
  | .atrHOr f => f.order
  | .atrHXor f => f.order
  | .atrHSmin f => f.order
  | .atrHSmax f => f.order
  | .atrHUmin f => f.order
  | .atrHUmax f => f.order
  | .atrHExch f => f.order
  | .atrHCas f => f.order
  | .atrHFadd f => f.order
  | .fenceAcq f => f.scope != .reserved
  | .fenceRel f => f.scope != .reserved
  | .fenceAr f => f.scope != .reserved
  | .fenceTot f => f.scope != .reserved
  | .xfence _ => true
  | .fenceI _ => true
  | .barArr _ => true
  | .barHold _ => true
  | .wait _ => true
  | .pass _ => true
  | .cpost _ => true
  | .cdrain f => f.mod.extractLsb' 7 3 != 7#3
  | .spawn _ => true
  | .spawnOpen _ => true
  | .arm _ => true
  | .cancel _ => true
  | .step _ => true
  | .retire _ => true
  | .mlda _ => true
  | .mldaT _ => true
  | .mldb _ => true
  | .mma _ => true
  | .mmaZ _ => true
  | .mzero _ => true
  | .mdrain _ => true
  | .mdrainp _ => true
  | .marm _ => true
  | .mstat _ => true
  | .ctab _ => true
  | .msave _ => true
  | .mrest _ => true
  | .moduleReset => true
  | .timeTick _ => true
  | .alignmentPulse => true
  | .registerWrite _ _ _ _ => true
  | .aqiCtlWrite _ _ _ => true
  | .doorbellWrite _ _ _ _ => true
  | .packetFetch _ _ => true
  | .tornSubmission _ _ => true
  | .nopPacket _ => true
  | .launch _ => true
  | .cancelPacket _ => true
  | .signal _ => true
  | .snapcut _ => true
  | .cutSwitch _ _ => true
  | .stream _ => true
  | .snapend _ => true
  | .packetCompletion _ => true
  | .atsTranslationResponse _ _ _ _ => true
  | .pageRequestResponse _ _ _ _ => true
  | .pageRequestTimeout _ _ _ => true
  | .atsInvalidation _ _ _ _ => true
  | .flitTransmit _ _ => true
  | .idleFlit _ => true
  | .flitReceive _ _ => true
  | .retrainComplete _ => true
  | .retrainTimeout _ => true
  | .ppretrWrite _ => true
  | .peerInboundAccess _ _ => true
  | .fmapWrite _ => true
  | .fwallWrite _ => true
  | .ppmapWrite _ _ => true
  | .partitionEnable _ _ => true
  | .partitionReset _ _ => true
  | .fownWrite _ _ => true
  | .frameZeroed _ => true
  | .sctbWrite _ _ => true
  | .rswWrite _ _ => true
  | .rvoltWrite _ _ => true
  | .quiesceTimeout _ => true
  | .railChangeApplied _ => true
  | .railOvercurrent _ => true
  | .throttleRelease _ => true
  | .controlIntervalEnd _ => true
  | .thermWrite _ _ => true
  | .temperatureRead _ _ => true
  | .thermalCutStep _ => true
  | .rowTestDone _ _ _ => true
  | .spreRequest _ _ => true
  | .spreRelease _ _ => true
  | .spreDone _ => true
  | .capmaskWrite _ => true
  | .astbWrite _ _ => true
  | .ppasWrite _ _ => true
  | .gcmdWrite _ _ => true
  | .generationAdvanceDone _ => true
  | .staleRejection _ => true
  | .translationWalk _ _ _ _ => true
  | .walkTimeout _ => true
  | .prefetch _ _ _ _ => true
  | .resultReturn _ _ _ => true
  | .storeAcknowledge _ _ _ => true
  | .issueCycle _ => true
  | .generateRecord _ _ _ => true
  | .stepBoundary _ _ => true
  | .dispatchBind _ => true
  | .workSteal _ => true
  | .sliceEnd _ => true
  | .groupResume _ _ _ => true
  | .crewRetire _ _ => true
  | .queueRetry _ => true
  | .cancelApply _ _ _ => true
  | .killTimeout _ _ _ => true
  | .cancelAcknowledge _ _ => true
  | .migration _ _ _ => true
  | .migrationStopTimeout _ _ _ => true
  | .fqctlWrite _ _ => true
  | .fqheadWrite _ _ => true
  | .fresRetry _ _ => true
  | .fresKill _ _ => true
  | .accumulatorSwitch _ _ _ => true
  | .copyStart _ _ => true
  | .copy _ => true
  | .transpose _ => true
  | .fill _ => true
  | .caskAdd _ => true
  | .settle _ => true
  | .gristLoad _ => true
  | .cellarStream _ => true
  | .copyComplete _ => true
  | .tunStep _ => true
  | .tunOperationDone _ => true
  | .peerAddApply _ _ _ => true
  | .ctabDone _ => true
  | .waitTimeout _ => true
  | .hostWriteError _ => true

/-- The pair rules of R117. -/
def pairLegal : Instr → Bool
  | .pairWord f => f.legal
  | _ => true

/-- The two paths of xfence differ (R223). -/
def pathLegal : Instr → Bool
  | .xfence f => f.a != f.b
  | _ => true

/-- The lowest decode code that applies (R181, R228). -/
def decodeErr (i : Instr) : Option DecodeErr :=
  if !i.fieldsZero then some .reservedField
  else if !i.pairLegal then some .illegalPair
  else if !i.orderLegal then some .illegalOrder
  else if !i.pathLegal then some .illegalPath
  else none

/-- A well-formed instruction word. -/
def WellFormed (i : Instr) : Prop := (i.isWord && i.decodeErr == none) = true

end Instr

end Sys2Proof
end

