-- ==== Sys2Proof/Decode.lean ====
section
/-!
DEFINITION. Decoding and encoding of 64-bit instruction words (12). decode is total: it answers an instruction or the decode code that the word takes (R228). The definitions marked noncomputable build constructors beyond the number of tags that Lean's compiler represents; the kernel evaluates them like any other.
-/
namespace Sys2Proof

/-- The special at index 81 + n (R217). -/
def Special.ofNum : Nat → Special
  | 0 => .gid | 1 => .stage | 2 => .round | 3 => .crew | 4 => .tile | 5 => .launch | 6 => .scope | 7 => .core | 8 => .ctype | 9 => .cyc
  | 10 => .time | 11 => .seq | 12 => .flags | 13 => .aown | _ => .ctx

/-- An operand of the S-class, by its index (R217). -/
def Operand.ofS (i : BitVec 8) : Operand :=
  if i < 64 then .s (i.setWidth 6)
  else if i < 72 then .k (i.setWidth 3)
  else if i < 76 then .acc (i.setWidth 2)
  else if i < 80 then .resLow (i.setWidth 2)
  else if i = 80 then .lane
  else if i < 96 then .special (Special.ofNum (i.toNat - 81))
  else if i < 128 then .resHigh (i.setWidth 5)
  else .const (i.setWidth 7)

/-- The operand that a 10-bit specifier names (R216, R217). -/
def Operand.ofBits (b : BitVec 10) : Operand :=
  let i : BitVec 8 := b.setWidth 8
  match (b.extractLsb' 8 2).toNat with
  | 0 => .m i
  | 1 => .o i
  | 2 => .x i
  | _ => .ofS i

/-- The operand that a short specifier names (R216). -/
def ShortOperand.ofBits (b : BitVec 8) : ShortOperand :=
  let i : BitVec 6 := b.setWidth 6
  match (b.extractLsb' 6 2).toNat with
  | 0 => .m i
  | 1 => .o i
  | 2 => .x i
  | _ => .s i

/-- A short specifier (R216). -/
def ShortOperand.bits : ShortOperand → BitVec 8
  | .m i => 0#2 ++ i
  | .o i => 1#2 ++ i
  | .x i => 2#2 ++ i
  | .s i => 3#2 ++ i

/-- CLASS (R224). -/
def ModClass.ofBits (b : BitVec 2) : ModClass :=
  match b.toNat with | 0 => .none | 1 => .rotate | 2 => .butterfly | _ => .broadcast

/-- CLASS (R224). -/
def ModClass.bits : ModClass → BitVec 2
  | .none => 0 | .rotate => 1 | .butterfly => 2 | .broadcast => 3

/-- MOD as a source modifier (R224). -/
def SrcMod.ofBits (b : BitVec 12) : SrcMod := ⟨.ofBits (b.extractLsb' 10 2), b.extractLsb' 7 3, b.extractLsb' 0 7⟩

/-- MOD as a source modifier (R224). -/
def SrcMod.bits (m : SrcMod) : BitVec 12 := m.cls.bits ++ m.seg ++ m.dist

/-- RND other than 0b100 (R222). -/
def Rnd.bits : Rnd → BitVec 3
  | .rne => 0 | .rz => 1 | .rd => 2 | .ru => 3 | .r5 => 5 | .r6 => 6 | .r7 => 7

/-- RND other than 0b100 (R222). -/
def Rnd.ofBits (b : BitVec 3) : Rnd :=
  match b.toNat with | 0 => .rne | 1 => .rz | 2 => .rd | 3 => .ru | 5 => .r5 | 6 => .r6 | _ => .r7

/-- ORD (R221). -/
def Order.bits : Order → BitVec 2
  | .plain => 0 | .acq => 1 | .rel => 2 | .ar => 3

/-- ORD (R221). -/
def Order.ofBits (b : BitVec 2) : Order :=
  match b.toNat with | 0 => .plain | 1 => .acq | 2 => .rel | _ => .ar

/-- SCOPE (R221). -/
def Scope.bits : Scope → BitVec 3
  | .default => 0 | .group => 1 | .crew => 2 | .cluster => 3 | .die => 4 | .device => 5 | .system => 6 | .reserved => 7

/-- SCOPE (R221). -/
def Scope.ofBits (b : BitVec 3) : Scope :=
  match b.toNat with | 0 => .default | 1 => .group | 2 => .crew | 3 => .cluster | 4 => .die | 5 => .device | 6 => .system | _ => .reserved

/-- SIZE (R214). -/
def Size.bits : Size → BitVec 2
  | .b8 => 0 | .b16 => 1 | .b32 => 2 | .b64 => 3

/-- SIZE (R214). -/
def Size.ofBits (b : BitVec 2) : Size :=
  match b.toNat with | 0 => .b8 | 1 => .b16 | 2 => .b32 | _ => .b64

/-- A path code of xfence (R223). -/
def Path.bits : Path → BitVec 3
  | .ls => 0 | .cp => 1 | .mx => 2 | .instr => 3

/-- A path code of xfence; 4 to 7 are none (R223). -/
def Path.ofBits (b : BitVec 3) : Option Path :=
  match b.toNat with | 0 => some .ls | 1 => some .cp | 2 => some .mx | 3 => some .instr | _ => none

/-- The short opcodes (R227). -/
def Sop.ofBits (b : BitVec 6) : Option Sop :=
  match b.toNat with
  | 0x01 => some .mov | 0x02 => some .addI32 | 0x03 => some .subI32 | 0x04 => some .andB32 | 0x05 => some .orB32 | 0x06 => some .xorB32
  | 0x07 => some .shlB32 | 0x08 => some .shrN32 | 0x09 => some .shrI32 | 0x0A => some .minI32 | 0x0B => some .maxI32 | 0x0C => some .minN32
  | 0x0D => some .maxN32 | 0x10 => some .addF32 | 0x11 => some .subF32 | 0x12 => some .mulF32 | 0x13 => some .minF32 | 0x14 => some .maxF32
  | 0x15 => some .addBf16 | 0x16 => some .mulBf16 | _ => none

/-- The short opcodes (R227). -/
def Sop.bits : Sop → BitVec 6
  | .mov => 0x01 | .addI32 => 0x02 | .subI32 => 0x03 | .andB32 => 0x04 | .orB32 => 0x05 | .xorB32 => 0x06 | .shlB32 => 0x07 | .shrN32 => 0x08
  | .shrI32 => 0x09 | .minI32 => 0x0A | .maxI32 => 0x0B | .minN32 => 0x0C | .maxN32 => 0x0D | .addF32 => 0x10 | .subF32 => 0x11 | .mulF32 => 0x12
  | .minF32 => 0x13 | .maxF32 => 0x14 | .addBf16 => 0x15 | .mulBf16 => 0x16

/-! ## Formats (R214) -/

/-- MAJ (R214). -/
def majOf (w : Dword) : BitVec 6 := w.extractLsb' 58 6
/-- FN (R214). -/
def fnOf (w : Dword) : BitVec 5 := w.extractLsb' 52 5
/-- W outside pair words (R214). -/
def wOf (w : Dword) : Bool := w.getLsbD 57

/-- The R-format. -/
def RWord.ofBits (w : Dword) : RWord :=
  ⟨wOf w, .ofBits (w.extractLsb' 42 10), .ofBits (w.extractLsb' 32 10), .ofBits (w.extractLsb' 22 10), .ofBits (w.extractLsb' 12 10), w.extractLsb' 0 12⟩

/-- The I-format. -/
def IWord.ofBits (w : Dword) : IWord := ⟨wOf w, .ofBits (w.extractLsb' 42 10), .ofBits (w.extractLsb' 32 10), w.extractLsb' 0 32⟩

/-- B, MOD and RND of an MR word (R222). -/
def VTail.ofBits (rnd : BitVec 3) (b : BitVec 10) (mod : BitVec 12) : VTail :=
  if rnd = 4 then .ef (.ofBits b) (.ofBits (mod.extractLsb' 0 10)) else .src (.ofBits rnd) (.ofBits b) (.ofBits mod)

/-- The MR form (R222). -/
def MRWord.ofBits (w : Dword) : MRWord :=
  ⟨wOf w, .ofBits (w.extractLsb' 42 10), .ofBits (w.extractLsb' 32 10), .ofBits (w.extractLsb' 19 3) (w.extractLsb' 22 10) (w.extractLsb' 0 12),
    w.getLsbD 15, w.extractLsb' 12 3⟩

/-- Major 0x0A (R283). -/
def FmaWord.ofBits (w : Dword) : FmaWord :=
  ⟨wOf w, w.extractLsb' 55 2, .ofBits (w.extractLsb' 42 10), .ofBits (w.extractLsb' 32 10), .ofBits (w.extractLsb' 22 10), .ofBits (w.extractLsb' 12 10),
    .ofBits (w.extractLsb' 0 12)⟩

/-- The M-format (R214). -/
def MWord.ofBits (w : Dword) : MWord :=
  ⟨wOf w, .ofBits (w.extractLsb' 54 3), .ofBits (w.extractLsb' 52 2), .ofBits (w.extractLsb' 42 10), .ofBits (w.extractLsb' 32 10),
    .ofBits (w.extractLsb' 22 10), w.extractLsb' 20 2, .ofBits (w.extractLsb' 18 2), w.extractLsb' 0 18⟩

/-- The M-format of the matrix loads, whose bits [56:54] hold FN (R301). -/
def MWord.ofLoadBits (w : Dword) : MWord := { MWord.ofBits w with scope := .default }

/-- An atomic (R223, R267). -/
def AWord.ofBits (w : Dword) : AWord :=
  ⟨wOf w, .ofBits (w.extractLsb' 42 10), .ofBits (w.extractLsb' 32 10), .ofBits (w.extractLsb' 22 10), .ofBits (w.extractLsb' 12 10),
    .ofBits (w.extractLsb' 10 2), .ofBits (w.extractLsb' 7 3), w.extractLsb' 5 2⟩

/-- A short operation; none where SOP is not assigned (R227). -/
def ShortOp.ofBits (b : BitVec 30) : Option ShortOp :=
  (Sop.ofBits (b.extractLsb' 24 6)).map fun op => ⟨op, .ofBits (b.extractLsb' 16 8), .ofBits (b.extractLsb' 8 8), .ofBits (b.extractLsb' 0 8)⟩

/-- The bits that a row's format reserves hold zero (R222, R223); fields that a constructor holds are judged by Instr.fieldsZero. -/
def rawZero (w : Dword) : Bool :=
  match (majOf w).toNat with
  | 0x07 | 0x09 | 0x0B | 0x0C | 0x0D | 0x0E | 0x0F =>
    w.extractLsb' 16 3 == 0 && (w.extractLsb' 19 3 != 4#3 || w.extractLsb' 10 2 == 0)
  | 0x1B | 0x1C | 0x1D | 0x1E => w.extractLsb' 0 5 == 0
  | _ => true

/-- Major 0x00. -/
def major00 (fn : Nat) (f : RWord) : Option Instr :=
  match fn with
  | 0x00 => some (.nop f)
  | 0x01 => some (.capq f)
  | 0x02 => some (.trap f)
  | 0x03 => some (.rte f)
  | _ => none

/-- Major 0x01. -/
def major01 (fn : Nat) (f : IWord) : Option Instr :=
  match fn with
  | 0x00 => some (.br f)
  | 0x01 => some (.bz f)
  | 0x02 => some (.bnz f)
  | 0x03 => some (.bk f)
  | 0x04 => some (.bnk f)
  | 0x05 => some (.call f)
  | 0x06 => some (.ret f)
  | 0x07 => some (.mark f)
  | 0x08 => some (.join f)
  | 0x09 => some (.exit f)
  | _ => none

/-- Major 0x02. -/
def major02 (fn : Nat) (f : RWord) : Option Instr :=
  match fn with
  | 0x00 => some (.addB64 f)
  | 0x01 => some (.subB64 f)
  | 0x02 => some (.mulB64 f)
  | 0x03 => some (.mulhiI64 f)
  | 0x04 => some (.mulhiN64 f)
  | 0x05 => some (.andB64 f)
  | 0x06 => some (.orB64 f)
  | 0x07 => some (.xorB64 f)
  | 0x08 => some (.andnB64 f)
  | 0x09 => some (.shlB64 f)
  | 0x0A => some (.shrN64 f)
  | 0x0B => some (.shrI64 f)
  | 0x0C => some (.minI64 f)
  | 0x0D => some (.maxI64 f)
  | 0x0E => some (.minN64 f)
  | 0x0F => some (.maxN64 f)
  | 0x10 => some (.maddB64 f)
  | 0x11 => some (.addoI64 f)
  | 0x12 => some (.addoN64 f)
  | 0x13 => some (.suboI64 f)
  | 0x14 => some (.suboN64 f)
  | 0x15 => some (.muloI64 f)
  | 0x16 => some (.muloN64 f)
  | _ => none

/-- Major 0x03. -/
def major03 (fn : Nat) (f : IWord) : Option Instr :=
  match fn with
  | 0x00 => some (.addiB64 f)
  | 0x01 => some (.andiB64 f)
  | 0x02 => some (.oriB64 f)
  | 0x03 => some (.xoriB64 f)
  | 0x04 => some (.inshB64 f)
  | 0x05 => some (.moviB64 f)
  | _ => none

/-- Major 0x04. -/
def major04 (fn : Nat) (f : RWord) : Option Instr :=
  match fn with
  | 0x00 => some (.cmpEqB64 f)
  | 0x01 => some (.cmpNeB64 f)
  | 0x02 => some (.cmpLtI64 f)
  | 0x03 => some (.cmpLeI64 f)
  | 0x04 => some (.cmpLtN64 f)
  | 0x05 => some (.cmpLeN64 f)
  | 0x06 => some (.selB64 f)
  | 0x07 => some (.popcB64 f)
  | 0x08 => some (.clzB64 f)
  | 0x09 => some (.ctzB64 f)
  | 0x0A => some (.brevB64 f)
  | 0x0B => some (.bextB64 f)
  | 0x0C => some (.binsB64 f)
  | _ => none

/-- Major 0x05. -/
def major05 (fn : Nat) (f : RWord) : Option Instr :=
  match fn with
  | 0x00 => some (.rdfr f)
  | 0x01 => some (.wrsr f)
  | _ => none

/-- Major 0x06. -/
def major06 (fn : Nat) (f : IWord) : Option Instr :=
  match fn with
  | 0x00 => some (.se f)
  | 0x01 => some (.migr f)
  | _ => none

/-- Major 0x07. -/
def major07 (fn : Nat) (f : MRWord) : Option Instr :=
  match fn with
  | 0x00 => some (.addI32 f)
  | 0x01 => some (.subI32 f)
  | 0x02 => some (.addN32 f)
  | 0x03 => some (.subN32 f)
  | 0x04 => some (.andB32 f)
  | 0x05 => some (.orB32 f)
  | 0x06 => some (.xorB32 f)
  | 0x07 => some (.andnB32 f)
  | 0x08 => some (.shlB32 f)
  | 0x09 => some (.shrN32 f)
  | 0x0A => some (.shrI32 f)
  | 0x0B => some (.minI32 f)
  | 0x0C => some (.maxI32 f)
  | 0x0D => some (.minN32 f)
  | 0x0E => some (.maxN32 f)
  | 0x0F => some (.mulB32 f)
  | 0x10 => some (.mulhiI32 f)
  | 0x11 => some (.mulhiN32 f)
  | 0x12 => some (.drcpN32 f)
  | 0x13 => some (.dcorN32 f)
  | 0x14 => some (.addI16 f)
  | 0x15 => some (.subI16 f)
  | 0x16 => some (.minI16 f)
  | 0x17 => some (.maxI16 f)
  | 0x18 => some (.addI8 f)
  | 0x19 => some (.subI8 f)
  | 0x1A => some (.minN8 f)
  | 0x1B => some (.maxN8 f)
  | 0x1C => some (.absI32 f)
  | 0x1D => some (.popcB32 f)
  | 0x1E => some (.clzB32 f)
  | 0x1F => some (.brevB32 f)
  | _ => none

/-- Major 0x08. -/
def major08 (fn : Nat) (f : IWord) : Option Instr :=
  match fn with
  | 0x00 => some (.addiI32 f)
  | 0x01 => some (.andiB32 f)
  | 0x02 => some (.oriB32 f)
  | 0x03 => some (.xoriB32 f)
  | 0x04 => some (.shliB32 f)
  | 0x05 => some (.shriN32 f)
  | 0x06 => some (.shriI32 f)
  | 0x07 => some (.moviB32 f)
  | _ => none

/-- Major 0x09. -/
def major09 (fn : Nat) (f : MRWord) : Option Instr :=
  match fn with
  | 0x00 => some (.addF32 f)
  | 0x01 => some (.subF32 f)
  | 0x02 => some (.mulF32 f)
  | 0x03 => some (.minF32 f)
  | 0x04 => some (.maxF32 f)
  | 0x05 => some (.addF16 f)
  | 0x06 => some (.subF16 f)
  | 0x07 => some (.mulF16 f)
  | 0x08 => some (.minF16 f)
  | 0x09 => some (.maxF16 f)
  | 0x0A => some (.addBf16 f)
  | 0x0B => some (.subBf16 f)
  | 0x0C => some (.mulBf16 f)
  | 0x0D => some (.minBf16 f)
  | 0x0E => some (.maxBf16 f)
  | 0x0F => some (.absF32 f)
  | 0x10 => some (.negF32 f)
  | 0x11 => some (.absF16 f)
  | 0x12 => some (.negF16 f)
  | 0x13 => some (.absBf16 f)
  | 0x14 => some (.negBf16 f)
  | _ => none

/-- Major 0x0A. -/
def major0A (fn : Nat) (f : FmaWord) : Option Instr :=
  match fn with
  | 0x00 => some (.fmaF32 f)
  | 0x01 => some (.fmsF32 f)
  | 0x02 => some (.fnmaF32 f)
  | 0x03 => some (.fnmsF32 f)
  | 0x04 => some (.fmaF16 f)
  | 0x05 => some (.fmaBf16 f)
  | _ => none

/-- Major 0x0B. -/
def major0B (fn : Nat) (f : MRWord) : Option Instr :=
  match fn with
  | 0x00 => some (.cmpEqI32 f)
  | 0x01 => some (.cmpNeI32 f)
  | 0x02 => some (.cmpLtI32 f)
  | 0x03 => some (.cmpLeI32 f)
  | 0x04 => some (.cmpLtN32 f)
  | 0x05 => some (.cmpLeN32 f)
  | 0x06 => some (.cmpEqF32 f)
  | 0x07 => some (.cmpNeF32 f)
  | 0x08 => some (.cmpLtF32 f)
  | 0x09 => some (.cmpLeF32 f)
  | 0x0A => some (.cmpUnF32 f)
  | 0x10 => some (.kand f)
  | 0x11 => some (.kor f)
  | 0x12 => some (.kxor f)
  | 0x13 => some (.kandn f)
  | 0x14 => some (.knot f)
  | 0x15 => some (.kfirst f)
  | _ => none

/-- Major 0x0C. -/
def major0C (fn : Nat) (f : MRWord) : Option Instr :=
  match fn with
  | 0x00 => some (.compressB32 f)
  | 0x01 => some (.expandB32 f)
  | 0x02 => some (.slideupB32 f)
  | 0x03 => some (.slidednB32 f)
  | 0x04 => some (.matchB32 f)
  | _ => none

/-- Major 0x0D. -/
noncomputable def major0D (fn : Nat) (f : MRWord) : Option Instr :=
  match fn with
  | 0x00 => some (.redAddI32 f)
  | 0x01 => some (.redAddF32 f)
  | 0x02 => some (.redMinI32 f)
  | 0x03 => some (.redMaxI32 f)
  | 0x04 => some (.redMinN32 f)
  | 0x05 => some (.redMaxN32 f)
  | 0x06 => some (.redMinF32 f)
  | 0x07 => some (.redMaxF32 f)
  | 0x08 => some (.redAndB32 f)
  | 0x09 => some (.redOrB32 f)
  | 0x0A => some (.redXorB32 f)
  | 0x0B => some (.scanAddI32 f)
  | 0x0C => some (.scanAddF32 f)
  | 0x0D => some (.scanMaxI32 f)
  | 0x0E => some (.scanMaxF32 f)
  | _ => none

/-- Major 0x0E. -/
noncomputable def major0E (fn : Nat) (f : MRWord) : Option Instr :=
  match fn with
  | 0x00 => some (.cvtF16F32 ⟨0, f⟩)
  | 0x01 => some (.cvtF16F32 ⟨1, f⟩)
  | 0x02 => some (.cvtBf16F32 ⟨0, f⟩)
  | 0x03 => some (.cvtBf16F32 ⟨1, f⟩)
  | 0x04 => some (.cvtF8e4F32 ⟨0, f⟩)
  | 0x05 => some (.cvtF8e4F32 ⟨1, f⟩)
  | 0x06 => some (.cvtF8e4F32 ⟨2, f⟩)
  | 0x07 => some (.cvtF8e4F32 ⟨3, f⟩)
  | 0x08 => some (.cvtF8e5F32 ⟨0, f⟩)
  | 0x09 => some (.cvtF8e5F32 ⟨1, f⟩)
  | 0x0A => some (.cvtF8e5F32 ⟨2, f⟩)
  | 0x0B => some (.cvtF8e5F32 ⟨3, f⟩)
  | 0x0C => some (.cvtF32F16 ⟨0, f⟩)
  | 0x0D => some (.cvtF32F16 ⟨1, f⟩)
  | 0x0E => some (.cvtF32Bf16 ⟨0, f⟩)
  | 0x0F => some (.cvtF32Bf16 ⟨1, f⟩)
  | 0x10 => some (.cvtF32F8e4 ⟨0, f⟩)
  | 0x11 => some (.cvtF32F8e4 ⟨1, f⟩)
  | 0x12 => some (.cvtF32F8e4 ⟨2, f⟩)
  | 0x13 => some (.cvtF32F8e4 ⟨3, f⟩)
  | 0x14 => some (.cvtF32F8e5 ⟨0, f⟩)
  | 0x15 => some (.cvtF32F8e5 ⟨1, f⟩)
  | 0x16 => some (.cvtF32F8e5 ⟨2, f⟩)
  | 0x17 => some (.cvtF32F8e5 ⟨3, f⟩)
  | 0x18 => some (.cvtF32I32 f)
  | 0x19 => some (.cvtF32N32 f)
  | 0x1A => some (.cvtI32F32 f)
  | 0x1B => some (.cvtN32F32 f)
  | 0x1C => some (.packI16I32 f)
  | 0x1D => some (.packI8I16 f)
  | 0x1E => some (.cvtHq4F32 f)
  | _ => none

/-- Major 0x0F. -/
noncomputable def major0F (fn : Nat) (f : MRWord) : Option Instr :=
  match fn with
  | 0x00 => some (.rcpF32 f)
  | 0x01 => some (.rsqrtF32 f)
  | 0x02 => some (.sqrtF32 f)
  | 0x03 => some (.exp2F32 f)
  | 0x04 => some (.log2F32 f)
  | 0x05 => some (.sinpiF32 f)
  | 0x06 => some (.cospiF32 f)
  | 0x07 => some (.tanhF32 f)
  | 0x08 => some (.divF32 f)
  | _ => none

/-- Major 0x1B. -/
noncomputable def major1B (fn : Nat) (f : AWord) : Option Instr :=
  match fn with
  | 0x00 => some (.atsAdd f)
  | 0x01 => some (.atsAnd f)
  | 0x02 => some (.atsOr f)
  | 0x03 => some (.atsXor f)
  | 0x04 => some (.atsSmin f)
  | 0x05 => some (.atsSmax f)
  | 0x06 => some (.atsUmin f)
  | 0x07 => some (.atsUmax f)
  | 0x08 => some (.atsExch f)
  | 0x09 => some (.atsCas f)
  | 0x0A => some (.atsFadd f)
  | _ => none

/-- Major 0x1C. -/
noncomputable def major1C (fn : Nat) (f : AWord) : Option Instr :=
  match fn with
  | 0x00 => some (.atcAdd f)
  | 0x01 => some (.atcAnd f)
  | 0x02 => some (.atcOr f)
  | 0x03 => some (.atcXor f)
  | 0x04 => some (.atcSmin f)
  | 0x05 => some (.atcSmax f)
  | 0x06 => some (.atcUmin f)
  | 0x07 => some (.atcUmax f)
  | 0x08 => some (.atcExch f)
  | 0x09 => some (.atcCas f)
  | 0x0A => some (.atcFadd f)
  | _ => none

/-- Major 0x1D. -/
noncomputable def major1D (fn : Nat) (f : AWord) : Option Instr :=
  match fn with
  | 0x00 => some (.atdAdd f)
  | 0x01 => some (.atdAnd f)
  | 0x02 => some (.atdOr f)
  | 0x03 => some (.atdXor f)
  | 0x04 => some (.atdSmin f)
  | 0x05 => some (.atdSmax f)
  | 0x06 => some (.atdUmin f)
  | 0x07 => some (.atdUmax f)
  | 0x08 => some (.atdExch f)
  | 0x09 => some (.atdCas f)
  | 0x0A => some (.atdFadd f)
  | _ => none

/-- Major 0x1E. -/
noncomputable def major1E (fn : Nat) (f : AWord) : Option Instr :=
  match fn with
  | 0x00 => some (.atrPAdd f)
  | 0x01 => some (.atrPAnd f)
  | 0x02 => some (.atrPOr f)
  | 0x03 => some (.atrPXor f)
  | 0x04 => some (.atrPSmin f)
  | 0x05 => some (.atrPSmax f)
  | 0x06 => some (.atrPUmin f)
  | 0x07 => some (.atrPUmax f)
  | 0x08 => some (.atrPExch f)
  | 0x09 => some (.atrPCas f)
  | 0x0A => some (.atrPFadd f)
  | 0x10 => some (.atrHAdd f)
  | 0x11 => some (.atrHAnd f)
  | 0x12 => some (.atrHOr f)
  | 0x13 => some (.atrHXor f)
  | 0x14 => some (.atrHSmin f)
  | 0x15 => some (.atrHSmax f)
  | 0x16 => some (.atrHUmin f)
  | 0x17 => some (.atrHUmax f)
  | 0x18 => some (.atrHExch f)
  | 0x19 => some (.atrHCas f)
  | 0x1A => some (.atrHFadd f)
  | _ => none

/-- Major 0x20. -/
noncomputable def major20 (fn : Nat) (f : RWord) : Option Instr :=
  match fn with
  | 0x00 => some (.barArr f)
  | 0x01 => some (.barHold f)
  | 0x02 => some (.wait f)
  | 0x03 => some (.pass f)
  | _ => none

/-- Major 0x21. -/
noncomputable def major21 (fn : Nat) (f : RWord) : Option Instr :=
  match fn with
  | 0x00 => some (.cpost f)
  | 0x01 => some (.cdrain f)
  | _ => none

/-- Major 0x23. -/
noncomputable def major23 (fn : Nat) (f : RWord) : Option Instr :=
  match fn with
  | 0x00 => some (.mma f)
  | 0x01 => some (.mmaZ f)
  | _ => none

/-- Major 0x24. -/
noncomputable def major24 (fn : Nat) (f : RWord) : Option Instr :=
  match fn with
  | 0x00 => some (.mzero f)
  | 0x01 => some (.mdrain f)
  | 0x02 => some (.mdrainp f)
  | 0x03 => some (.marm f)
  | 0x04 => some (.mstat f)
  | _ => none

/-- Major 0x25. -/
noncomputable def major25 (fn : Nat) (f : RWord) : Option Instr :=
  match fn with
  | 0x00 => some (.spawn f)
  | 0x01 => some (.spawnOpen f)
  | 0x02 => some (.arm f)
  | 0x03 => some (.cancel f)
  | 0x04 => some (.step f)
  | 0x05 => some (.retire f)
  | _ => none

/-- Major 0x26. -/
noncomputable def major26 (fn : Nat) (f : RWord) : Option Instr :=
  match fn with
  | 0x00 => some (.ctab f)
  | 0x01 => some (.msave f)
  | 0x02 => some (.mrest f)
  | _ => none

/-- Majors 0x10 to 0x1A (R258). -/
noncomputable def majorMem (maj : Nat) (f : MWord) : Option Instr :=
  match maj with
  | 0x10 => some (.lds f)
  | 0x11 => some (.sts f)
  | 0x12 => some (.ldc f)
  | 0x13 => some (.stc f)
  | 0x14 => some (.ldd f)
  | 0x15 => some (.std f)
  | 0x16 => some (.ldp f)
  | 0x17 => some (.stp f)
  | 0x18 => some (.ldh f)
  | 0x19 => some (.sth f)
  | 0x1A => some (.ldk f)
  | _ => none

/-- Major 0x22 (R301). -/
noncomputable def major22 (fn : Nat) (f : MWord) : Option Instr :=
  match fn with
  | 0 => some (.mlda f)
  | 1 => some (.mldaT f)
  | 2 => some (.mldb f)
  | _ => none

/-- Major 0x1F (R223, R272): each unnamed field is zero, then ORD, SCOPE and the paths are judged. -/
noncomputable def major1F (fn : Nat) (w : Dword) : Decoded :=
  let sc := Scope.ofBits (w.extractLsb' 7 3)
  match fn with
  | 0 =>
    if w.extractLsb' 12 40 != 0 || w.extractLsb' 0 7 != 0 then .err .reservedField
    else match Order.ofBits (w.extractLsb' 10 2) with
      | .plain => .err .illegalOrder
      | .acq => .instr (.fenceAcq ⟨wOf w, sc⟩)
      | .rel => .instr (.fenceRel ⟨wOf w, sc⟩)
      | .ar => .instr (.fenceAr ⟨wOf w, sc⟩)
  | 1 =>
    if w.extractLsb' 12 40 != 0 || w.extractLsb' 0 7 != 0 then .err .reservedField
    else if w.extractLsb' 10 2 != 3#2 then .err .illegalOrder
    else .instr (.fenceTot ⟨wOf w, sc⟩)
  | 2 =>
    if w.extractLsb' 22 30 != 0 || w.extractLsb' 0 16 != 0 then .err .reservedField
    else match Path.ofBits (w.extractLsb' 19 3), Path.ofBits (w.extractLsb' 16 3) with
      | some a, some b => .instr (.xfence ⟨wOf w, a, b⟩)
      | _, _ => .err .illegalPath
  | 3 => if w.extractLsb' 0 52 != 0 then .err .reservedField else .instr (.fenceI (wOf w))
  | _ => .err .unassignedFn

/-- A pair word (R214, R227). -/
def pairOf (w : Dword) : Decoded :=
  match ShortOp.ofBits (w.extractLsb' 30 30), ShortOp.ofBits (w.extractLsb' 0 30) with
  | some a, some b => .instr (.pairWord ⟨w.getLsbD 60, a, b⟩)
  | _, _ => .err .unassignedFn

/-- An assigned function, or code 0x09. -/
def assigned : Option Instr → Decoded
  | some i => .instr i
  | none => .err .unassignedFn

/-- The row that MAJ and FN select (R225), before its fields are judged. -/
noncomputable def rowOf (w : Dword) : Decoded :=
  let fn := (fnOf w).toNat
  match (majOf w).toNat with
  | 0x00 => assigned (major00 fn (.ofBits w))
  | 0x01 => assigned (major01 fn (.ofBits w))
  | 0x02 => assigned (major02 fn (.ofBits w))
  | 0x03 => assigned (major03 fn (.ofBits w))
  | 0x04 => assigned (major04 fn (.ofBits w))
  | 0x05 => assigned (major05 fn (.ofBits w))
  | 0x06 => assigned (major06 fn (.ofBits w))
  | 0x07 => assigned (major07 fn (.ofBits w))
  | 0x08 => assigned (major08 fn (.ofBits w))
  | 0x09 => assigned (major09 fn (.ofBits w))
  | 0x0A => assigned (major0A (w.extractLsb' 52 3).toNat (.ofBits w))
  | 0x0B => assigned (major0B fn (.ofBits w))
  | 0x0C => assigned (major0C fn (.ofBits w))
  | 0x0D => assigned (major0D fn (.ofBits w))
  | 0x0E => assigned (major0E fn (.ofBits w))
  | 0x0F => assigned (major0F fn (.ofBits w))
  | 0x1B => assigned (major1B fn (.ofBits w))
  | 0x1C => assigned (major1C fn (.ofBits w))
  | 0x1D => assigned (major1D fn (.ofBits w))
  | 0x1E => assigned (major1E fn (.ofBits w))
  | 0x20 => assigned (major20 fn (.ofBits w))
  | 0x21 => assigned (major21 fn (.ofBits w))
  | 0x23 => assigned (major23 fn (.ofBits w))
  | 0x24 => assigned (major24 fn (.ofBits w))
  | 0x25 => assigned (major25 fn (.ofBits w))
  | 0x26 => assigned (major26 fn (.ofBits w))
  | 0x1F => major1F fn w
  | 0x22 => assigned (major22 (w.extractLsb' 54 3).toNat (.ofLoadBits w))
  | n =>
    if 0x10 ≤ n ∧ n ≤ 0x1A then assigned (majorMem n (.ofBits w))
    else if 0x38 ≤ n then pairOf w
    else .err .reservedMajor

/-- Decoding: the instruction of a word, or the lowest decode code that applies (R181, R228). -/
noncomputable def decode (w : Dword) : Decoded :=
  match rowOf w with
  | .err e => .err e
  | .instr i =>
    if !rawZero w then .err .reservedField
    else match i.decodeErr with
      | some e => .err e
      | none => .instr i

/-- A word from its eight bytes, the first at the lowest address (00 R2, R213). -/
def wordOfBytes (b : List Byte) : Dword := b.foldr (fun x a => (a <<< 8) ||| x.setWidth 64) 0

/-- The bytes of a word, the lowest first (00 R2, R213). -/
def bytesOfWord (w : Dword) (n : Nat) : List Byte := (List.range n).map fun i => (w >>> (8 * i)).setWidth 8

/-- The host's view of the decoder. A word is eight little-endian bytes and every row is one word (R213), so the numbering of the table's bits is
the word's own. -/
noncomputable def decodeTableWord (nbits w : Nat) : Option Instr :=
  match decode (wordOfBytes (bytesOfWord (BitVec.ofNat 64 (w % 2 ^ nbits)) 8)) with
  | .instr i => some i
  | .err _ => none

/-! ## Encoding (R214 to R227) -/

/-- The R-format. -/
def RWord.encode (maj : BitVec 6) (fn : BitVec 5) (f : RWord) : Dword :=
  maj ++ BitVec.ofBool f.w ++ fn ++ f.d.bits ++ f.a.bits ++ f.b.bits ++ f.c.bits ++ f.mod

/-- The I-format. -/
def IWord.encode (maj : BitVec 6) (fn : BitVec 5) (f : IWord) : Dword :=
  maj ++ BitVec.ofBool f.w ++ fn ++ f.d.bits ++ f.a.bits ++ f.imm

/-- B and MOD of an MR word, and RND. -/
def VTail.bits : VTail → BitVec 10 × BitVec 3 × BitVec 12
  | .src r b m => (b.bits, r.bits, m.bits)
  | .ef r d => (r.bits, 4, 0#2 ++ d.bits)

/-- The MR form (R222). -/
def MRWord.encode (maj : BitVec 6) (fn : BitVec 5) (f : MRWord) : Dword :=
  maj ++ BitVec.ofBool f.w ++ fn ++ f.d.bits ++ f.a.bits ++ f.tail.bits.1 ++ f.tail.bits.2.1 ++ 0#3 ++ BitVec.ofBool f.sat ++ f.mask ++ f.tail.bits.2.2

/-- Major 0x0A (R283). -/
def FmaWord.encode (op : BitVec 3) (f : FmaWord) : Dword :=
  0x0A#6 ++ BitVec.ofBool f.w ++ f.rnd ++ op ++ f.d.bits ++ f.a.bits ++ f.b.bits ++ f.c.bits ++ f.mod.bits

/-- The M-format, with bits [56:54] given: SCOPE, or FN of a matrix load. -/
def MWord.encode (maj : BitVec 6) (hi : BitVec 3) (f : MWord) : Dword :=
  maj ++ BitVec.ofBool f.w ++ hi ++ f.size.bits ++ f.d.bits ++ f.base.bits ++ f.idx.bits ++ f.scale ++ f.ord.bits ++ f.off

/-- An atomic (R223, R267). -/
def AWord.encode (maj : BitVec 6) (fn : BitVec 5) (f : AWord) : Dword :=
  maj ++ BitVec.ofBool f.w ++ fn ++ f.d.bits ++ f.a.bits ++ f.b.bits ++ f.c.bits ++ f.ord.bits ++ f.scope.bits ++ f.asz ++ 0#5

/-- A fence with its order (R272). -/
def FenceWord.encode (fn : BitVec 5) (o : BitVec 2) (f : FenceWord) : Dword :=
  0x1F#6 ++ BitVec.ofBool f.w ++ fn ++ 0#40 ++ o ++ f.scope.bits ++ 0#7

/-- xfence (R272). -/
def XfenceWord.encode (f : XfenceWord) : Dword :=
  0x1F#6 ++ BitVec.ofBool f.w ++ 2#5 ++ 0#30 ++ f.a.bits ++ f.b.bits ++ 0#16

/-- A short operation (R214). -/
def ShortOp.bits (f : ShortOp) : BitVec 30 := f.op.bits ++ f.d.bits ++ f.a.bits ++ f.b.bits

/-- A pair word (R214). -/
def PairWord.encode (f : PairWord) : Dword := 7#3 ++ BitVec.ofBool f.w ++ f.op1.bits ++ f.op2.bits

/-- The word of an instruction. An event has none: the answer is then the word of nop. -/
def encode : Instr → Dword
  | .pairWord f => f.encode
  | .nop f => f.encode 0x00 0x00
  | .capq f => f.encode 0x00 0x01
  | .trap f => f.encode 0x00 0x02
  | .rte f => f.encode 0x00 0x03
  | .br f => f.encode 0x01 0x00
  | .bz f => f.encode 0x01 0x01
  | .bnz f => f.encode 0x01 0x02
  | .bk f => f.encode 0x01 0x03
  | .bnk f => f.encode 0x01 0x04
  | .call f => f.encode 0x01 0x05
  | .ret f => f.encode 0x01 0x06
  | .mark f => f.encode 0x01 0x07
  | .join f => f.encode 0x01 0x08
  | .exit f => f.encode 0x01 0x09
  | .addB64 f => f.encode 0x02 0x00
  | .subB64 f => f.encode 0x02 0x01
  | .mulB64 f => f.encode 0x02 0x02
  | .mulhiI64 f => f.encode 0x02 0x03
  | .mulhiN64 f => f.encode 0x02 0x04
  | .andB64 f => f.encode 0x02 0x05
  | .orB64 f => f.encode 0x02 0x06
  | .xorB64 f => f.encode 0x02 0x07
  | .andnB64 f => f.encode 0x02 0x08
  | .shlB64 f => f.encode 0x02 0x09
  | .shrN64 f => f.encode 0x02 0x0A
  | .shrI64 f => f.encode 0x02 0x0B
  | .minI64 f => f.encode 0x02 0x0C
  | .maxI64 f => f.encode 0x02 0x0D
  | .minN64 f => f.encode 0x02 0x0E
  | .maxN64 f => f.encode 0x02 0x0F
  | .maddB64 f => f.encode 0x02 0x10
  | .addoI64 f => f.encode 0x02 0x11
  | .addoN64 f => f.encode 0x02 0x12
  | .suboI64 f => f.encode 0x02 0x13
  | .suboN64 f => f.encode 0x02 0x14
  | .muloI64 f => f.encode 0x02 0x15
  | .muloN64 f => f.encode 0x02 0x16
  | .addiB64 f => f.encode 0x03 0x00
  | .andiB64 f => f.encode 0x03 0x01
  | .oriB64 f => f.encode 0x03 0x02
  | .xoriB64 f => f.encode 0x03 0x03
  | .inshB64 f => f.encode 0x03 0x04
  | .moviB64 f => f.encode 0x03 0x05
  | .cmpEqB64 f => f.encode 0x04 0x00
  | .cmpNeB64 f => f.encode 0x04 0x01
  | .cmpLtI64 f => f.encode 0x04 0x02
  | .cmpLeI64 f => f.encode 0x04 0x03
  | .cmpLtN64 f => f.encode 0x04 0x04
  | .cmpLeN64 f => f.encode 0x04 0x05
  | .selB64 f => f.encode 0x04 0x06
  | .popcB64 f => f.encode 0x04 0x07
  | .clzB64 f => f.encode 0x04 0x08
  | .ctzB64 f => f.encode 0x04 0x09
  | .brevB64 f => f.encode 0x04 0x0A
  | .bextB64 f => f.encode 0x04 0x0B
  | .binsB64 f => f.encode 0x04 0x0C
  | .rdfr f => f.encode 0x05 0x00
  | .wrsr f => f.encode 0x05 0x01
  | .se f => f.encode 0x06 0x00
  | .migr f => f.encode 0x06 0x01
  | .addI32 f => f.encode 0x07 0x00
  | .subI32 f => f.encode 0x07 0x01
  | .addN32 f => f.encode 0x07 0x02
  | .subN32 f => f.encode 0x07 0x03
  | .andB32 f => f.encode 0x07 0x04
  | .orB32 f => f.encode 0x07 0x05
  | .xorB32 f => f.encode 0x07 0x06
  | .andnB32 f => f.encode 0x07 0x07
  | .shlB32 f => f.encode 0x07 0x08
  | .shrN32 f => f.encode 0x07 0x09
  | .shrI32 f => f.encode 0x07 0x0A
  | .minI32 f => f.encode 0x07 0x0B
  | .maxI32 f => f.encode 0x07 0x0C
  | .minN32 f => f.encode 0x07 0x0D
  | .maxN32 f => f.encode 0x07 0x0E
  | .mulB32 f => f.encode 0x07 0x0F
  | .mulhiI32 f => f.encode 0x07 0x10
  | .mulhiN32 f => f.encode 0x07 0x11
  | .drcpN32 f => f.encode 0x07 0x12
  | .dcorN32 f => f.encode 0x07 0x13
  | .addI16 f => f.encode 0x07 0x14
  | .subI16 f => f.encode 0x07 0x15
  | .minI16 f => f.encode 0x07 0x16
  | .maxI16 f => f.encode 0x07 0x17
  | .addI8 f => f.encode 0x07 0x18
  | .subI8 f => f.encode 0x07 0x19
  | .minN8 f => f.encode 0x07 0x1A
  | .maxN8 f => f.encode 0x07 0x1B
  | .absI32 f => f.encode 0x07 0x1C
  | .popcB32 f => f.encode 0x07 0x1D
  | .clzB32 f => f.encode 0x07 0x1E
  | .brevB32 f => f.encode 0x07 0x1F
  | .addiI32 f => f.encode 0x08 0x00
  | .andiB32 f => f.encode 0x08 0x01
  | .oriB32 f => f.encode 0x08 0x02
  | .xoriB32 f => f.encode 0x08 0x03
  | .shliB32 f => f.encode 0x08 0x04
  | .shriN32 f => f.encode 0x08 0x05
  | .shriI32 f => f.encode 0x08 0x06
  | .moviB32 f => f.encode 0x08 0x07
  | .addF32 f => f.encode 0x09 0x00
  | .subF32 f => f.encode 0x09 0x01
  | .mulF32 f => f.encode 0x09 0x02
  | .minF32 f => f.encode 0x09 0x03
  | .maxF32 f => f.encode 0x09 0x04
  | .addF16 f => f.encode 0x09 0x05
  | .subF16 f => f.encode 0x09 0x06
  | .mulF16 f => f.encode 0x09 0x07
  | .minF16 f => f.encode 0x09 0x08
  | .maxF16 f => f.encode 0x09 0x09
  | .addBf16 f => f.encode 0x09 0x0A
  | .subBf16 f => f.encode 0x09 0x0B
  | .mulBf16 f => f.encode 0x09 0x0C
  | .minBf16 f => f.encode 0x09 0x0D
  | .maxBf16 f => f.encode 0x09 0x0E
  | .absF32 f => f.encode 0x09 0x0F
  | .negF32 f => f.encode 0x09 0x10
  | .absF16 f => f.encode 0x09 0x11
  | .negF16 f => f.encode 0x09 0x12
  | .absBf16 f => f.encode 0x09 0x13
  | .negBf16 f => f.encode 0x09 0x14
  | .fmaF32 f => f.encode 0
  | .fmsF32 f => f.encode 1
  | .fnmaF32 f => f.encode 2
  | .fnmsF32 f => f.encode 3
  | .fmaF16 f => f.encode 4
  | .fmaBf16 f => f.encode 5
  | .cmpEqI32 f => f.encode 0x0B 0x00
  | .cmpNeI32 f => f.encode 0x0B 0x01
  | .cmpLtI32 f => f.encode 0x0B 0x02
  | .cmpLeI32 f => f.encode 0x0B 0x03
  | .cmpLtN32 f => f.encode 0x0B 0x04
  | .cmpLeN32 f => f.encode 0x0B 0x05
  | .cmpEqF32 f => f.encode 0x0B 0x06
  | .cmpNeF32 f => f.encode 0x0B 0x07
  | .cmpLtF32 f => f.encode 0x0B 0x08
  | .cmpLeF32 f => f.encode 0x0B 0x09
  | .cmpUnF32 f => f.encode 0x0B 0x0A
  | .kand f => f.encode 0x0B 0x10
  | .kor f => f.encode 0x0B 0x11
  | .kxor f => f.encode 0x0B 0x12
  | .kandn f => f.encode 0x0B 0x13
  | .knot f => f.encode 0x0B 0x14
  | .kfirst f => f.encode 0x0B 0x15
  | .compressB32 f => f.encode 0x0C 0x00
  | .expandB32 f => f.encode 0x0C 0x01
  | .slideupB32 f => f.encode 0x0C 0x02
  | .slidednB32 f => f.encode 0x0C 0x03
  | .matchB32 f => f.encode 0x0C 0x04
  | .redAddI32 f => f.encode 0x0D 0x00
  | .redAddF32 f => f.encode 0x0D 0x01
  | .redMinI32 f => f.encode 0x0D 0x02
  | .redMaxI32 f => f.encode 0x0D 0x03
  | .redMinN32 f => f.encode 0x0D 0x04
  | .redMaxN32 f => f.encode 0x0D 0x05
  | .redMinF32 f => f.encode 0x0D 0x06
  | .redMaxF32 f => f.encode 0x0D 0x07
  | .redAndB32 f => f.encode 0x0D 0x08
  | .redOrB32 f => f.encode 0x0D 0x09
  | .redXorB32 f => f.encode 0x0D 0x0A
  | .scanAddI32 f => f.encode 0x0D 0x0B
  | .scanAddF32 f => f.encode 0x0D 0x0C
  | .scanMaxI32 f => f.encode 0x0D 0x0D
  | .scanMaxF32 f => f.encode 0x0D 0x0E
  | .cvtF16F32 f => f.v.encode 0x0E (0x00#5 + f.p.setWidth 5)
  | .cvtBf16F32 f => f.v.encode 0x0E (0x02#5 + f.p.setWidth 5)
  | .cvtF8e4F32 f => f.v.encode 0x0E (0x04#5 + f.p.setWidth 5)
  | .cvtF8e5F32 f => f.v.encode 0x0E (0x08#5 + f.p.setWidth 5)
  | .cvtF32F16 f => f.v.encode 0x0E (0x0C#5 + f.p.setWidth 5)
  | .cvtF32Bf16 f => f.v.encode 0x0E (0x0E#5 + f.p.setWidth 5)
  | .cvtF32F8e4 f => f.v.encode 0x0E (0x10#5 + f.p.setWidth 5)
  | .cvtF32F8e5 f => f.v.encode 0x0E (0x14#5 + f.p.setWidth 5)
  | .cvtF32I32 f => f.encode 0x0E 0x18
  | .cvtF32N32 f => f.encode 0x0E 0x19
  | .cvtI32F32 f => f.encode 0x0E 0x1A
  | .cvtN32F32 f => f.encode 0x0E 0x1B
  | .packI16I32 f => f.encode 0x0E 0x1C
  | .packI8I16 f => f.encode 0x0E 0x1D
  | .cvtHq4F32 f => f.encode 0x0E 0x1E
  | .rcpF32 f => f.encode 0x0F 0x00
  | .rsqrtF32 f => f.encode 0x0F 0x01
  | .sqrtF32 f => f.encode 0x0F 0x02
  | .exp2F32 f => f.encode 0x0F 0x03
  | .log2F32 f => f.encode 0x0F 0x04
  | .sinpiF32 f => f.encode 0x0F 0x05
  | .cospiF32 f => f.encode 0x0F 0x06
  | .tanhF32 f => f.encode 0x0F 0x07
  | .divF32 f => f.encode 0x0F 0x08
  | .lds f => f.encode 0x10 f.scope.bits
  | .sts f => f.encode 0x11 f.scope.bits
  | .ldc f => f.encode 0x12 f.scope.bits
  | .stc f => f.encode 0x13 f.scope.bits
  | .ldd f => f.encode 0x14 f.scope.bits
  | .std f => f.encode 0x15 f.scope.bits
  | .ldp f => f.encode 0x16 f.scope.bits
  | .stp f => f.encode 0x17 f.scope.bits
  | .ldh f => f.encode 0x18 f.scope.bits
  | .sth f => f.encode 0x19 f.scope.bits
  | .ldk f => f.encode 0x1A f.scope.bits
  | .atsAdd f => f.encode 0x1B 0x00
  | .atsAnd f => f.encode 0x1B 0x01
  | .atsOr f => f.encode 0x1B 0x02
  | .atsXor f => f.encode 0x1B 0x03
  | .atsSmin f => f.encode 0x1B 0x04
  | .atsSmax f => f.encode 0x1B 0x05
  | .atsUmin f => f.encode 0x1B 0x06
  | .atsUmax f => f.encode 0x1B 0x07
  | .atsExch f => f.encode 0x1B 0x08
  | .atsCas f => f.encode 0x1B 0x09
  | .atsFadd f => f.encode 0x1B 0x0A
  | .atcAdd f => f.encode 0x1C 0x00
  | .atcAnd f => f.encode 0x1C 0x01
  | .atcOr f => f.encode 0x1C 0x02
  | .atcXor f => f.encode 0x1C 0x03
  | .atcSmin f => f.encode 0x1C 0x04
  | .atcSmax f => f.encode 0x1C 0x05
  | .atcUmin f => f.encode 0x1C 0x06
  | .atcUmax f => f.encode 0x1C 0x07
  | .atcExch f => f.encode 0x1C 0x08
  | .atcCas f => f.encode 0x1C 0x09
  | .atcFadd f => f.encode 0x1C 0x0A
  | .atdAdd f => f.encode 0x1D 0x00
  | .atdAnd f => f.encode 0x1D 0x01
  | .atdOr f => f.encode 0x1D 0x02
  | .atdXor f => f.encode 0x1D 0x03
  | .atdSmin f => f.encode 0x1D 0x04
  | .atdSmax f => f.encode 0x1D 0x05
  | .atdUmin f => f.encode 0x1D 0x06
  | .atdUmax f => f.encode 0x1D 0x07
  | .atdExch f => f.encode 0x1D 0x08
  | .atdCas f => f.encode 0x1D 0x09
  | .atdFadd f => f.encode 0x1D 0x0A
  | .atrPAdd f => f.encode 0x1E 0x00
  | .atrPAnd f => f.encode 0x1E 0x01
  | .atrPOr f => f.encode 0x1E 0x02
  | .atrPXor f => f.encode 0x1E 0x03
  | .atrPSmin f => f.encode 0x1E 0x04
  | .atrPSmax f => f.encode 0x1E 0x05
  | .atrPUmin f => f.encode 0x1E 0x06
  | .atrPUmax f => f.encode 0x1E 0x07
  | .atrPExch f => f.encode 0x1E 0x08
  | .atrPCas f => f.encode 0x1E 0x09
  | .atrPFadd f => f.encode 0x1E 0x0A
  | .atrHAdd f => f.encode 0x1E 0x10
  | .atrHAnd f => f.encode 0x1E 0x11
  | .atrHOr f => f.encode 0x1E 0x12
  | .atrHXor f => f.encode 0x1E 0x13
  | .atrHSmin f => f.encode 0x1E 0x14
  | .atrHSmax f => f.encode 0x1E 0x15
  | .atrHUmin f => f.encode 0x1E 0x16
  | .atrHUmax f => f.encode 0x1E 0x17
  | .atrHExch f => f.encode 0x1E 0x18
  | .atrHCas f => f.encode 0x1E 0x19
  | .atrHFadd f => f.encode 0x1E 0x1A
  | .fenceAcq f => f.encode 0 1
  | .fenceRel f => f.encode 0 2
  | .fenceAr f => f.encode 0 3
  | .fenceTot f => f.encode 1 3
  | .xfence f => f.encode
  | .fenceI w => 0x1F#6 ++ BitVec.ofBool w ++ 3#5 ++ 0#52
  | .barArr f => f.encode 0x20 0x00
  | .barHold f => f.encode 0x20 0x01
  | .wait f => f.encode 0x20 0x02
  | .pass f => f.encode 0x20 0x03
  | .cpost f => f.encode 0x21 0x00
  | .cdrain f => f.encode 0x21 0x01
  | .spawn f => f.encode 0x25 0x00
  | .spawnOpen f => f.encode 0x25 0x01
  | .arm f => f.encode 0x25 0x02
  | .cancel f => f.encode 0x25 0x03
  | .step f => f.encode 0x25 0x04
  | .retire f => f.encode 0x25 0x05
  | .mlda f => f.encode 0x22 0
  | .mldaT f => f.encode 0x22 1
  | .mldb f => f.encode 0x22 2
  | .mma f => f.encode 0x23 0x00
  | .mmaZ f => f.encode 0x23 0x01
  | .mzero f => f.encode 0x24 0x00
  | .mdrain f => f.encode 0x24 0x01
  | .mdrainp f => f.encode 0x24 0x02
  | .marm f => f.encode 0x24 0x03
  | .mstat f => f.encode 0x24 0x04
  | .ctab f => f.encode 0x26 0x00
  | .msave f => f.encode 0x26 0x01
  | .mrest f => f.encode 0x26 0x02
  | .moduleReset => 0
  | .timeTick _ => 0
  | .alignmentPulse => 0
  | .registerWrite _ _ _ _ => 0
  | .aqiCtlWrite _ _ _ => 0
  | .doorbellWrite _ _ _ _ => 0
  | .packetFetch _ _ => 0
  | .tornSubmission _ _ => 0
  | .nopPacket _ => 0
  | .launch _ => 0
  | .cancelPacket _ => 0
  | .signal _ => 0
  | .snapcut _ => 0
  | .cutSwitch _ _ => 0
  | .stream _ => 0
  | .snapend _ => 0
  | .packetCompletion _ => 0
  | .atsTranslationResponse _ _ _ _ => 0
  | .pageRequestResponse _ _ _ _ => 0
  | .pageRequestTimeout _ _ _ => 0
  | .atsInvalidation _ _ _ _ => 0
  | .flitTransmit _ _ => 0
  | .idleFlit _ => 0
  | .flitReceive _ _ => 0
  | .retrainComplete _ => 0
  | .retrainTimeout _ => 0
  | .ppretrWrite _ => 0
  | .peerInboundAccess _ _ => 0
  | .fmapWrite _ => 0
  | .fwallWrite _ => 0
  | .ppmapWrite _ _ => 0
  | .partitionEnable _ _ => 0
  | .partitionReset _ _ => 0
  | .fownWrite _ _ => 0
  | .frameZeroed _ => 0
  | .sctbWrite _ _ => 0
  | .rswWrite _ _ => 0
  | .rvoltWrite _ _ => 0
  | .quiesceTimeout _ => 0
  | .railChangeApplied _ => 0
  | .railOvercurrent _ => 0
  | .throttleRelease _ => 0
  | .controlIntervalEnd _ => 0
  | .thermWrite _ _ => 0
  | .temperatureRead _ _ => 0
  | .thermalCutStep _ => 0
  | .rowTestDone _ _ _ => 0
  | .spreRequest _ _ => 0
  | .spreRelease _ _ => 0
  | .spreDone _ => 0
  | .capmaskWrite _ => 0
  | .astbWrite _ _ => 0
  | .ppasWrite _ _ => 0
  | .gcmdWrite _ _ => 0
  | .generationAdvanceDone _ => 0
  | .staleRejection _ => 0
  | .translationWalk _ _ _ _ => 0
  | .walkTimeout _ => 0
  | .prefetch _ _ _ _ => 0
  | .resultReturn _ _ _ => 0
  | .storeAcknowledge _ _ _ => 0
  | .issueCycle _ => 0
  | .generateRecord _ _ _ => 0
  | .stepBoundary _ _ => 0
  | .dispatchBind _ => 0
  | .workSteal _ => 0
  | .sliceEnd _ => 0
  | .groupResume _ _ _ => 0
  | .crewRetire _ _ => 0
  | .queueRetry _ => 0
  | .cancelApply _ _ _ => 0
  | .killTimeout _ _ _ => 0
  | .cancelAcknowledge _ _ => 0
  | .migration _ _ _ => 0
  | .migrationStopTimeout _ _ _ => 0
  | .fqctlWrite _ _ => 0
  | .fqheadWrite _ _ => 0
  | .fresRetry _ _ => 0
  | .fresKill _ _ => 0
  | .accumulatorSwitch _ _ _ => 0
  | .copyStart _ _ => 0
  | .copy _ => 0
  | .transpose _ => 0
  | .fill _ => 0
  | .caskAdd _ => 0
  | .settle _ => 0
  | .gristLoad _ => 0
  | .cellarStream _ => 0
  | .copyComplete _ => 0
  | .tunStep _ => 0
  | .tunOperationDone _ => 0
  | .peerAddApply _ _ _ => 0
  | .ctabDone _ => 0
  | .waitTimeout _ => 0
  | .hostWriteError _ => 0

end Sys2Proof
end

