-- ==== Sys2Proof/Machine/Xlate.lean ====
section
/-!
DEFINITION. The die fabric and its firewall (R15, R17, R55, R56), and the memory path: device translation (R144 to R147), frame ownership (R59), device reads and writes with the cellar's journal (R158) and
poison (R192), host translation and host writes (R44, R45).
-/
namespace Sys2Proof.Machine

/-! ## Fences and routes (R15, R17, R55, R56) -/

/-- The fence of a die (R55). -/
def fenceOfDie (s : State) (d : Nat) : Nat := bits s.fmap (3 * d + 2) (3 * d)

/-- The dies of a fence (R55). -/
def fenceDies (s : State) (f : Nat) : List Nat := (List.range 8).filter fun d => bits s.fmap (3 * d + 2) (3 * d) == f

/-- The fence of a partition (R57). -/
def fenceOf (s : State) (p : Nat) : Nat := bits (s.part p).pcfg0 58 56

/-- EN of a partition (R57). -/
def partOn (s : State) (p : Nat) : Bool := (s.part p).pcfg0.getLsbD 63

/-- The die links in the order of FWALL's fields: six along the rows, four along the columns. -/
def dieLinks : List (Nat × Nat) := [(0, 1), (1, 2), (2, 3), (4, 5), (5, 6), (6, 7), (0, 4), (1, 5), (2, 6), (3, 7)]

/-- State of link i in a value of FWALL: 0 open, 1 closed, 2 transit. -/
def linkIn (v : Dword) (i : Nat) : Nat := bits v (2 * i + 1) (2 * i)

/-- Links on the R15 route between two C-dies, which lie in two rows of four. -/
def links (a b : Nat) : Nat := (a % 4 - b % 4) + (b % 4 - a % 4) + (a / 4 - b / 4) + (b / 4 - a / 4)

/-- The links that a route crosses, by their place in FWALL: along the source's row to the destination's column, then along that column (R15). -/
def routeLinks (a b : Nat) : List Nat :=
  ((List.range 3).filter fun c => (decide (a % 4 ≤ c) && decide (c < b % 4)) || (decide (b % 4 ≤ c) && decide (c < a % 4))).map (fun c => 3 * (a / 4) + c)
    ++ if a / 4 == b / 4 then [] else [6 + b % 4]

/-- Traffic between two C-dies passes: every link of its route is open. A transit link passes only traffic with an X-die (R17, R56). -/
def dieRoute (s : State) (a b : Nat) : Bool := (routeLinks a b).all fun i => linkIn s.fwall i == 0

/-- Traffic between a C-die and an X-die passes, the left one for x = 0: it runs along the row to the end nearest that X-die, and crosses no closed link. -/
def xRoute (s : State) (d x : Nat) : Bool :=
  (List.range 3).all fun c => (if x == 0 then decide (d % 4 ≤ c) else decide (c < d % 4)) || linkIn s.fwall (3 * (d / 4) + c) != 1

/-- The die that holds a physical address (R59). -/
def State.dieOfPa (pa : Nat) : Nat := pa / 2 ^ 30 / 96

/-- The die of a party of the memory path: a cluster below 96, C-die n and its dispatcher at 96 + n; from 104 on the hardware's parties whose die is not stated, and
which are held to no route. DESIGN CHOICE (log 76). -/
def dieOfParty (cl : Nat) : Option Nat := if cl < 96 then some (cl / 12) else if cl < 104 then some (cl - 96) else none

/-- The traffic of a party to the die of a physical address passes the firewall. -/
def State.reaches (s : State) (d : Option Nat) (pa : Nat) : Bool := match d with | some a => dieRoute s a (State.dieOfPa pa) | none => true

/-- The fault kinds of an access, as the columns of R179; the last three are the kinds of a walk (0x7D to 0x7F). -/
inductive XErr where
  | notPresent | protection | misaligned | bounds | stale | uncorrectable | firewall | timeout | walkUnc | walkFw | walkTime
  deriving DecidableEq, Repr

/-- The cause code of a kind in the domain whose codes begin at base (R179). -/
def XErr.code (base : Nat) : XErr → Byte
  | .notPresent => BitVec.ofNat 8 base
  | .protection => BitVec.ofNat 8 (base + 1)
  | .misaligned => BitVec.ofNat 8 (base + 2)
  | .bounds => BitVec.ofNat 8 (base + 3)
  | .stale => BitVec.ofNat 8 (base + 4)
  | .uncorrectable => BitVec.ofNat 8 (base + 5)
  | .firewall => BitVec.ofNat 8 (base + 6)
  | .timeout => BitVec.ofNat 8 (base + 7)
  | .walkUnc => 0x7D
  | .walkFw => 0x7E
  | .walkTime => 0x7F

/-- What a translation or access comes to. -/
inductive XRes where
  | ok (pa : Nat)
  | err (e : XErr)
  deriving DecidableEq, Repr

/-- What a device access needs (R145). -/
inductive Access where
  | read | write | fetch
  deriving DecidableEq, Repr

namespace State

/-- FOWN of a frame; frames 768 and up do not exist and have no owner. -/
def fownOf (s : State) (f : Nat) : Byte := if f < 768 then s.fown.get f 0 else 0

/-- The frame of a physical address is owned by the partition: V, and its OWNER (R57, R59). -/
def holdsFrame (s : State) (p : Nat) (pa : Nat) : Bool := (s.fownOf (pa / 2 ^ 30)).getLsbD 6 && bits (s.fownOf (pa / 2 ^ 30)) 5 0 == p

/-- The frame of a physical address is owned by the partition and not being zeroed: it can be accessed (R59). -/
def ownsFrame (s : State) (p : Nat) (pa : Nat) : Bool := s.holdsFrame p pa && !(s.fownOf (pa / 2 ^ 30)).getLsbD 7

/-- An eight-byte word of device memory by physical address. -/
def dev64 (s : State) (pa : Nat) : Dword := BitVec.ofNat 64 (leNat (s.mem.getBytes pa 8))

/-- Some byte of the n from pa on lies in a poisoned word (R192). -/
def devPoisoned (s : State) (pa n : Nat) : Bool := s.poison.any fun w => decide (pa < 64 * w + 64) && decide (64 * w < pa + n)

/-- The physical address of the address-space table of a function (R144). -/
def astbBase (s : State) (f : Nat) : Nat := bits (s.fn f).astb 18 9 * 2 ^ 30 + bits (s.fn f).astb 8 0 * 2 ^ 21

/-- The reserved fields of an address-space entry are zero (R144). -/
def asRsvdZero (s : State) (a : Nat) : Bool := bits (s.dev64 a) 43 40 == 0 && bits (s.dev64 a) 11 1 == 0 && bits (s.dev64 (a + 8)) 63 16 == 0

/-- The valid entry at this place is that of a PASID (R144). One whose reserved fields are not zero counts as not valid. DESIGN CHOICE (log 77): R5 lets it not be
ignored, and R144 states no consequence. -/
def asServes (s : State) (pasid a : Nat) : Bool := (s.dev64 a).getLsbD 0 && bits (s.dev64 a) 63 44 == pasid && s.asRsvdZero a

/-- The place of the valid address-space entry of a PASID (R144). DESIGN CHOICE (log 81): of two valid entries with one PASID the one of lower index serves, which
R144 leaves open. -/
def asEntry? (s : State) (f pasid : Nat) : Option Nat :=
  if (s.fn f).astb.getLsbD 63 then ((List.range 256).map fun i => s.astbBase f + 16 * i).find? (s.asServes pasid) else none

/-- The first poisoned entry that the search for a PASID reads, up to the entry that serves (R192). DEDUCED (log 24): the table is read in rising index, and a
poisoned entry ends the walk as an uncorrectable table word does. -/
def asPoison? (s : State) (f pasid : Nat) : Option Nat :=
  if (s.fn f).astb.getLsbD 63 && !s.poison.isEmpty then
    match ((List.range 256).map fun i => s.astbBase f + 16 * i).find? fun a => s.asServes pasid a || s.devPoisoned a 16 with
    | some a => if s.devPoisoned a 16 then some a else none
    | none => none
  else none

/-- GEN of an address space (R147); 0 where there is no entry. -/
def genOf (s : State) (f pasid : Nat) : Nat :=
  match s.asEntry? f pasid with
  | some a => bits (s.dev64 (a + 8)) 15 0
  | none => 0

end State

/-- log2 of the page size of an SZ code (R145). -/
def pageLog : Nat → Option Nat
  | 0 => some 12 | 1 => some 14 | 2 => some 16 | 3 => some 18 | 4 => some 20 | 5 => some 21 | 6 => some 22 | 7 => some 24 | 8 => some 26 | 9 => some 28
  | 10 => some 30 | 11 => some 32 | _ => none

/-- The SZ codes that a leaf of a level may have (R145). -/
def szAllowed (level sz : Nat) : Bool :=
  match level with
  | 0 => decide (sz ≤ 4)
  | 1 => decide (5 ≤ sz) && decide (sz ≤ 9)
  | 2 => decide (10 ≤ sz) && decide (sz ≤ 11)
  | _ => false

/-- A leaf that a walk found: page base, page size, frame address, rights. -/
structure Leaf where
  vbase : Nat
  size : Nat
  pbase : Nat
  w : Bool
  x : Bool
  deriving DecidableEq, Repr

/-- What a walk finds. -/
inductive WalkRes where
  | leaf (l : Leaf)
  | err (e : XErr)
  deriving DecidableEq, Repr

/-- The entries of a leaf: those that its page takes of the table, which must all agree (R145). First and number. -/
def leafRun (level idx lg : Nat) : Nat × Nat :=
  let run := 2 ^ (lg - (12 + 9 * level))
  (idx / run * run, run)

/-- The walk of a party from a table of a level on (R145). The fuel is the level plus one. -/
def walkFrom (s : State) (d : Option Nat) (p : Nat) (va : Nat) (fuel table : Nat) : WalkRes :=
  match fuel with
  | 0 => .err .protection
  | level + 1 =>
    let idx := va / 2 ^ (12 + 9 * level) % 512
    if !(s.ownsFrame p table && s.reaches d table) then .err .walkFw
    else if s.devPoisoned (table + 8 * idx) 8 then .err .walkUnc
    else
      let e := s.dev64 (table + 8 * idx)
      let pa := bits e 39 12 * 4096
      let sz := bits e 11 8
      if !e.getLsbD 0 then .err .notPresent
      else if bits e 63 40 != 0 || bits e 7 5 != 0 || e.getLsbD 2 then .err .protection
      else if e.getLsbD 1 then
        match pageLog sz with
        | none => .err .protection
        | some lg =>
          if !szAllowed level sz || pa % 2 ^ lg != 0 then .err .protection
          else
            let (first, run) := leafRun level idx lg
            if s.devPoisoned (table + 8 * first) (8 * run) then .err .walkUnc
            else if (List.range run).all fun i => s.dev64 (table + 8 * (first + i)) == e then
              .leaf ⟨va / 2 ^ lg * 2 ^ lg, 2 ^ lg, pa, e.getLsbD 3, e.getLsbD 4⟩
            else .err .protection
      else if level == 0 || sz != 0 then .err .protection
      else walkFrom s d p va level pa

namespace State

/-- A walk of the device tables of a PASID of a partition's function, by a party (R144, R145). -/
def walkBy (s : State) (d : Option Nat) (p pasid va : Nat) : WalkRes :=
  if (s.asPoison? p pasid).isSome then .err .walkUnc
  else match s.asEntry? p pasid with
  | none => .err .notPresent
  | some a => walkFrom s d p va 5 (bits (s.dev64 a) 39 12 * 4096)

/-- A walk whose traffic the fabric does not stop. -/
def walk (s : State) (p pasid va : Nat) : WalkRes := s.walkBy none p pasid va

/-- The rights of a leaf, and the firewall of its frame and of the route there (R17, R56, R145; log 76). -/
def leafAccess (s : State) (d : Option Nat) (p va : Nat) (acc : Access) (l : Leaf) : XRes :=
  if (acc == .write && !l.w) || (acc == .fetch && !l.x) then .err .protection
  else
    let pa := l.pbase + (va - l.vbase)
    if s.ownsFrame p pa && s.reaches d pa then .ok pa else .err .firewall

/-- The cached translation that serves an address, if the cluster holds one (R146). -/
def tlbHit? (s : State) (cl p pasid va : Nat) : Option Tlb :=
  (s.cluster cl).tlb.find? fun t => t.fn == p && t.pasid == pasid && decide (t.vbase ≤ va) && decide (va < t.vbase + t.size)

/-- Device translation by a walk. -/
def walkXlate (s : State) (cl p pasid va : Nat) (acc : Access) : XRes :=
  match s.walkBy (dieOfParty cl) p pasid va with
  | .err e => .err e
  | .leaf l => s.leafAccess (dieOfParty cl) p va acc l

/-- Device translation of an address whose form is right, from a cluster: a cached translation where there is one, else a walk (R145, R146). Where the PASID has
no valid entry every access is not present (R144). A cached translation of an older generation gives its rights, and the access made under it is rejected by
the checker (R147, R148). -/
def devXlate (s : State) (cl p pasid va : Nat) (acc : Access) (timedOut : Bool) : XRes :=
  if (s.asEntry? p pasid).isNone && (s.asPoison? p pasid).isNone then .err .notPresent
  else match s.tlbHit? cl p pasid va with
  | some t =>
    (match s.leafAccess (dieOfParty cl) p va acc ⟨t.vbase, t.size, t.pbase, t.w, t.x⟩ with
     | .ok pa => if t.gen != s.genOf p pasid then .err .stale else .ok pa
     | r => r)
  | none => if timedOut then .err .walkTime else s.walkXlate cl p pasid va acc

/-- Device translation past any stale entry: what the hardware does when it sends a rejected store again (R148). -/
def devXlateRetry (s : State) (cl p pasid va : Nat) (acc : Access) (timedOut : Bool) : XRes :=
  match s.devXlate cl p pasid va acc timedOut with
  | .err .stale => s.walkXlate cl p pasid va acc
  | r => r

/-- A device access checked whole: bounds, misalignment, then translation (R139, R146). -/
def devCheck (s : State) (cl p pasid : Nat) (va : Dword) (n : Nat) (acc : Access) (retry timedOut : Bool) : XRes :=
  if bits va 63 57 != 0 then .err .bounds
  else if va.toNat % n != 0 then .err .misaligned
  else if retry then s.devXlateRetry cl p pasid va.toNat acc timedOut
  else s.devXlate cl p pasid va.toNat acc timedOut

/-! ### The cellar (R158) and device writes -/

/-- The physical address of the state-map word of a page of a snapshot. -/
def mapWord (n : Snap) (page : Nat) : Nat := n.jphys.getD (n.cap + page / 1024) 0 + 4 * (page % 1024)

/-- A page that is copied takes its poison along (R192). -/
def carryPoison (s : State) (src dst : Nat) : List Nat :=
  (s.poison.filter fun w => w / 64 != dst / 4096) ++ ((s.poison.filter fun w => w / 64 == src / 4096).map fun w => dst / 64 + w % 64)

/-- What a snapshot's controller does before a write to a physical page: journal an untouched page, or overflow (R53, R158). -/
def journalFor (s : State) (p i : Nat) (n : Snap) (page : Nat) : State :=
  if n.overflowed then s
  else
    let w := mapWord n page
    let st := leNat (s.mem.getBytes w 4) / 2 ^ 30
    if st != 0 then s
    else if n.used < n.cap then
      let src := n.phys.getD page 0
      let dst := n.jphys.getD n.used 0
      let m := (s.mem.setBytes dst (s.mem.getBytes src 4096)).setBytes w (leBytes 4 (2 ^ 30 + n.used))
      { s with mem := m, poison := s.carryPoison src dst }.modPart p fun q => { q with snaps := vmod q.snaps i fun x => { x with used := x.used + 1 } }
    else s.modPart p fun q => { q with snaps := vmod q.snaps i fun x => { x with overflowed := true } }

/-- Every snapshot in whose range the physical page lies: partition, id, page index. -/
def snapsOf (s : State) (ppage : Nat) : List (Nat × Nat × Nat) :=
  s.parts.flatMap fun (p, q) =>
    (List.range 8).filterMap fun i =>
      let n := q.snaps.getD i Snap.reset
      if n.phase == .holding || n.phase == .active then
        let idx := n.phys.findIdx fun a => a == ppage
        if idx < n.phys.length then some (p, i, idx) else none
      else none

/-- A physical page is about to be written: every snapshot in whose range it lies journals it first (R158). -/
def journalPage (s : State) (ppage : Nat) : State :=
  (s.snapsOf ppage).foldl (fun s (p, i, idx) => s.journalFor p i ((s.part p).snaps.getD i Snap.reset) idx) s

/-- Write bytes of device memory that lie in one page, journalled first. A write that a cut holds for its 2 µs is out of the image either way, so that it is
journalled and performed at once (R158; log 28). -/
def devWrite (s : State) (pa : Nat) (bs : List Byte) : State :=
  let s := s.journalPage (pa / 4096 * 4096)
  { s with mem := s.mem.setBytes pa bs }

/-- The pages of snapshots that lie in a range of device memory. -/
def snapPagesIn (s : State) (lo hi : Nat) : List Nat :=
  s.parts.flatMap fun (_, q) => (List.range 8).flatMap fun i => (q.snaps.getD i Snap.reset).phys.filter fun a => decide (lo ≤ a) && decide (a < hi)

/-- Zero a range of whole pages of device memory, journalled first (R158, R175): its words are poisoned no more (R192). -/
def devZero (s : State) (lo hi : Nat) : State :=
  let s := (s.snapPagesIn lo hi).foldl journalPage s
  { s with mem := s.mem.zeroRange lo hi, poison := s.poison.filter fun w => !(decide (lo ≤ 64 * w) && decide (64 * w < hi)) }

/-- The protected words that one access of these ranges (address, length) covers whole lose their poison (R13: 64 bytes, R192). -/
def clearPoison (s : State) (rs : List (Nat × Nat)) : State :=
  { s with poison := s.poison.filter fun w => !((List.range 64).all fun i => rs.any fun (a, n) => decide (a ≤ 64 * w + i) && decide (64 * w + i < a + n)) }

/-- n bytes of device memory as a little-endian number. -/
def devRead (s : State) (pa n : Nat) : Nat := leNat (s.mem.getBytes pa n)

/-! ### Row tests (R68, R192) -/

/-- A row test starts, unless the row is under test. -/
def startTest (s : State) (row : Nat) : State := if s.rows.contains row then s else { s with rows := s.rows ++ [row] }

/-- Where a walk meets an uncorrectable table word: the page of that table. -/
def walkPoison (s : State) (va : Nat) : Nat → Nat → Option Nat
  | 0, _ => none
  | level + 1, table =>
    let idx := va / 2 ^ (12 + 9 * level) % 512
    let a := table + 8 * idx
    if s.devPoisoned a 8 then some (a / 4096)
    else if !(s.dev64 a).getLsbD 0 then none
    else if (s.dev64 a).getLsbD 1 then
      let (first, run) := leafRun level idx ((pageLog (bits (s.dev64 a) 11 8)).getD 0)
      if s.devPoisoned (table + 8 * first) (8 * run) then some (a / 4096) else none
    else s.walkPoison va level (bits (s.dev64 a) 39 12 * 4096)

/-- An uncorrectable table word that a walk of an address has met starts the test of its row (R68). -/
def testWalk (s : State) (p pasid va : Nat) : State :=
  match s.asPoison? p pasid, s.asEntry? p pasid with
  | some a, _ => s.startTest (a / 4096)
  | none, none => s
  | none, some a => match s.walkPoison va 5 (bits (s.dev64 a) 39 12 * 4096) with | some row => s.startTest row | none => s

/-- What an access of n bytes that ended uncorrectable has met starts the test of its row: a table word, or the data (R68). -/
def testVa (s : State) (p pasid : Nat) (va : Dword) (n : Nat) (party : Nat := 104) : State :=
  match s.devCheck party p pasid va n .read true false with
  | .err .walkUnc => s.testWalk p pasid va.toNat
  | .err _ => s
  | .ok pa => if s.devPoisoned pa n then s.startTest (pa / 4096) else s

/-! ### Host space (R44 to R46) -/

/-- The cached entry that serves a host access: of the PASID's present generation, or of any. -/
def atsHit? (s : State) (f pasid iova : Nat) (write now : Bool) : Option AtsEntry :=
  s.ats.find? fun e => e.fn == f && e.pasid == pasid && (!now || e.gen == (s.fn f).hostGen.get pasid 0) && decide (e.iova ≤ iova) && decide (iova < e.iova + e.size)
    && (if write then e.write else e.read)

/-- The host physical address that the device's cache gives for a guest address with the needed right, under the present generation. -/
def hostXlate? (s : State) (f pasid iova : Nat) (write : Bool) : Option Nat := (s.atsHit? f pasid iova write true).map fun e => e.hpa + (iova - e.iova)

/-- An access would be tagged with an older generation: the X-die rejects it (R46). -/
def hostStale (s : State) (f pasid iova : Nat) (write : Bool) : Bool := (s.hostXlate? f pasid iova write).isNone && (s.atsHit? f pasid iova write false).isSome

/-- The entries of older generations of a PASID go. -/
def dropStaleAts (s : State) (f pasid : Nat) : State :=
  { s with ats := s.ats.filter fun e => !(e.fn == f && e.pasid == pasid && e.gen != (s.fn f).hostGen.get pasid 0) }

/-- Ask the host IOMMU for a page (R44), unless that is under way, or a page request for it is (R45). -/
def atsAsk (s : State) (f pasid iova : Nat) (write : Bool) : State :=
  let q := (pasid, iova / 4096, write)
  s.modFn f fun x => if x.atsReq.contains q || x.pri.contains q then x else { x with atsReq := x.atsReq ++ [q] }

/-- Every page of a guest range has a translation with the right. -/
def hostMapped (s : State) (f pasid iova n : Nat) (write : Bool) : Option Nat :=
  ((List.range n).map fun i => iova + i).find? fun a => (s.hostXlate? f pasid a write).isNone

/-- The host words of a list that these writes (address, length) cover whole lose their poison (R192; log 24). -/
def clearHostPoison (s : State) (rs : List (Nat × Nat)) : State :=
  { s with hostPoison := s.hostPoison.filter fun w => !((List.range 64).all fun i => rs.any fun (a, n) => decide (a ≤ 64 * w + i) && decide (64 * w + i < a + n)) }

/-- A host atomic or store makes its write (R263, R270). -/
def hostRmwWrite (s : State) (x : HostRmw) : State :=
  let s1 : State := { s with host := x.writes.foldl (fun m w => m.setBytes w.1 w.2) s.host, hostRmw := s.hostRmw.filter fun y => y.id != x.id }
  s1.clearHostPoison (if s.hostPoison.isEmpty then [] else x.writes.map fun w => (w.1, w.2.length))

/-- Before an access of a function to n bytes of host memory, the atomics of that function which have read them make their writes, so that the access does not
fall between, and so do its earlier stores (R261, R270). -/
def hostBefore (s : State) (f h n : Nat) : State :=
  (s.hostRmw.filter fun x => x.fn == f && x.writes.any fun w => decide (w.1 < h + n) && decide (h < w.1 + w.2.length)).foldl hostRmwWrite s

/-- The host physical addresses of n bytes of a guest range that is mapped. -/
def hostAddrs (s : State) (f pasid iova n : Nat) (write : Bool) : List Nat := (List.range n).map fun i => (s.hostXlate? f pasid (iova + i) write).getD 0

/-- The atomics and stores of a function on a guest range that is about to be accessed make their writes (R270). -/
def hostSettled (s : State) (f pasid iova n : Nat) (write : Bool) : State :=
  if s.hostRmw.isEmpty then s else (s.hostAddrs f pasid iova n write).foldl (fun s a => s.hostBefore f a 1) s

/-- Write bytes of host memory at guest addresses that are mapped. Words written whole lose their poison (log 24). -/
def hostWrite (s : State) (f pasid iova : Nat) (bs : List Byte) : State :=
  let as := s.hostAddrs f pasid iova bs.length true
  let s1 := s.hostSettled f pasid iova bs.length true
  { s1 with host := (as.zip bs).foldl (fun m (a, b) => m.set a b) s1.host }.clearHostPoison (if s.hostPoison.isEmpty then [] else as.map fun a => (a, 1))

/-- Read bytes of host memory at guest addresses that are mapped. -/
def hostRead (s : State) (f pasid iova n : Nat) : List Byte :=
  (List.range n).map fun i => s.host.get ((s.hostXlate? f pasid (iova + i) false).getD 0)

end State

/-! ### MSI-X (R30, R47) -/

/-- A message on an entry of the function's table: its write is made, or it pends while the entry is masked (R47). DESIGN CHOICE (log 81): MSI-X Enable and Function
Mask of the PCIe configuration space, which the spec does not lay out, are taken as set to 1 and to 0. -/
def Fn.message (x : Fn) (e : Nat) : Fn :=
  let t := x.msixTab.getD (e % 32) MsixEntry.reset
  let y := { x with msix := x.msix ++ [e] }
  if t.ctl.getLsbD 0 then { y with msixPend := setBits x.msixPend (e % 32) (e % 32) 1 } else { y with msixOut := x.msixOut ++ [(t.addr, t.data)] }

/-- The messages that pend on entries that no mask holds are sent. -/
def Fn.unmasked (x : Fn) : Fn :=
  (List.range 32).foldl (fun x e =>
    let t := x.msixTab.getD e MsixEntry.reset
    if x.msixPend.getLsbD e && !t.ctl.getLsbD 0 then { x with msixPend := setBits x.msixPend e e 0, msixOut := x.msixOut ++ [(t.addr, t.data)] } else x) x

/-- Send an MSI-X message (R47). -/
def State.msix (s : State) (f entry : Nat) : State := s.modFn f fun x => x.message entry

end Sys2Proof.Machine
end

