-- ==== Sys2Proof/Machine/Tasks.lean ====
section
/-!
DEFINITION. Task records, code descriptors, the state-mapping table, ready queues, cancel scopes, join cells and what a launch counts (04, 05, 07 R134).
-/
namespace Sys2Proof.Machine

/-! ## Reading device memory by virtual address, as the hardware's own parties do -/

namespace State

/-- One aligned access of 1, 2, 4 or 8 bytes by a party of the hardware, which retries a stale tag (R148). -/
def vaRead (s : State) (p pasid : Nat) (va : Dword) (n : Nat) (party : Nat := 104) : XRes :=
  match s.devCheck party p pasid va n .read true false with
  | .err e => .err e
  | .ok pa => if s.devPoisoned pa n then .err .uncorrectable else .ok (s.devRead pa n)

/-- The first fault among the n eight-byte words from va on. -/
def vaFault (s : State) (p pasid : Nat) (va : Dword) (n : Nat) (party : Nat := 104) : Option XErr :=
  (List.range n).findSome? fun i =>
    match s.vaRead p pasid (va + BitVec.ofNat 64 (8 * i)) 8 party with
    | .err e => some e
    | .ok _ => none

/-- An eight-byte word by virtual address; zero where it cannot be read. -/
def va64 (s : State) (p pasid : Nat) (va : Dword) (party : Nat := 104) : Dword :=
  match s.vaRead p pasid va 8 party with
  | .ok v => BitVec.ofNat 64 v
  | .err _ => 0

/-- The row tests that a read of the n eight-byte words from va on starts (R68). -/
def testWords (s : State) (p pasid : Nat) (va : Dword) (n : Nat) (party : Nat := 104) : State :=
  (List.range n).foldl (fun s i => s.testVa p pasid (va + BitVec.ofNat 64 (8 * i)) 8 party) s

end State

/-- Word i of eight-byte words from va on. -/
def wordAt (s : State) (p pasid : Nat) (va : Dword) (i : Nat) (party : Nat := 104) : Dword := s.va64 p pasid (va + BitVec.ofNat 64 (8 * i)) party

/-- The task record at an address (R69). -/
def readTask (s : State) (p pasid : Nat) (va : Dword) (party : Nat := 104) : TaskRec :=
  let w := fun (i : Nat) => wordAt s p pasid va i party
  { code := w 0, args := w 1, tile := w 2, succ := w 3, scope := (w 4).setWidth 32, energy := (w 4).extractLsb' 32 16,
    peak := (w 4).extractLsb' 48 16, key := w 5, shape := (w 6).setWidth 32, launch := (w 6).extractLsb' 32 32, rsvd := w 7 }

/-- The second half of a launch root at an address (R78). -/
def readRoot (s : State) (p pasid : Nat) (va : Dword) (party : Nat := 104) : RootExt :=
  let w := fun (i : Nat) => wordAt s p pasid (va + 64) i party
  { nxm := (w 0).setWidth 16, nym := (w 0).extractLsb' 16 16, nzm := (w 0).extractLsb' 32 16, steplen := w 1, dmin := (w 2).setWidth 8,
    dmax := (w 2).extractLsb' 8 8, stepctr := w 3, keybase := w 4, ksx := w 5, ksy := w 6, ksz := w 7,
    rsvdZero := (w 0).extractLsb' 48 16 == 0 && (w 2).extractLsb' 16 48 == 0 }

/-- The code descriptor at an address (R72). -/
def readCode (s : State) (p pasid : Nat) (va : Dword) (party : Nat := 104) : CodeDesc :=
  let w := fun (i : Nat) => wordAt s p pasid va i party
  { dbase := w 0, lbase := w 1, smtab := w 2, need := (w 3).setWidth 32, mix := (w 3).extractLsb' 32 32, genergy := (w 4).setWidth 16,
    gpeak := (w 4).extractLsb' 16 16, cflags := (w 4).extractLsb' 32 32, nep := (w 5).setWidth 32,
    rsvdZero := (w 5).extractLsb' 32 32 == 0 && w 6 == 0 && w 7 == 0 && (w 4).extractLsb' 34 2 == 0 && (w 4).extractLsb' 40 24 == 0
      && (w 3).extractLsb' 20 12 == 0 }

/-! ## The state-mapping table (R134, R135) -/

/-- An equivalence point: its offset and its survivors, by index in the D- and the L-encoding. -/
structure EqPoint where
  off : Nat
  pairs : List (Nat × Nat)
  deriving DecidableEq, Repr

/-- Indices in strictly rising order. -/
def rising : List Nat → Bool
  | a :: b :: t => decide (a < b) && rising (b :: t)
  | _ => true

/-- The entry of an equivalence point with the checks that R135 makes of it, but for the offset of the se itself; none is a malformed mapping. -/
def eqPoint? (s : State) (p pasid : Nat) (c : CodeDesc) (regs e : Nat) (party : Nat := 104) : Option EqPoint :=
  let rd := fun (a : Dword) => match s.vaRead p pasid a 8 party with | .ok v => some (BitVec.ofNat 64 v : Dword) | .err _ => none
  match rd c.smtab, rd (c.smtab + 8), rd (c.smtab + BitVec.ofNat 64 (16 + 16 * e)), rd (c.smtab + BitVec.ofNat 64 (24 + 16 * e)) with
  | some h0, some h1, some w0, some w1 =>
    let nsurv := bits w1 40 32
    let poff := bits w1 31 0
    if c.nep.toNat ≤ e || bits h0 39 32 != 1 || bits h0 63 40 != 0 || h1 != 0 || bits w1 63 41 != 0 || bits w0 63 32 != bits w0 31 0
        || poff % 2 != 0 || decide (32 * regs < nsurv) then none
    else
      let el := (List.range nsurv).map fun i => s.vaRead p pasid (c.smtab + BitVec.ofNat 64 (poff + 2 * i)) 2 party
      let pairs := el.filterMap fun r => match r with | .ok v => some (v % 256, v / 256) | .err _ => none
      if pairs.length == nsurv && pairs.all (fun q => decide (q.1 < 32 * regs) && decide (q.2 < 32 * regs)) && rising (pairs.map (·.1))
          && (pairs.map (·.2)).eraseDups.length == nsurv then some ⟨bits w0 31 0, pairs⟩
      else none
  | _, _, _, _ => none

/-! ## Records (R70, R71, R78) -/

/-- A crew fits a core type (R70). -/
def fits (t : TaskRec) (l : Bool) : Bool :=
  if l then decide (t.grp ≤ 8) && decide (t.grp * t.regs * 4 ≤ 256) && decide (t.spad ≤ 256) && decide (t.acc ≤ 4)
  else decide (t.grp ≤ 16) && decide (t.grp * t.regs * 4 ≤ 512) && decide (t.spad ≤ 384) && decide (t.acc ≤ 4)

/-- AFF allows a core type (R69). -/
def affAllows (t : TaskRec) (l : Bool) : Bool := t.aff == 0 || (t.aff == 1 && !l) || (t.aff == 2 && l)

/-- The encoding of a core type is present (R72). -/
def present (c : CodeDesc) (l : Bool) : Bool := if l then c.lpres else c.dpres

/-- A core type on which a record may run (R71, R86). -/
def typeOk (t : TaskRec) (c : CodeDesc) (l : Bool) : Bool := affAllows t l && present c l && fits t l

/-- A code descriptor that makes every record naming it malformed (R72). DESIGN CHOICE (log 82): so does an NEP outside 1 to 65,536, while a DBASE or LBASE that is not
256-byte aligned is taken as it is; R72 states the range and the alignment, and for neither a consequence. -/
def codeBad (c : CodeDesc) : Bool :=
  !c.rsvdZero || (!c.dpres && !c.lpres) || bits c.mix 7 0 + bits c.mix 15 8 + bits c.mix 23 16 + bits c.mix 31 24 != 255
    || bits c.cflags 7 4 != 1 || c.nep == 0 || decide (65536 < c.nep.toNat)

/-- A SHAPE field below the NEED field of the same name (R71). -/
def needUnmet (t : TaskRec) (c : CodeDesc) : Bool :=
  decide (bits t.shape 3 0 < bits c.need 3 0) || decide (t.spad < bits c.need 12 4) || decide (t.regs < bits c.need 16 13)
    || decide (t.acc < bits c.need 19 17)

/-- The state-mapping table's header, and its entry for point 0, which declares no survivor (R71, R72, R134). -/
def tableBad (s : State) (p pasid : Nat) (t : TaskRec) (c : CodeDesc) (party : Nat := 104) : Bool :=
  c.smtab.toNat % 16 != 0 || (s.va64 p pasid c.smtab party).setWidth 32 != c.nep
    || (match eqPoint? s p pasid c t.regs 0 party with | some e => e.pairs.length != 0 | none => true)

/-- A malformed record, apart from what depends on how it arrives (R71). SUCC is judged in a launch root too, where R69 gives it no meaning: R71 makes no
exception. DESIGN CHOICE (log 78). -/
def taskBad (s : State) (p pasid : Nat) (t : TaskRec) (party : Nat := 104) : Bool :=
  if bits t.scope 31 22 != 0 || bits t.shape 31 22 != 0 || t.rsvd != 0 || t.code.toNat % 64 != 0 then true
  else if (s.vaFault p pasid t.code 8 party).isSome then true
  else
    let c := readCode s p pasid t.code party
    codeBad c || t.aff == 3 || t.regs == 0 || decide (8 < t.regs) || decide (384 < t.spad) || decide (4 < t.acc) || needUnmet t c
      || !(typeOk t c false || typeOk t c true)
      || (fenceDies s (fenceOf s p)).isEmpty || t.succ.toNat % 128 != 0 || tableBad s p pasid t c party

/-- Tiles of a launch (R78). -/
def RootExt.tiles (e : RootExt) : Nat := (e.nxm.toNat + 1) * (e.nym.toNat + 1) * (e.nzm.toNat + 1)

/-- Steps of a launch (R79). -/
def RootExt.steps (e : RootExt) : Nat := ceilDiv e.tiles e.steplen.toNat

/-- A malformed second half of a launch root (R78). -/
def rootBad (s : State) (p : Nat) (e : RootExt) : Bool :=
  !e.rsvdZero || e.steplen == 0 || decide (e.dmin.toNat < 1) || decide (8 < e.dmin.toNat) || decide (e.dmax.toNat < e.dmin.toNat)
    || decide (8 < e.dmax.toNat) || decide ((fenceDies s (fenceOf s p)).length < e.dmin.toNat) || decide (65536 < e.steps)

/-! ## What a launch counts (R50, R183) -/

/-- t is named before u (R183): smallest TIME, groups before others, then the two keys. -/
def FirstTrap.before (t u : FirstTrap) : Bool :=
  decide (t.time < u.time) || (t.time == u.time && (decide (t.rank < u.rank) || (t.rank == u.rank && (decide (t.k1 < u.k1) ||
    (t.k1 == u.k1 && decide (t.k2 < u.k2))))))

namespace State

def launch? (s : State) (p : Nat) (id : Word) : Option Launch := s.launches.find? fun l => l.part == p && l.id == id
def modLaunch (s : State) (p : Nat) (id : Word) (f : Launch → Launch) : State :=
  { s with launches := modFirst s.launches (fun l => l.part == p && l.id == id) f }

/-- Count an unhandled trap, or a fault counted as one, in a launch; a launch that does not live counts nothing (R76, R183). -/
def countTrap (s : State) (p : Nat) (id : Word) (t : FirstTrap) : State :=
  s.modLaunch p id fun l => { l with trap := match l.trap with | none => some t | some u => if t.before u then some t else some u }

/-- Count a fault recorded without a group (R183). -/
def countFault (s : State) (p : Nat) (id : Word) (die : Nat) (cause : Byte) (faddr : Dword) : State :=
  s.countTrap p id ⟨(s.timeOf die).toNat, 1, die, faddr.toNat, cause, faddr⟩

/-! ## Ready queues (R81, R82) -/

/-- Records of a die's on-die store (R81). -/
def dieStore (s : State) (d : Nat) : Nat := ((s.die d).queue.filter fun q => q.saved.isNone && !q.spilled).length
/-- Records of a partition's overflow area (R81). -/
def overflowUse (s : State) (p : Nat) : Nat :=
  (List.range 8).foldl (fun n d => n + ((s.die d).queue.filter fun q => q.part == p && q.spilled && q.saved.isNone).length) 0
/-- Room for one more record on a die (R81). -/
def queueRoom (s : State) (d p : Nat) : Bool := decide (s.dieStore d < 2048) || decide (s.overflowUse p < 1048576)

end State

/-- The bin of a record (R82). -/
def binOf (key : Dword) : Nat :=
  let k := bits key 47 21
  Nat.xor (Nat.xor (Nat.xor (Nat.xor (k % 64) (k / 64 % 64)) (k / 4096 % 64)) (k / 262144 % 64)) (k / 16777216 % 8)

namespace State

/-- Put a record at the end of a die's queues (R81), in the overflow area where the on-die store is full. -/
def putRec (s : State) (d : Nat) (q : QRec) : State := s.modDie d fun x => { x with queue := x.queue ++ [{ q with spilled := !decide (s.dieStore d < 2048) }] }

/-- Queue a record by value (R81), where there is room. -/
def enqueue (s : State) (d p : Nat) (pasid : BitVec 20) (t : TaskRec) (root : Option RootExt) (byGen : Bool) (addr : Dword) : State :=
  s.putRec d { part := p, pasid := pasid, prio := t.prio, bin := binOf t.key, task := t, root := root, saved := none, byGen := byGen, spilled := false,
               addr := addr, pkt := none, reset := false }

/-! ## Scopes (R88 to R92) -/

def scope (s : State) (p id : Nat) : ScopeEnt := s.scopes.get (p * 65536 + id) ScopeEnt.free

end State

/-- STATE (R89). -/
def ScopeState.num : ScopeState → Nat
  | .free => 0 | .opened => 1 | .cancelling => 2 | .cancelled => 3

/-- The 32 bytes of a scope entry (R89). -/
def ScopeEnt.bytes (e : ScopeEnt) : List Byte :=
  leBytes 8 (e.parent.toNat * 2 ^ 48 + e.depth.toNat * 2 ^ 44 + e.pend.toNat * 2 ^ 12 + bit e.aerr * 8 + bit e.hroot * 4 + e.st.num)
    ++ leBytes 8 e.ackv.toNat ++ leBytes 8 e.acka.toNat ++ leBytes 8 e.opas.toNat

namespace State

/-- The physical address of a partition's scope table (R89). -/
def sctbBase (s : State) (p : Nat) : Nat := bits (s.part p).sctb 18 9 * 2 ^ 30 + bits (s.part p).sctb 8 0 * 2 ^ 21

/-- Write a scope entry, on the dies and in the table, where its frame is the partition's (R59, R89); the table is memory like any other (R175). -/
def setScope (s : State) (p id : Nat) (e : ScopeEnt) : State :=
  let s1 := { s with scopes := s.scopes.put (p * 65536 + id) e }
  if s.ownsFrame p (s.sctbBase p) then s1.devWrite (s.sctbBase p + 32 * id) e.bytes else s1

/-- x lies in the subtree of root: its chain of parents, at most 15 long, reaches it (R90). -/
def inSubtree (s : State) (p root : Nat) : Nat → Nat → Bool
  | 0, x => x == root
  | f + 1, x => x == root || ((s.scope p x).st != .free && (s.scope p x).parent.toNat != x && s.inSubtree p root f (s.scope p x).parent.toNat)

/-- The open or cancelled scopes of a subtree, in rising id (R90). -/
def subtree (s : State) (p root : Nat) : List Nat :=
  (s.scopes.filterMap fun (k, e) => if k / 65536 == p && e.st != .free then some (k % 65536) else none).filter fun x => s.inSubtree p root 15 x

/-- All resident crews: core and crew. -/
def allCrews (s : State) : List (Nat × Crew) := s.cores.flatMap fun (c, k) => k.crews.map fun w => (c, w)

/-- Some work of these scopes exists (R90): running or saved crews, queued records, generators with tiles to make, started commands, messages. -/
def hasWork (s : State) (p : Nat) (ids : List Nat) : Bool :=
  s.allCrews.any (fun (_, w) => w.part == p && ids.contains w.task.scopeId)
  || (List.range 8).any (fun d => (s.die d).queue.any (fun q => q.part == p && ids.contains q.task.scopeId)
       || (s.die d).cells.any fun q => q.part == p && ids.contains q.task.scopeId)
  || s.launches.any (fun l => l.part == p && !l.stopped && ids.contains l.task.scopeId)
  || s.clusters.any (fun (_, c) => c.cmds.any fun m => m.part == p && ids.contains m.scope)
  || s.allCrews.any (fun (_, w) => w.tiles.any fun t =>
       match t.arming with
       | none => false
       | some a => a.entries.any fun e => e.reserved.isSome && !e.applied && (match e.from_ with | some (q, i) => q == p && ids.contains i | none => false))

/-- The subtree of a scope is empty (R90). -/
def subtreeEmpty (s : State) (p id : Nat) : Bool := !s.hasWork p (id :: s.subtree p id)

/-- Opening a scope under a parent, or as a root (R88): the entry written, or none where it fails. -/
def openScope? (s : State) (p id : Nat) (parent : Option Nat) (acka : Dword) (opas : BitVec 20) (hroot : Bool) : Option ScopeEnt :=
  let e := s.scope p id
  let usable := e.st == .free || (e.st == .cancelled && s.subtreeEmpty p id)
  match parent with
  | none =>
    if usable then some { ScopeEnt.free with st := .opened, parent := BitVec.ofNat 16 id, depth := 1, hroot := hroot, acka := acka, opas := opas } else none
  | some q =>
    let pe := s.scope p q
    if usable && pe.st == .opened && decide (pe.depth.toNat < 15) then
      some { ScopeEnt.free with st := .opened, parent := BitVec.ofNat 16 q, depth := pe.depth + 1, acka := acka, opas := opas }
    else none

/-- The cancel of a scope is in force on a die: the scope or an ancestor is cancelled there (R92, R98). -/
def cancelledOn (s : State) (p : Nat) (die : Nat) : Nat → Nat → Bool
  | 0, id => ((s.scope p id).st == .cancelling || (s.scope p id).st == .cancelled) && (s.scope p id).applied.contains die
  | f + 1, id =>
    let e := s.scope p id
    (((e.st == .cancelling || e.st == .cancelled) && e.applied.contains die)
      || (e.st != .free && e.st != .opened && e.parent.toNat != id && s.cancelledOn p die f e.parent.toNat))

/-! ## Completion of packets (R48, R50) -/

def packet? (s : State) (id : Nat) : Option Packet := s.packets.find? fun k => k.id == id
def modPacket (s : State) (id : Nat) (f : Packet → Packet) : State := { s with packets := modFirst s.packets (fun k => k.id == id) f }

/-- A packet's operation completes: the record that is to be written, word by word (R48). -/
def complete (s : State) (id result : Nat) (opv : Dword) (exc : Byte) (trap : Option FirstTrap) (crews : Nat) : State :=
  s.modPacket id fun k =>
    let w0 := k.w.getD 0 0
    let stat := 2 ^ 63 + (match trap with | some _ => 2 ^ 56 | none => 0) + result * 2 ^ 48 + exc.toNat * 2 ^ 40
      + (match trap with | some t => t.cause.toNat * 2 ^ 32 | none => 0) + bits w0 23 16 * 2 ^ 24 + bits w0 43 28
    { k with comp := some [BitVec.ofNat 64 stat, k.tstart, s.times.getD (16 + k.fn / 32) 0,
        (match trap with | some t => t.faddr | none => 0), (match s.launches.find? fun l => l.pkt == some id with | some l => l.energy | none => 0), BitVec.ofNat 64 crews, opv, 0] }

/-- The LAUNCH packet of a function that opened a scope and whose launch has not begun (R81). -/
def waitingLaunch? (s : State) (p id : Nat) : Option Packet :=
  s.packets.find? fun k => k.fn == p && k.begun && k.comp.isNone && bits (k.w.getD 0 0) 23 16 == 1 && bits (k.w.getD 3 0) 15 0 == id

/-- A partition has work in the present control interval (R62). -/
def workOf (s : State) (p : Nat) : State := if s.worked.contains p then s else { s with worked := p :: s.worked }

/-- A launch that ends within a control interval has its share of that interval too: a free value, which the partition's attribution will hold (R62; log 37). -/
def lastShare (s : State) (l : Launch) : State :=
  if l.ran then
    let x := Config.freeDword s.free
    { (s.modLaunch l.part l.id fun l => { l with energy := l.energy + x }) with spent := (l.part, x.toNat) :: s.spent, free := s.free + 1 }
  else s

/-- The completion of the host LAUNCH whose root scope this is (R48, R50). -/
def completeLaunch (s : State) (p id result : Nat) : State :=
  match s.launches.find? fun l => l.part == p && l.pkt.isSome && l.task.scopeId == id with
  | none => (match s.waitingLaunch? p id with | some k => s.complete k.id result 0 0 none 0 | none => s)
  | some l =>
    match l.pkt with
    | none => s
    | some k =>
      let r := if result == 0 && l.trap.isSome then 2 else result
      { (s.lastShare l).complete k r 0 l.exc l.trap l.retired with launches := s.launches.filter fun m => !(m.part == p && m.id == l.id) }

/-- A scope that was never cancelled and whose subtree is empty returns to FREE; a host root completes its LAUNCH (R91). What is acknowledged in its subtree at
that moment comes first (R97, R99). Launches that have no packet end with the work of their scope's subtree (R79). -/
def freeScopes (s : State) (p : Nat) : State :=
  let ids := s.scopes.filterMap fun (k, e) => if k / 65536 == p && e.st == .opened then some (k % 65536) else none
  let s1 := ids.foldl (fun s x =>
    if (s.scope p x).st == .opened && s.subtreeEmpty p x && (s.subtree p x).all (fun y => (s.scope p y).pend == 0) then
      let h := (s.scope p x).hroot
      let s := s.setScope p x ScopeEnt.free
      if h then s.completeLaunch p x 0 else s
    else s) s
  { s1 with launches := s1.launches.filter fun l => !(l.part == p && l.pkt.isNone && l.stopped && l.alive == 0 && s1.subtreeEmpty p l.task.scopeId) }

/-! ## Join cells (R74 to R76) -/

/-- Name a join cell: its COUNT is one from now on (log 12). -/
def nameCell (s : State) (p pasid : Nat) (va : Dword) (party : Nat := 104) : State :=
  match s.devCheck party p pasid va 8 .read true false with
  | .ok pa => if s.cells.contains pa then s else { s with cells := s.cells ++ [pa] }
  | .err _ => s

/-- A released record joins the queues of a die; where there is no room it is held, as it is now, until there is (R77, R81). -/
def queueReleased (s : State) (d : Nat) (c : HeldCell) : State :=
  if s.queueRoom d c.part then
    let s := s.putRec d { part := c.part, pasid := c.pasid, prio := c.task.prio, bin := binOf c.task.key, task := c.task, root := none, saved := none, byGen := false,
                          spilled := false, addr := c.cell + 64, pkt := none, reset := c.reset }
    if c.task.succ != 0 then s.nameCell c.part c.pasid.toNat c.task.succ (96 + d) else s
  else s.modDie d fun x => { x with cells := x.cells ++ [c] }

/-- The release of a cell (R76): the parked record is queued on a die, discarded, or counted malformed. The launch named replaces the record's own. DESIGN CHOICE (log
82): a cell or record that is malformed is counted so (0x8A, 0x88) before its scope is looked at, an order that R71 and R76 do not give. -/
def releaseCell (s : State) (d p : Nat) (pasid : BitVec 20) (cell : Dword) (launch : Option Word) : State :=
  let ps := pasid.toNat
  match s.vaFault p ps cell 16 (96 + d) with
  | some e => (s.testWords p ps cell 16 (96 + d)).countFault p (launch.getD 0) d (e.code 0x50) cell
  | none =>
    let t0 := readTask s p ps (cell + 64) (96 + d)
    let id := launch.getD t0.launch
    let t := { t0 with launch := id }
    let rsvd := (List.range 7).any fun i => wordAt s p ps cell (i + 1) (96 + d) != 0
    if rsvd then s.countFault p id d 0x8A cell
    else if t.isRoot || taskBad s p ps t (96 + d) then (s.testWords p ps t.code 8 (96 + d)).countFault p id d 0x88 (cell + 64)
    else match (s.scope p t.scopeId).st with
      | .free => s.countFault p id d 0x8F cell
      | .cancelling => s
      | .cancelled => s
      | .opened => s.queueReleased d ⟨p, pasid, cell, t, false⟩

/-- A device-scope atomic add of the hardware's own parties on a 64-bit word (R75, R79, R97, R153): the state after it, or its fault. A cell whose COUNT
goes from non-zero to 0 is released, on the die given or on the die that holds it (R81). -/
def devAdd (s : State) (p : Nat) (pasid : BitVec 20) (va : Dword) (n : Dword) (qdie : Option Nat) (launch : Option Word) (party : Nat := 104) : State × Option XErr :=
  match s.devCheck party p pasid.toNat va 8 .write true false with
  | .err e => (s.testVa p pasid.toNat va 8 party, some e)
  | .ok pa =>
    if s.devPoisoned pa 8 then (s.startTest (pa / 4096), some .uncorrectable)
    else
      let old := s.dev64 pa
      let new := old + n
      let s1 := s.devWrite pa (leBytes 8 new.toNat)
      if s.cells.contains pa && old != 0 && new == 0 then (s1.releaseCell (qdie.getD (dieOfPa pa)) p pasid va launch, none) else (s1, none)

/-- The successor's decrement of a crew or record (R75, R95); a fault is cause 0x8E. What a reset has ended makes none (R58). -/
def succDecrement (s : State) (d p : Nat) (pasid : BitVec 20) (succ : Dword) (launch : Word) (reset : Bool) : State :=
  if succ == 0 || reset then s
  else
    match (s.nameCell p pasid.toNat succ (96 + d)).devAdd p pasid succ (BitVec.allOnes 64) (some d) (some launch) (96 + d) with
    | (s, none) => s
    | (s, some _) => s.countFault p launch d 0x8E succ

/-- A record of a launch has retired or been killed: one fewer of its step (R79). -/
def recordEnded (s : State) (p : Nat) (id : Word) (byGen retired : Bool) : State :=
  s.modLaunch p id fun l => { l with alive := if byGen then l.alive - 1 else l.alive, retired := if retired then l.retired + 1 else l.retired }

/-! ## Acceptance and acknowledgement of cancels (R92, R97) -/

/-- The root of the tree that holds a scope (R88); none where a scope on the way to it is FREE and so has no parent (R91). -/
def rootOf (s : State) (p : Nat) : Nat → Nat → Option Nat
  | 0, _ => none
  | f + 1, x =>
    if (s.scope p x).st == .free then none
    else if (s.scope p x).parent.toNat == x then some x else s.rootOf p f (s.scope p x).parent.toNat

/-- The add at ACKA, with what its fault leaves (R97, R99). There is none for the cancels of a reset (R58). -/
def ackAdd (s : State) (p id : Nat) (n : Dword) : State :=
  let e := s.scope p id
  if e.acka == 0 || e.mute then s
  else match s.devAdd p e.opas e.acka n none none with
    | (s1, none) => s1
    | (s0, some x) =>
      let root := s.rootOf p 16 id
      let s1 := s0.setScope p id { e with aerr := true }
      match s.launches.find? fun l => l.part == p && l.pkt.isSome && some l.task.scopeId == root with
      | some l => s1.countFault p l.id l.home (x.code 0x50) e.acka
      | none => s1

/-- The acknowledgement of a scope whose subtree is empty (R97). -/
def ackScope (s : State) (p id : Nat) : State :=
  let n := (s.scope p id).pend
  let s1 := (s.subtree p id).foldl (fun s x => s.setScope p x { s.scope p x with st := .cancelled }) s
  let e := s1.scope p id
  let s2 := (s1.setScope p id { e with ackv := e.ackv + n.setWidth 64 }).ackAdd p id (n.setWidth 64)
  let e2 := s2.scope p id
  let s3 := s2.setScope p id { e2 with pend := 0, packets := [] }
  let own := if e2.hroot then ((s3.launches.find? fun l => l.part == p && l.pkt.isSome && l.task.scopeId == id).bind (·.pkt)).or
      ((s3.waitingLaunch? p id).map (·.id)) else none
  let s4 := if e2.hroot then s3.completeLaunch p id 1 else s3
  let s5 := e2.packets.foldl (fun s k => s.complete k 0 e2.ackv 0 none 0) s4
  (own.toList ++ e2.packets).zipIdx.foldl (fun s (k, i) => s.modPacket k fun x => { x with acked := true, after := (own.toList ++ e2.packets).take i }) s5

/-- What an accepted cancel does (R92): PEND, the states of the subtree, and the broadcast, from a C-die or an X-die, to the dies that the fabric's firewall lets
it reach (R17). A cancel of a CANCELLED scope whose subtree is empty is acknowledged at once (R97). -/
def acceptCancel (s : State) (p id : Nat) (pkt : Option Nat) (src : Option Nat) : State :=
  let e := s.scope p id
  let s1 := s.setScope p id { e with pend := e.pend + 1, packets := e.packets ++ pkt.toList }
  if e.st == .cancelled && s.subtreeEmpty p id then (s1.ackScope p id).freeScopes p
  else
    let s2 := if e.st == .opened then
        (s1.subtree p id).foldl (fun s x => let y := s.scope p x; if y.st == .opened then s.setScope p x { y with st := .cancelling } else s) s1
      else s1
    ((fenceDies s (fenceOf s p)).filter fun d => match src with | some a => dieRoute s a d | none => true).foldl (fun s d => s.modDie d fun x => { x with cancels := x.cancels ++ [(p, id)] }) s2

end State

end Sys2Proof.Machine
end

