-- ==== Sys2Proof/Machine/Ops.lean ====
section
/-!
DEFINITION. What groups and crews undergo: the paddle (R108), barriers (R320), the end of groups and crews (R75, R95, R96, R109), interruption (R127,
R133), taking a trap and returning from the handler (R182 to R188), and the fault queue (R184).
-/
namespace Sys2Proof.Machine

/-! ## The paddle (R108) -/

/-- A free paddle goes to the oldest request. -/
def Core.grant (k : Core) : Core :=
  match k.paddle, k.paddleReq with
  | none, c :: t => { k with paddle := some c, paddleReq := t }
  | _, _ => k


/-- A crew gives the paddle up, and asks no more. -/
def Core.dropPaddle (k : Core) (c : Nat) : Core :=
  { k with paddle := if k.paddle == some c then none else k.paddle, paddleReq := k.paddleReq.filter fun x => x != c }.grant

/-- The hand-over at pass: another crew's oldest request takes the paddle, and the passing crew asks again at once. -/
def Core.handOver (k : Core) (c : Nat) : Core :=
  if k.paddle == some c then
    match k.paddleReq with
    | [] => k
    | d :: t => { k with paddle := some d, paddleReq := t ++ [c] }
  else k

/-- A crew asks for the paddle that it does not own. A request in the cycle of another crew's pass counts as pending at that pass (R123). -/
def Core.askPaddle (k : Core) (c : Nat) : Core :=
  if k.paddle == some c then k
  else
    let k := if k.paddleReq.contains c then k.grant else { k with paddleReq := k.paddleReq ++ [c] }.grant
    match k.passed with
    | some p => { k.handOver p with passed := none }
    | none => k

/-- A live group of the crew at stage 0 waits for the paddle (R323). -/
def Crew.waitsPaddle (w : Crew) : Bool :=
  w.groups.any fun g => g.live && w.stage g.gid == 0 && g.splits.any fun p => match p.waiting with | some x => x.conds.contains .paddle | none => false

/-- A group that has become stage 0 and waits for the paddle asks for it at once (R108). -/
def askWaiters (s : State) (core slot : Nat) : State :=
  match s.crew? core slot with
  | some w => if w.waitsPaddle then s.modCore core fun k => k.askPaddle slot else s
  | none => s

/-! ## Barriers and ROUND (R109, R320) -/

/-- A phase of a barrier completes when some group has arrived at it, and with the ended groups that have not they are as many as the count (R320). -/
def Crew.barrierDone (w : Crew) (b : Barrier) : Bool :=
  match b.count with
  | none => false
  | some c => b.arr.length != 0 && decide (c ≤ b.arr.length + (w.groups.filter fun g => !g.live && !b.arr.contains g.gid).length)

/-- Complete every phase that is due. -/
def Crew.settleBarriers (w : Crew) : Crew :=
  { w with bars := Vector.ofFn fun i =>
      let b := w.bars[i]
      if w.barrierDone b then { bph := b.bph + 1, arr := [], count := none } else b }

/-- Stage 0 is held by a live group, or no group lives. -/
def Crew.stage0Live (w : Crew) : Bool := w.groups.any (fun g => g.live && w.stage g.gid == 0) || !w.groups.any fun g => g.live

/-- ROUND advances, as by pass, until the stage-0 group is live (R109). -/
def advanceRound (core slot : Nat) : Nat → State → State
  | 0, s => s
  | f + 1, s =>
    match s.crew? core slot with
    | none => s
    | some w =>
      if w.stage0Live then s
      else advanceRound core slot f (askWaiters ((s.modCrew core slot fun w => { w with round := w.round + 1 }).modCore core fun k => k.handOver slot) core slot)

/-! ## Fields of a command (R152) -/

namespace Cmd

def kind (m : Cmd) : Nat := bits m.w0 3 0
def ssp (m : Cmd) : Nat := bits m.w0 6 4
def dsp (m : Cmd) : Nat := bits m.w0 9 7
/-- Element size in bytes. -/
def es (m : Cmd) : Nat := 2 ^ bits m.w0 11 10
def rows (m : Cmd) : Nat := bits m.w0 23 12 + 1
def sstr (m : Cmd) : Nat := bits m.w0 43 24
def dstr (m : Cmd) : Nat := bits m.w0 63 44
/-- The source end lies in peer space; a cellar stream's SSP is a snapshot id. -/
def srcPeer (m : Cmd) : Bool := m.ssp == 3 && m.kind != 6
def dstPeer (m : Cmd) : Bool := m.dsp == 3
def src (m : Cmd) : Nat := if m.srcPeer then bits m.w1 61 0 else bits m.w1 56 0
def dst (m : Cmd) : Nat := if m.dstPeer then bits m.w2 61 0 else bits m.w2 56 0
/-- ROWL, by the ends that lie in peer space. -/
def rowl (m : Cmd) : Nat :=
  match m.srcPeer, m.dstPeer with
  | false, false => bits m.w1 63 57 * 128 + bits m.w2 63 57
  | true, false => bits m.w2 63 57
  | false, true => bits m.w1 63 57
  | true, true => bits m.w1 63 62 * 4 + bits m.w2 63 62
/-- Elements per row. -/
def len (m : Cmd) : Nat := m.rowl + 1
/-- Elements in all. -/
def count (m : Cmd) : Nat := m.rows * m.len
/-- CSP: the counter lies in the scratchpad. -/
def csp (m : Cmd) : Bool := m.w3.getLsbD 53
def inc (m : Cmd) : Nat := bits m.w3 59 54
/-- The counter's address (R153). -/
def ctr (m : Cmd) : Dword := BitVec.ofNat 64 (bits m.w3 52 0 * 16)
/-- Distance between source rows, in bytes. -/
def srcRow (m : Cmd) : Nat := if m.sstr == 0 then m.len * m.es else m.sstr * m.es
/-- Distance between destination rows, in bytes; a transpose writes rows of as many elements as the source has rows. -/
def dstRow (m : Cmd) : Nat := if m.dstr == 0 then (if m.kind == 1 then m.rows else m.len) * m.es else m.dstr * m.es

end Cmd

/-! ## Crews that end (R75, R95) -/

/-- Every group of the crew has ended. -/
def Crew.ended (w : Crew) : Bool := w.groups.all fun g => !g.live

/-- The ranges of bytes, address and length, that a command writes. -/
def Cmd.dstSpans (m : Cmd) : List (Nat × Nat) :=
  match m.kind with
  | 1 => (List.range m.len).map fun e => (m.dst + e * m.dstRow, m.rows * m.es)
  | 3 => [(m.dst, 16), (m.dst + 16 * (m.dstr + 1), 16 * m.count)]
  | 5 => []
  | _ => (List.range m.rows).map fun i => (m.dst + i * m.dstRow, m.len * m.es)

/-- Those that it reads; the pages of a snapshot lie in no space. -/
def Cmd.srcSpans (m : Cmd) : List (Nat × Nat) :=
  match m.kind with
  | 2 => []
  | 4 => [(m.src, 16), (m.src + 16 * (m.sstr + 1), 16 * m.count)]
  | 6 => []
  | _ => (List.range m.rows).map fun i => (m.src + i * m.srcRow, m.len * m.es)

/-- The peer ports that ranges of addresses lie behind (R139). -/
def portsOf (spans : List (Nat × Nat)) : List Nat :=
  ((spans.flatMap fun (a, n) => [a / 2 ^ 57, (a + n - 1) / 2 ^ 57]).filter (decide <| · < 24)).eraseDups

/-- The ports that a command reads through, and those that it writes through. -/
def Cmd.srcPorts (m : Cmd) : List Nat := if m.srcPeer then portsOf m.srcSpans else []
def Cmd.dstPorts (m : Cmd) : List Nat := if m.dstPeer then portsOf m.dstSpans else []

/-- A port has traffic of an access or a command still to carry. -/
def Port.carries (p : Port) (id : Nat) : Bool := p.reqs.contains id || p.await.contains id || p.bulk.any fun e => e.1 == id

/-- An access or a command needs a port no longer. -/
def Port.forget (p : Port) (id : Nat) : Port :=
  { p with reqs := p.reqs.filter (· != id), await := p.await.filter (· != id), bulk := p.bulk.filter fun e => e.1 != id }

/-- The error word of a fault (R153). -/
def errWord (cause ek addr : Nat) : Dword := BitVec.ofNat 64 (cause * 2 ^ 56 + ek * 2 ^ 54 + addr % 2 ^ 54)

/-- The error word of a fault at an address. -/
def errAt (cause addr : Nat) : Dword := errWord cause 0 (addr / 8)

/-- An end of a command lies in the scratchpad of the crew that posted it, named as its own or through the cluster. -/
def Cmd.own (m : Cmd) (sp : Nat) (spans : List (Nat × Nat)) : Bool :=
  let lo := m.core % 8 * 2 ^ 24 + m.crew * 2 ^ 19
  !spans.isEmpty && (sp == 0 || (sp == 1 && decide (m.crew < 32) && spans.any fun (a, n) => decide (a < lo + 2 ^ 19) && decide (lo < a + n)))

/-- A started command writes its crew's scratchpad or grist, or has a counter in the scratchpad (R157). -/
def Cmd.holds (m : Cmd) : Bool := m.own m.dsp m.dstSpans || m.dsp == 5 || m.csp

/-- A started command has an end or its counter in the scratchpad of the crew that posted it, or writes its grist. -/
def Cmd.touches (m : Cmd) : Bool := m.holds || m.own m.ssp m.srcSpans

/-- The grist of a core is another partition's than this, and a grist load that a crew of it has started is not complete (R157). -/
def gristBusy (s : State) (core part : Nat) : Bool :=
  let old := (s.core core).gristPart
  old != part && (s.cluster (clusterOf core)).cmds.any fun m => m.core == core && m.part == old && m.kind == 5

/-- Every access that the crew's groups issued has been performed (R75), and its Tun and table work has ended (log 13). A killed crew's started commands that
need its storage have completed (R93). -/
def crewQuiet (s : State) (core : Nat) (w : Crew) (killed : Bool) : Bool :=
  (!killed || (s.cluster (clusterOf core)).cmds.all fun m => m.uid != w.uid || !m.touches)
    && w.groups.all (fun g => g.outs.all fun o => o.kind == .load || o.kind == .special || o.far.isNone)
    && (s.core core).tun.all (fun t => t.crew != w.slot || (killed && match t.kind with | .mdrainp .. => false | _ => true))
    && (s.core core).ctabPend.all (fun e => e.1 != w.slot)

/-- A destination of the sender's partition and launch whose arming names it: the entry counts as delivered with nothing added, if no message has reserved it. -/
def Crew.senderGone (d w : Crew) (core : Nat) : Crew :=
  let fix := fun (e : ArmEntry) => if e.core == core % 96 && e.crew == w.home && e.reserved.isNone && !e.applied then { e with cancelled := true } else e
  if d.part == w.part && d.task.launch == w.task.launch then
    { d with tiles := d.tiles.map fun t => { t with arming := t.arming.map fun a => { a with entries := a.entries.map fix } } }
  else d

/-- Messages that the crew has not sent count as delivered with nothing added; the destinations, resident or saved, report a cancelled sender (R95, R314). -/
def cancelSender (s : State) (core : Nat) (w : Crew) : State :=
  { s with
    cores := s.cores.map fun (c, k) => if dieOf c == dieOf core then (c, { k with crews := k.crews.map fun d => d.senderGone w core }) else (c, k)
    dies := s.dies.map fun (d, x) => if d == dieOf core then (d, { x with queue := x.queue.map fun q => { q with saved := q.saved.map fun v => v.senderGone w core } }) else (d, x) }

/-- A crew leaves its core, which takes its resources back: paddle, Tun work, tiles, storage (R75, R95). -/
def removeCrew (s : State) (core : Nat) (w : Crew) : State :=
  s.modCore core fun k =>
    { k.dropPaddle w.slot with
      crews := k.crews.filter fun x => x.slot != w.slot
      tun := k.tun.filter fun t => t.crew != w.slot
      cands := k.cands.filter fun c => c.crew != w.slot
      tiles := k.tiles.map fun t => if t.owner == some w.ctxId then { t with owner := none, current := false } else t }

/-- A crew has retired or been killed: its successor is decremented, its flags merge into its launch, its resources return (R75, R95, R188). -/
def crewEnds (s : State) (core : Nat) (w : Crew) : State :=
  let d := dieOf core
  let id := w.task.launch
  let s := s.succDecrement d w.part w.pasid w.task.succ id (w.killed && w.reset)
  let s := if w.killed then cancelSender s core w else s
  let s := s.modLaunch w.part id fun l => { l with exc := l.exc ||| w.flags }
  let s := s.recordEnded w.part id w.byGen (!w.killed)
  (removeCrew s core w).freeScopes w.part

/-- A killed crew ends in the step in which its last group dies (R94, R95), unless a message it has accepted is still to be sent. -/
def killedEnds (s : State) (core slot : Nat) : State :=
  match s.crew? core slot with
  | none => s
  | some w => if w.killed && w.ended && crewQuiet s core w true then crewEnds s core w else s

/-- A group ends, by exit or by dying: its results are discarded, its flags merge into the crew, it counts as arrived at every barrier, and ROUND goes on if
it held stage 0 (R96, R109, R188, R245). -/
def groupEnds (s : State) (core slot gid : Nat) (dies : Bool) : State :=
  let s := s.modCrew core slot fun w =>
    let f := match w.group? gid with | some g => g.flags | none => 0
    ({ w.modGroup gid fun g =>
        { g with live := false, splits := [], stack := [], outs := g.outs.filter fun (o : Out) => o.kind == OutKind.store || o.kind == OutKind.atomic,
                 fwait := none, openToken := none, pendTrap := none, heldTraps := [], handler := none } with
      flags := w.flags ||| f, killed := w.killed || dies }).settleBarriers
  killedEnds (advanceRound core slot 16 s) core slot

/-- A split that a cancel or a kill ends at once: in wait, at a barrier, in cdrain, cpost or mdrainp (R93). -/
def Crew.splitWaits (w : Crew) (p : Split) : Bool :=
  p.waiting.isSome
  || (match p.barWait with | some (b, n) => decide ((w.bars.getD b ⟨0, [], none⟩).bph.toNat < n.toNat) | none => false)
  || (match p.parked with | some (.phase _ _) => true | some .ring => true | some (.drain _ _) => true | some (.target _ _ _) => true | _ => false)

/-- A group that a cancel or a kill ends at once (R93, R193): a waiting one, one halted or parked on a fault, one in handler mode. -/
def Crew.groupWaits (w : Crew) (g : Group) : Bool :=
  g.live && (w.halted || g.stopped || g.fwait.isSome || g.handler.isSome || g.splits.any w.splitWaits)

/-- No word of a group is selected and not yet executed, and no reduction or scan of it is in progress (R60, R290). -/
def atBoundary (s : State) (core slot gid : Nat) (g : Group) : Bool :=
  !(s.issueQ.any fun u => u.r.core == core && u.r.crew == slot && u.r.gid == gid) && decide (g.holdUntil ≤ (s.core core).cyc.toNat)

/-- End every group of a crew that cannot reach a kill point of its own; one whose words are still under way, once they have ended (R60, R94, R297). -/
def killWaiting (s : State) (core slot : Nat) : State :=
  match s.crew? core slot with
  | none => s
  | some w => (w.groups.filter fun g => w.groupWaits g && atBoundary s core slot g.gid g).foldl (fun s g => groupEnds s core slot g.gid true) s

/-- The group dies at its next kill point: its scope is cancelled on the die, or its crew was killed by an unhandled trap (R93, R183). -/
def groupDoomed (s : State) (core : Nat) (w : Crew) (g : Group) : Bool := g.doomed || s.cancelledOn w.part (dieOf core) 15 w.task.scopeId

/-- The groups of a crew that is to stop, and that a cancel or a kill dooms, die at the stop: the cancel comes first (R61, R93, R100). -/
def killDoomed (s : State) (core slot : Nat) : State :=
  match s.crew? core slot with
  | none => s
  | some w => (w.groups.filter fun g => g.live && groupDoomed s core w g).foldl (fun s g => groupEnds s core slot g.gid true) s

/-- A group that has come to a point at which a cancel or a kill ends it at once ends there (R93, R100, R193). -/
def endIfWaits (s : State) (core slot gid : Nat) : State :=
  match s.crew? core slot with
  | none => s
  | some w =>
    match w.group? gid with
    | none => s
    | some g => if groupDoomed s core w g && w.groupWaits g && atBoundary s core slot gid g then groupEnds s core slot gid true else s

/-- The groups of a core that a cancel or a kill ends at once, and whose words have ended meanwhile, end. -/
def settleDoomed (s : State) (core : Nat) : State :=
  ((s.core core).crews.flatMap fun w => w.groups.map fun g => (w.slot, g.gid)).foldl (fun s (w, g) => endIfWaits s core w g) s

/-! ## Discarded records (R93, R95) -/

/-- A saved crew that is killed: as every killed crew, but that it holds no core (R93, R95, R103). The flags of its groups merge into its launch. -/
def killSaved (s : State) (d : Nat) (w : Crew) : State :=
  let f := w.groups.foldl (fun (a : Byte) g => a ||| g.flags) w.flags
  let s1 := cancelSender (s.succDecrement d w.part w.pasid w.task.succ w.task.launch w.reset) w.lastCore w
  (s1.modLaunch w.part w.task.launch fun l => { l with exc := l.exc ||| f }).recordEnded w.part w.task.launch w.byGen false

/-- A record that has left its queue without running: its successor is decremented, on this die (R81, R93, R95). A launch root has none (R69). -/
def discardRec (s : State) (d : Nat) (q : QRec) : State :=
  match q.saved, q.root with
  | some w, _ => killSaved s d w
  | none, some _ => s
  | none, none => (s.succDecrement d q.part q.pasid q.task.succ q.task.launch q.reset).recordEnded q.part q.task.launch q.byGen false

/-- Discard the records of a die that satisfy a condition. -/
def discardWhere (s : State) (d : Nat) (f : QRec → Bool) : State :=
  ((s.die d).queue.filter f).foldl (fun s q => discardRec s d q) (s.modDie d fun x => { x with queue := x.queue.filter fun q => !f q })

/-- Discard the records of released cells that wait for room on a die and satisfy a condition. -/
def discardCells (s : State) (d : Nat) (f : HeldCell → Bool) : State :=
  ((s.die d).cells.filter f).foldl (fun s c => s.succDecrement d c.part c.pasid c.task.succ c.task.launch c.reset)
    (s.modDie d fun x => { x with cells := x.cells.filter fun c => !f c })

/-- The generators of cancelled launches stop on a die; on the home die the launch makes no further step (R93, R100). -/
def stopGenerators (s : State) (d p : Nat) (ids : List Nat) : State :=
  { s with launches := s.launches.map fun l =>
      if l.part == p && ids.contains l.task.scopeId then
        { l with slots := l.slots.map (fun x => if x.die == d then { x with next := x.stop } else x), stopped := l.stopped || l.home == d }
      else l }

/-- A cancel takes effect on a crew: its unstarted commands are discarded, its cycles to a kill point count from now, and what waits dies (R93, R94). -/
def cancelCrew (s : State) (core slot : Nat) : State :=
  let cyc := (catchUp s core (s.core core)).cyc
  killWaiting (s.modCrew core slot fun w => { w with take := w.pub, killAt := w.killAt.or (some cyc) }) core slot

/-- A cancel takes effect on a die for the scopes of a subtree (R92, R93). -/
def applyCancel (s : State) (d p id : Nat) : State :=
  let ids := (s.subtree p id).filter fun x => (s.scope p x).st == .cancelling || (s.scope p x).st == .cancelled
  let s1 := ids.foldl (fun s x => let e := s.scope p x; s.setScope p x { e with applied := if e.applied.contains d then e.applied else e.applied ++ [d] }) s
  let hits := s1.allCrews.filter fun (c, w) => dieOf c == d && w.part == p && ids.contains w.task.scopeId
  let s2 := hits.foldl (fun s (c, w) => cancelCrew s c w.slot) s1
  let s3 := discardWhere s2 d fun q => q.part == p && ids.contains q.task.scopeId
  let s4 := discardCells s3 d fun q => q.part == p && ids.contains q.task.scopeId
  (stopGenerators s4 d p ids).freeScopes p

/-- The broadcast of a cancel has reached a die, if it is still under way to it. -/
def cancelHere (s : State) (d p id : Nat) : State :=
  if (s.die d).cancels.contains (p, id) then applyCancel (s.modDie d fun x => { x with cancels := x.cancels.erase (p, id) }) d p id else s

/-! ## Interruption (R127, R133) -/

/-- The equivalence point id of an se word (R246). -/
def seIdOf (w : Dword) : Option (BitVec 16) :=
  if majOf w == 6 && fnOf w == 0 && w.extractLsb' 32 20 == 0 && w.extractLsb' 16 16 == 0 then some (w.setWidth 16) else none

/-- The word at an offset of the encoding in use, as fetched on the IF path; zero where it cannot be. -/
def codeWord (s : State) (core : Nat) (w : Crew) (off : Pcoff) : Dword :=
  match s.devCheck (clusterOf core) w.part w.pasid.toNat (w.addrOf core off) 8 .fetch true false with
  | .ok pa => s.dev64 pa
  | .err _ => 0

/-- The equivalence point of each set of lanes (R133): a split's, or the point it was stopped before; a parked entry's; for lanes that have arrived at a
join, that of the se after it, and none where no se stands there. -/
def lanePoints (s : State) (core : Nat) (w : Crew) (g : Group) : List (Mask × Option Nat) :=
  g.splits.map (fun p => (p.mask, some (match p.atSe with | some e => e | none => p.ep.toNat)))
  ++ g.stack.map fun e =>
    match e.kind with
    | .park => (e.mask, some e.ep.toNat)
    | .mark => (e.arr, (seIdOf (codeWord s core w (e.pcoff + 1))).map (·.toNat))

/-- A split goes on where it is, and not at its entry (R133). -/
def Split.stays (p : Split) : Bool := p.closed || p.barWait.isSome || p.atSe.isSome

/-- The lanes that go on where they are: those of splits that stay, and those that have arrived at a join. -/
def Group.staying (g : Group) : Mask :=
  (g.splits.filter Split.stays).foldl (fun (a : Mask) p => a ||| p.mask) ((g.stack.filter fun e => e.kind == .mark).foldl (fun (a : Mask) e => a ||| e.arr) 0)

/-- An M register's contents (R124): what has been written, zero in a unit that another partition has used last (R59), or free values (R73, R127). -/
def Group.readM (g : Group) (i : Nat) : Lanes :=
  match g.m.find? fun e => e.1 == i with
  | some (_, v) => v
  | none => if g.mzero.contains (i / 32) then zeroLanes else ofLanes fun l => Config.freeWord g.mseed i l

/-- The M registers after an interruption: survivors of each lane's point keep their contents, everything else is free (R127); the lanes of whole keep every
register. -/
def keepSurvivors (s : State) (core : Nat) (w : Crew) (g : Group) (whole : Mask) : SMap Lanes :=
  let l := isL core
  let pts := (lanePoints s core w g).map fun (m, e) =>
    (m, match e.bind (fun e => eqPoint? s w.part w.pasid.toNat w.code w.task.regs e (clusterOf core)) with
        | some p => p.pairs.map fun (q : Nat × Nat) => if l then q.2 else q.1
        | none => [])
  (List.range (32 * w.task.regs)).filterMap fun i =>
    let mk := pts.foldl (fun (a : Mask) (m, ix) => if ix.contains i then a ||| m else a) whole
    if mk == 0 then none else some (i, mergeLanes mk (g.readM i) (ofLanes fun x => Config.freeWord s.free i x))

/-- Write a register's lanes; S and K whole. -/
def Group.write (g : Group) (r : Reg) (m : Mask) (v : Val) : Group :=
  match r, v with
  | .m i, .vec x => { g with m := g.m.put i (mergeLanes m x (g.readM i)) }
  | .o i, .vec x => { g with o := vmod g.o i fun y => mergeLanes m x y }
  | .x i, .vec x => { g with x := vmod g.x i fun y => mergeLanes m x y }
  | .s i, .sc x => { g with s := vmod g.s i fun _ => x }
  | .k i, .sc x => { g with k := vmod g.k i fun _ => x.setWidth 32 }
  | _, _ => g

/-- A number for a register, to draw free choices by. -/
def Reg.num : Reg → Nat
  | .m i => i
  | .o i => 256 + i
  | .x i => 512 + i
  | .s i => 768 + i
  | .k i => 896 + i

/-- Where a free choice is drawn: M registers are read once by a word (R116), others once for each source position. -/
def place (pos : Nat) : Reg → Nat
  | .m i => i
  | r => 1024 * pos + r.num

/-- The contents of a register of lanes in the group's files. -/
def Group.readVec (g : Group) : Reg → Lanes
  | .m i => g.readM i
  | .o i => g.o.getD i zeroLanes
  | .x i => g.x.getD i zeroLanes
  | _ => zeroLanes

/-- The lanes of an outstanding result that keep what other words have written to them, of each the bits: for each of those words either value stays, lane by
lane (R118). -/
def Out.keptBits (n : Nat) (o : Out) (r : Reg) (l : Nat) : Word :=
  o.contested.zipIdx.foldl (fun a (e, i) => if e.1 == r && e.2.1.getLsbD l && !Config.freeBit n (4096 * i + place 0 r) l then a ||| e.2.2 else a) 0

/-- A split whose words do not come after an access sees what the access writes, or what was there before (R224). -/
def Group.outHazard (g : Group) (n : Nat) (o : Out) (r : Reg) (old : Val) : Group :=
  let h : Hazard := ⟨n, r, o.lanes, old, none⟩
  { g with
    splits := g.splits.map fun p => if p.num == o.split || p.past.contains o.id then p else { p with view := h :: p.view }
    stack := g.stack.map fun e => if e.past.contains o.id then e else { e with view := h :: e.view } }

/-- Write an outstanding result. -/
def writeOut (n : Nat) (g : Group) (o : Out) (d : Reg × Val) : Group :=
  match d.2 with
  | .vec v =>
    let cur := g.readVec d.1
    (g.outHazard n o d.1 (.vec cur)).write d.1 o.lanes (.vec (ofLanes fun l =>
      let k := o.keptBits n d.1 l
      (lane cur l &&& k) ||| (lane v l &&& ~~~k)))
  | .sc _ =>
    if (List.range 32).any fun l => o.keptBits n d.1 l != 0 then g
    else (g.outHazard n o d.1 (match d.1 with | .s i => .sc (g.s.getD i 0) | .k i => .sc ((g.k.getD i 0).setWidth 64) | _ => .sc 0)).write d.1 o.lanes d.2

/-- Outstanding results that have their values are written, the rest of what the group awaits on the device ends (R118, R119); far accesses remain. -/
def Group.settleOuts (n : Nat) (g : Group) : Group :=
  { g.outs.foldl (fun g o => if o.far.isNone then o.dests.foldl (fun g d => writeOut n g o d) g else g) g with
    outs := g.outs.filter fun o => o.far.isSome }

/-- Every split resumes: an open one at its entry, a closed one where it is; parked entries at their shadow entry (R133). -/
def Group.rewind (g : Group) : Group :=
  { g with
    splits := g.splits.map fun p =>
      { p with pc := if p.stays then p.pc else p.ent, rerun := !p.stays, waiting := none, parked := none, relIds := [], acqIds := [], past := [], oldSpec := none,
               view := p.view.filter fun h => h.left.isNone && (match h.reg with | .o _ => false | .x _ => false | _ => true) }
    stack := g.stack.map fun e =>
      { e with pcoff := (match e.kind with | .park => e.ent | .mark => e.pcoff),
               relIds := [], acqIds := [], past := [], view := e.view.filter fun h => h.left.isNone && (match h.reg with | .o _ => false | .x _ => false | _ => true) } }

/-- X and O read as zero (R127). -/
def Group.zeroNear (g : Group) : Group := { g with o := Vector.replicate 16 zeroLanes, x := Vector.replicate 4 zeroLanes }

/-- An interruption of a group (R127): results settled, X and O lost, M but for survivors lost, splits rewound. Under a halt in place the M rows stay where they
are (R60): lanes that go on where they are find theirs as they were, which is what their next words read (R345); those that go back to their entry read survivors
alone. DEDUCED (log 61). In handler mode the handler runs again from its start (R193). -/
def interrupt (s : State) (core : Nat) (w : Crew) (g : Group) (inPlace : Bool) : Group :=
  let g := g.settleOuts s.free
  let g := { g.zeroNear with m := keepSurvivors s core w g (if inPlace then g.staying else 0), mseed := s.free, mzero := [], holdUntil := 0 }
  let g := g.rewind
  let hoff : Pcoff := BitVec.ofNat 54 (bits g.ctx 31 0)
  if g.handler.isSome then
    { g with splits := g.splits.map fun p => if p.hnd then { p with pc := hoff } else p,
             stack := g.stack.map fun e => if e.hnd then { e with pcoff := hoff } else e }
  else g

/-- Interrupt a group of the state. -/
def interruptGroup (s : State) (core slot gid : Nat) (inPlace : Bool := false) : State :=
  match s.crew? core slot with
  | none => s
  | some w =>
    match w.group? gid with
    | none => s
    | some g => { s.modGroup core slot gid fun _ => interrupt s core w g inPlace with free := s.free + 1 }

/-! ## Traps (R181 to R188) -/

/-- FSTAT (R182). -/
def fstatOf (ep : BitVec 16) (pt : Bool) (l : Bool) (split ln : Nat) (cause : Byte) : Dword :=
  BitVec.ofNat 64 (ep.toNat * 2 ^ 48 + 2 ^ 31 + bit pt * 2 ^ 30 + bit l * 2 ^ 29 + split % 4 * 2 ^ 27 + ln % 32 * 2 ^ 22 + cause.toNat)

/-- A software trap (R332). -/
def softTrap (code : Byte) : Bool := decide (0x20 ≤ code.toNat) && decide (code.toNat < 0x28)

/-- The fault record of a trap (R136, R182). A software trap has completed, so its split stands one word further (R332). -/
def recordOf (core : Nat) (w : Crew) (g : Group) (p : Split) (t : PendTrap) (pt : Bool) (token : Word) : FaultRec :=
  let l := isL core
  let both := w.code.dpres && w.code.lpres
  let pc := if softTrap t.code then p.pc - 1 else t.pc.getD p.pc
  let at_ := fun (b : Dword) (off : Pcoff) => b + off.setWidth 64 * 8#64
  { fstat := fstatOf p.ep pt l p.num t.lane t.code, faddr := t.addr, fpc := at_ (w.code.base l) pc,
    fpcx := if both then at_ (w.code.base !l) pc else 0, fent := at_ (w.code.base l) p.ent,
    fentx := if both then at_ (w.code.base !l) p.ent else 0, seq := g.seq,
    fctx := BitVec.ofNat 64 (w.pasid.toNat * 2 ^ 44 + token.toNat) }

/-- The cause that a record names. -/
def FaultRec.cause (r : FaultRec) : Byte := r.fstat.setWidth 8

/-- Causes that nobody deals with (R183): 0x1D, 0x39 and class 10 domains 2 and 3. -/
def nobody (code : Byte) : Bool := code == 0x1D || code == 0x39 || (decide (0x90 ≤ code.toNat) && decide (code.toNat < 0xA0))

/-- CTX sends the cause's class to the handler (R186). -/
def handles (ctx : Dword) (code : Byte) : Bool := ctx.getLsbD 63 && ctx.getLsbD (60 + code.toNat / 64) && decide (code.toNat < 0xC0)

/-- An unhandled trap (R183): the launch names it by the TIME at which it was taken, the group dies, the other groups die at their next kill point, the crew
is killed. -/
def unhandledAt (s : State) (time core slot gid : Nat) (cause : Byte) (faddr : Dword) : State :=
  match s.crew? core slot with
  | none => s
  | some w =>
    let s := s.countTrap w.part w.task.launch ⟨time, 0, (coreReg core).toNat, gid, cause, faddr⟩
    let cyc := (s.core core).cyc
    let s := s.modCrew core slot fun w => { w with killed := true, killAt := w.killAt.or (some cyc), groups := w.groups.map fun g => if g.live && g.gid != gid then { g with doomed := true } else g }
    killWaiting (groupEnds s core slot gid true) core slot

/-- An unhandled trap that is taken now. -/
def unhandled (s : State) (core slot gid : Nat) (cause : Byte) (faddr : Dword) : State :=
  unhandledAt s (s.timeOf (dieOf core)).toNat core slot gid cause faddr

/-- The trap that a group's record names is made unhandled (R183, R184). -/
def unhandledRecord (s : State) (core slot : Nat) (g : Group) : State := unhandledAt s g.trapAt core slot g.gid g.frec.cause g.frec.faddr

/-- Handler entry (R187): the faulting split runs at the HOFF of the CTX that it acts under (R249), the others stay stopped. The group has been interrupted and
its record written. -/
def enterHandler (s : State) (core slot gid split : Nat) (ctx : Dword) : State :=
  s.modGroup core slot gid fun g =>
    let back := match g.split? split with | some p => p.pc | none => 0
    ({ g with handler := some (split, back) }).modSplit split fun p => { p with pc := BitVec.ofNat 54 (bits ctx 31 0), hnd := true }

/-- A trap whose record is written and that no queue takes: the handler, or nobody (R183). The word after a wrsr acts under the older CTX (R249). -/
def dealOther (s : State) (core slot gid split : Nat) (ctx : Option Dword) : State :=
  match s.group? core slot gid with
  | none => s
  | some g =>
    if nobody g.frec.cause || !handles (ctx.getD g.ctx) g.frec.cause then unhandledRecord s core slot g
    else enterHandler s core slot gid split (ctx.getD g.ctx)

/-! ### The fault queue (R184) -/

/-- The eight words of an entry, as bytes from 0x08 on and then word 0. -/
def FaultRec.bytes (r : FaultRec) : List Byte :=
  [r.fstat, r.faddr, r.fpc, r.fpcx, r.fent, r.fentx, r.seq, r.fctx].flatMap fun v => leBytes 8 v.toNat

/-- Faulting split of a record (R182). -/
def FaultRec.split (r : FaultRec) : Nat := bits r.fstat 28 27

/-- TOKEN of a record (R182). -/
def FaultRec.token (r : FaultRec) : Word := r.fctx.setWidth 32

/-- Faulting lane of a record (R182). -/
def FaultRec.lane (r : FaultRec) : Nat := bits r.fstat 26 22

/-- A record whose group is parked no longer: PT and TOKEN are zero (R182). -/
def FaultRec.unparked (r : FaultRec) : FaultRec := { r with fstat := setBits r.fstat 30 30 0, fctx := setBits r.fctx 31 0 0 }

/-- A group that is parked no longer and whose crew is saved or halted: it re-runs its strand when it resumes, and the fault is raised again only if the translation is
still missing (R185). -/
def Group.unpark (g : Group) : Group := { g with fwait := none, frec := g.frec.unparked }

/-- So a group whose crew is saved, by its TOKEN. -/
def unparkSaved (s : State) (f : Nat) (t : Word) : State :=
  let fix := fun (g : Group) => match g.fwait with
    | some (.queue u _) => if u == t then g.unpark else g
    | _ => g
  { s with dies := s.dies.map fun (d, x) => (d, { x with queue := x.queue.map fun q => { q with saved := q.saved.map fun w => if w.part == f then { w with groups := w.groups.map fix } else w } }) }

/-- The posts that a function holds are dealt with as with the queue disabled (R184). -/
def dealHeld (s : State) (f : Nat) : State :=
  let ps := (s.fn f).posts
  ps.foldl (fun s (c, w, g, r) =>
    match (s.group? c w g).bind fun x => x.fwait.map fun y => (x.stopped, y) with
    | some (stopped, .queue t _) =>
      if t != r.token then unparkSaved s f r.token
      else if stopped then s.modGroup c w g Group.unpark
      else dealOther (s.modGroup c w g Group.unpark) c w g r.split none
    | _ => unparkSaved s f r.token) (s.modFn f fun x => { x with posts := [] })

/-- An entry write fails (R184): WERR, EN cleared, the message on VEC. -/
def fqFail (s : State) (f : Nat) : State :=
  let s := s.modFn f fun x => { x with fqctl := setBits (setBits x.fqctl 61 61 1) 63 63 0 }
  dealHeld (s.msix f (bits (s.fn f).fqctl 20 16)) f

/-- The posts that wait find the queue full: OVF is set, once for each of them (R184). -/
def queueFull (x : Fn) : Fn :=
  let ts := x.posts.map fun e => e.2.2.2.token
  { x with full := ts, fqctl := if ts.all x.full.contains then x.fqctl else setBits x.fqctl 62 62 1 }

/-- Write the posts that are due, the oldest first, until the queue is full, a page is missing, or none is left (R184). -/
def drainPosts : Nat → State → Nat → State
  | 0, s, _ => s
  | fuel + 1, s, f =>
    let x := s.fn f
    match x.posts with
    | [] => s
    | (_, _, _, r) :: t =>
      if !x.fqctl.getLsbD 63 then s
      else
        let n := 2 ^ bits x.fqhead 19 16
        let tail := bits x.fqctl 15 0
        if (tail + 1) % n == bits x.fqhead 15 0 then s.modFn f queueFull
        else
          let pasid := bits x.fqctl 59 40
          let a := bits x.fqbase 56 12 * 4096 + 64 * tail
          match s.hostMapped f pasid a 64 true with
          | some page => s.atsAsk f pasid page true
          | none =>
            let s := s.hostWrite f pasid a r.bytes
            let s := s.modFn f fun x => { x with posts := t, fqctl := setBits x.fqctl 15 0 ((tail + 1) % n) }
            drainPosts fuel (s.msix f (bits x.fqctl 20 16)) f

/-- Post what a function holds. -/
def postFaults (s : State) (f : Nat) : State := drainPosts ((s.fn f).posts.length + 1) s f

/-- A TOKEN that no group of the function holds, the next after those given out (R182). -/
def freshToken (s : State) (f : Nat) : Word := let t := (s.fn f).tokens + 1; if t == 0 then 1 else t

/-- The causes that system software deals with through the fault queue (R183). -/
def queued (code : Byte) : Bool := code == 0x00 || code == 0x50 || code == 0x68

/-- No cause (classes 11 are unassigned, R178): the group is only interrupted, and re-runs its strand after a rejected load (R148). -/
def reRun : Byte := 0xFF

/-- No cause either: the group stops before the se that the split has met, for a migration (R137); FADDR holds the point that the se names. -/
def stopSe : Byte := 0xFE

/-- The TOKEN under which the group has been retried, where the translation that it waited for is still missing (R184): the same cause on the same page. -/
def sameMissing (g : Group) (code : Byte) (addr : Dword) : Option Word :=
  if g.frec.token != 0 && g.frec.cause == code && g.frec.faddr.toNat / 4096 == addr.toNat / 4096 then some g.frec.token else none

/-- The group stops for a migration: a split that has met an se stands before that se, and goes on there (R133, R137). -/
def stopForMove (s : State) (core slot gid : Nat) (se : Option (Nat × Nat)) : State :=
  let s1 := s.modGroup core slot gid fun g => match se with | some (n, e) => g.modSplit n fun p => { p with atSe := some e } | none => g
  (interruptGroup s1 core slot gid).modGroup core slot gid fun g => { g with migStop := false, stopped := true }

/-- What nobody deals with of a trap, cause and FADDR (R183, R187): a trap in handler mode, or a cause that neither the device, nor the queue, nor a handler takes. -/
def leftOver (s : State) (w : Crew) (g : Group) (t : PendTrap) : Option (Byte × Dword) :=
  if t.code == reRun || t.code == stopSe then none
  else if g.handler.isSome then some (0x1D, t.code.setWidth 64)
  else if t.code == 0x38 || (queued t.code && (s.fn w.part).fqctl.getLsbD 63) then none
  else if (t.code == 0x60 || t.code == 0x61) && (s.fn w.part).pri.any (fun q => q.1 == w.pasid.toNat && q.2.1 == t.addr.toNat / 4096) then none
  else if nobody t.code || !handles t.ctx t.code then some (t.code, t.addr)
  else none

/-- A group that another group's unhandled trap has doomed dies of its own trap: an unhandled one counts too, so that R183's order names the first (R193). A cancel
or a reset comes first, and then nothing is counted (R61). -/
def siblingTrap (s : State) (core : Nat) (w : Crew) (g : Group) (t : PendTrap) : State :=
  if !w.killed || w.reset || s.cancelledOn w.part (dieOf core) 15 w.task.scopeId then s
  else match leftOver s w g t with
    | some (cause, faddr) => s.countTrap w.part w.task.launch ⟨(s.timeOf (dieOf core)).toNat, 0, (coreReg core).toNat, g.gid, cause, faddr⟩
    | none => s

/-- Taking a trap whose group may be interrupted now (R182, R183, R187). A cancel or a kill that has taken effect comes first: the group dies, and no record is
kept (R61, R193). -/
def takeTrapNow (s : State) (core slot gid : Nat) (t : PendTrap) : State :=
  match s.crew? core slot with
  | none => s
  | some w =>
    match w.group? gid with
    | none => s
    | some g =>
      match g.split? t.split with
      | none => s
      | some p =>
        let s := s.modGroup core slot gid fun g => { g with pendTrap := none, walkOut := none }
        if t.code == reRun then interruptGroup s core slot gid
        else if groupDoomed s core w g then groupEnds (siblingTrap s core w g t) core slot gid true
        else if t.code == stopSe then stopForMove s core slot gid (if g.handler.isSome then none else some (t.split, t.addr.toNat))
        else
          let s := s.modGroup core slot gid fun g => { g with trapAt := (s.timeOf (dieOf core)).toNat }
          if g.handler.isSome then
            let r := { g.frec with fstat := setBits g.frec.fstat 7 0 0x1D, faddr := t.code.setWidth 64 }
            unhandled (s.modGroup core slot gid fun g => { g with frec := r }) core slot gid 0x1D (t.code.setWidth 64)
          else if t.code == 0x38 then
            (interruptGroup s core slot gid).modGroup core slot gid fun g => { g with fwait := some (.context [t.lane]) }
          else if (t.code == 0x60 || t.code == 0x61) && (s.fn w.part).pri.any (fun q => q.1 == w.pasid.toNat && q.2.1 == t.addr.toNat / 4096) then
            let r := recordOf core w g p t true 0
            (interruptGroup s core slot gid).modGroup core slot gid fun g => { g with frec := r, fwait := some (.pri w.part w.pasid.toNat (t.addr.toNat / 4096)) }
          else if queued t.code && (s.fn w.part).fqctl.getLsbD 63 then
            let token := (g.openToken.or (sameMissing g t.code t.addr)).getD (freshToken s w.part)
            let r := recordOf core w g p t true token
            let s := (interruptGroup s core slot gid).modGroup core slot gid fun g => { g with frec := r, fwait := some (.queue token false), openToken := none }
            if g.openToken.isSome then s
            else s.modFn w.part fun x => { x with tokens := if (sameMissing g t.code t.addr).isSome then x.tokens else token, posts := x.posts ++ [(core, slot, gid, r)] }
          else
            let r := recordOf core w g p t false 0
            let s := (interruptGroup s core slot gid).modGroup core slot gid fun g => { g with frec := r, fwait := none }
            dealOther s core slot gid t.split (some t.ctx)

/-- A group may be interrupted at once: no word of it is selected and not yet executed, no far access of it is under way, and its reduction or scan has left
E3 (R112, R119, R290). -/
def mayInterrupt (s : State) (core slot gid : Nat) (g : Group) : Bool :=
  g.outs.all (fun o => o.far.isNone) && decide (g.holdUntil ≤ (s.core core).cyc.toNat)
    && !s.issueQ.any fun u => u.r.core == core && u.r.crew == slot && u.r.gid == gid

/-- A trap that waited is taken once it may be; a software trap held behind it, once the group would run again. -/
def pendingTrap (s : State) (core slot gid : Nat) : State :=
  match s.group? core slot gid with
  | none => s
  | some g =>
    if !mayInterrupt s core slot gid g then s
    else match g.pendTrap with
      | some t => takeTrapNow s core slot gid t
      | none =>
        match g.heldTraps with
        | t :: ts =>
          if g.live && g.fwait.isNone && !g.stopped && g.handler.isNone then
            takeTrapNow (s.modGroup core slot gid fun g => { g with heldTraps := ts }) core slot gid t
          else s
        | [] => s

/-- A trap joins what its group already waits to take. The earlier one stays, and what it cuts short is met again when the strand re-runs; a cause takes the
place of a mere re-run or stop; a software trap has completed and is held (R112, R332; log 74). -/
def Group.pend (g : Group) (t : PendTrap) : Group :=
  match g.pendTrap with
  | none => { g with pendTrap := some t }
  | some u =>
    if t.code == reRun || t.code == stopSe then g
    else if u.code == reRun || u.code == stopSe then { g with pendTrap := some t }
    else if softTrap t.code then { g with heldTraps := g.heldTraps ++ [t] }
    else g

/-- TAKING A TRAP: at once, or when what must complete first has completed. -/
def raise (s : State) (core slot gid : Nat) (t : PendTrap) : State := pendingTrap (s.modGroup core slot gid fun g => g.pend t) core slot gid

/-- The CTX under which a split's next word acts: the older one at distance 1 of a wrsr (R249). -/
def actingCtx (s : State) (core slot gid split : Nat) : Dword :=
  match s.group? core slot gid with
  | none => 0
  | some g => (((g.split? split).bind (·.oldSpec)).map (·.2)).getD g.ctx

/-- A trap of a split's own word. An uncorrectable table word of a walk starts its row test (R68). -/
def takeTrap (s : State) (core slot gid split : Nat) (code : Byte) (ln : Nat) (addr : Dword) : State :=
  let s := if code == 0x7D then (match s.crew? core slot with | some w => s.testWalk w.part w.pasid.toNat addr.toNat | none => s) else s
  raise s core slot gid ⟨split, code, ln, addr, none, actingCtx s core slot gid split⟩

/-- The traps of a core that wait are taken where they may be now. -/
def settleTraps (s : State) (core : Nat) : State :=
  ((s.core core).crews.flatMap fun w => (w.groups.filter fun g => g.pendTrap.isSome || !g.heldTraps.isEmpty).map fun g => (w.slot, g.gid)).foldl
    (fun s (w, g) => pendingTrap s core w g) s

/-- Leaving handler mode (R187, R333): every split resumes under R133, X and O read as zero, and M holds survivors alone. -/
def leaveHandler (s : State) (core slot gid : Nat) : State :=
  match s.group? core slot gid with
  | none => s
  | some g =>
    match g.handler with
    | none => s
    | some (_, back) =>
      let s := s.modGroup core slot gid fun g =>
        { g with handler := none, splits := g.splits.map (fun p => if p.hnd then { p with pc := back, hnd := false } else p),
                 stack := g.stack.map fun e => { e with hnd := false } }
      interruptGroup s core slot gid

/-- What a word comes to, as an outcome of the step. -/
def finish (s : State) (c : Ctx) : Res → Out3
  | .trap code ln addr => .next (takeTrap s c.r.core c.r.crew c.r.gid c.r.split code ln addr)
  | .park p => .next (endIfWaits (pendingTrap (s.modSplit c.r fun q => { q with parked := some p }) c.r.core c.r.crew c.r.gid) c.r.core c.r.crew c.r.gid)
  | .ok t => .next (pendingTrap t c.r.core c.r.crew c.r.gid)

end Sys2Proof.Machine
end

