-- ==== Sys2Proof/Machine/Operands.lean ====
section
/-!
DEFINITION. Operand checks (R216 to R220, R224, R228, R232), operand reads with what an early or unordered read may see (R118, R125, R126, R162, R224),
and the writes of a completed word with its distances (R125).
-/
namespace Sys2Proof.Machine

/-! ## Codes -/

/-- A code where a condition holds. -/
def codeIf (b : Bool) (c : Byte) : Option Byte := if b then some c else none

/-- The lowest of the codes that apply (R181, R228). -/
def lowest : List (Option Byte) → Option Byte
  | [] => none
  | none :: t => lowest t
  | some c :: t => match lowest t with | none => some c | some d => if c ≤ d then some c else some d

/-- The register exists on the executing core type (R124). -/
def opPresent (l : Bool) (regs : Nat) : Operand → Bool
  | .m i => decide (i.toNat < 32 * regs)
  | .o i => decide (i.toNat < if l then 16 else 8)
  | .x i => decide (i.toNat < if l then 4 else 2)
  | _ => true

/-- The executing core is an L-core. -/
def Ctx.l (c : Ctx) : Bool := isL c.r.core
/-- REGS of the executing crew. -/
def Ctx.regs (c : Ctx) : Nat := c.crew.task.regs

/-- A source of a vector word (R217, R218). -/
def srcV (c : Ctx) : Operand → Option Byte
  | .acc _ => some 0x10
  | .resLow _ => some 0x11
  | .resHigh _ => some 0x11
  | o => codeIf (!opPresent c.l c.regs o) 0x10

/-- A source of a scalar word (R218, R232). -/
def srcS : Operand → Option Byte
  | .m _ => some 0x10
  | .o _ => some 0x10
  | .x _ => some 0x10
  | .acc _ => some 0x10
  | .lane => some 0x10
  | .resLow _ => some 0x11
  | .resHigh _ => some 0x11
  | .s _ => none
  | .k _ => none
  | .special _ => none
  | .const _ => none

/-- A value: s0 to s63, a special or an inline constant; any other operand takes 0x10 (R319). -/
def srcVal : Operand → Option Byte
  | .s _ => none
  | .special _ => none
  | .const _ => none
  | _ => some 0x10

/-- A destination of a vector word that no row lets be S-class (R218). -/
def dstV (c : Ctx) : Operand → Option Byte
  | .m i => codeIf (!opPresent c.l c.regs (.m i)) 0x10
  | .o i => codeIf (!opPresent c.l c.regs (.o i)) 0x10
  | .x i => codeIf (!opPresent c.l c.regs (.x i)) 0x10
  | .s _ => some 0x10
  | .k i => if i == 0 then some 0x12 else some 0x10
  | .acc _ => some 0x10
  | .lane => some 0x12
  | .special _ => some 0x12
  | .const _ => some 0x12
  | .resLow _ => some 0x11
  | .resHigh _ => some 0x11

/-- A vector destination that may be a k register (R284). -/
def dstVK (c : Ctx) : Operand → Option Byte
  | .k i => codeIf (i == 0) 0x12
  | o => dstV c o

/-- A vector destination that may be an s register (R289). -/
def dstVS (c : Ctx) : Operand → Option Byte
  | .s _ => none
  | o => dstV c o

/-- A destination that must be an M register (R124, R295). -/
def dstM (c : Ctx) : Operand → Option Byte
  | .o _ => some 0x10
  | .x _ => some 0x10
  | o => dstV c o

/-- A destination that must be M, O or X: every S-class one takes 0x10 (R289). -/
def dstLevel (c : Ctx) : Operand → Option Byte
  | .m i => dstV c (.m i)
  | .o i => dstV c (.o i)
  | .x i => dstV c (.x i)
  | _ => some 0x10

/-- The destination of mask logic: k1 to k7, 0x12 for k0 alone (R285). -/
def dstK : Operand → Option Byte
  | .k i => codeIf (i == 0) 0x12
  | _ => some 0x10

/-- The destination of a scalar word: s0 to s63 or k1 to k7 (R232). -/
def dstS : Operand → Option Byte
  | .s _ => none
  | .k i => codeIf (i == 0) 0x12
  | .special _ => some 0x12
  | .const _ => some 0x12
  | .resLow _ => some 0x11
  | .resHigh _ => some 0x11
  | .m _ => some 0x10
  | .o _ => some 0x10
  | .x _ => some 0x10
  | .acc _ => some 0x10
  | .lane => some 0x10

/-- A destination that must be s0 to s63, of the scalar majors (R239, R247, R248, R253): k1 to k7 are registers of the wrong kind. -/
def dstSOnly : Operand → Option Byte
  | .k i => if i == 0 then some 0x12 else some 0x10
  | o => dstS o

/-- The destination of mstat, s0 to s63: another S-class one takes the code of its index (R218). -/
def dstMstat (c : Ctx) : Operand → Option Byte
  | .s _ => none
  | .m _ => some 0x10
  | .o _ => some 0x10
  | .x _ => some 0x10
  | o => dstV c o

/-- A destination that must be s0 to s63, of the words of 17: a k register takes 0x12 (R319). -/
def dstS17 : Operand → Option Byte
  | .k _ => some 0x12
  | o => dstS o

/-- A source that must be s0 to s63; any other operand takes 0x10 (R301, R304, R322, R325). -/
def srcSReg : Operand → Option Byte
  | .s _ => none
  | _ => some 0x10

/-- The source modifier's codes (R224). -/
def modCode (m : SrcMod) (b : Operand) : Option Byte :=
  let g := 2 ^ m.seg.toNat
  let sClass := match b with | .m _ => false | .o _ => false | .x _ => false | _ => true
  let bad :=
    match m.cls with
    | .none => m.seg != 0 || m.dist != 0
    | .rotate => decide (6 ≤ m.seg.toNat) || decide (g ≤ m.dist.toNat) || sClass
    | .butterfly => decide (6 ≤ m.seg.toNat) || m.dist == 0 || decide (g ≤ m.dist.toNat) || sClass
    | .broadcast => decide (6 ≤ m.seg.toNat) || decide (g ≤ m.dist.toNat) || sClass
  codeIf bad 0x13

/-- The class of a word under its source modifier: a segment of 8 lanes or more makes it T3 at least (R224). -/
def modClass (m : SrcMod) (t : TClass) : TClass :=
  if m.cls != .none && decide (3 ≤ m.seg.toNat) then (match t with | .t4 => .t4 | _ => .t3) else t

/-- A residue specifier: an M register (R222). -/
def resCode (c : Ctx) : Operand → Option Byte
  | .m i => codeIf (!opPresent c.l c.regs (.m i)) 0x10
  | _ => some 0x10

/-! ## Reads -/

/-- One lane of the older contents in a hazard. -/
def Val.laneOf : Val → Nat → Word
  | .vec v, l => lane v l
  | .sc v, _ => v.setWidth 32

/-- The scalar contents. -/
def Val.scalar : Val → Dword
  | .sc v => v
  | .vec _ => 0

/-- One lane as a read may see it: an own result that is not due yet, or what stood before it (R126); of the latest write of another split that no fusion has
ordered, its value or the one before it (R162, R224). -/
def seeLane (n pl l : Nat) (r : Reg) (cur : Word) (depth : Nat) : List Hazard → Word
  | [] => cur
  | h :: t =>
    if h.reg == r && h.lanes.getLsbD l then
      if Config.freeBit n (64 * pl + depth) l then cur
      else if h.left.isNone then h.old.laneOf l
      else seeLane n pl l r (h.old.laneOf l) (depth + 1) t
    else seeLane n pl l r cur depth t

/-- A scalar as a read may see it. -/
def seeScalar (n pl : Nat) (r : Reg) (cur : Dword) (depth : Nat) : List Hazard → Dword
  | [] => cur
  | h :: t =>
    if h.reg == r then
      if Config.freeBit n (64 * pl + depth) 0 then cur
      else if h.left.isNone then h.old.scalar
      else seeScalar n pl r h.old.scalar (depth + 1) t
    else seeScalar n pl r cur depth t

/-- Values, by lane, as a register's lanes; what is not listed is zero. -/
def lanesFrom (vs : List (Nat × Nat)) (shift : Nat) : Lanes :=
  ofLanes fun l => match vs.find? fun v => v.1 == l with | some v => BitVec.ofNat 32 (v.2 / 2 ^ shift) | none => 0

/-- The register contents that a far answer brings. -/
def answerDests (o : Out) (data : List Dword) : List (Reg × Val) :=
  let vs := (o.addrs.zip data).map fun ((l, _), v) => (l, v.toNat % 2 ^ (8 * o.width))
  match o.dst with
  | some (.m i) => (.m i, .vec (lanesFrom vs 0)) :: (if o.width == 8 then [(.m (i + 1), .vec (lanesFrom vs 32))] else [])
  | some (.s i) => [(.s i, .sc (BitVec.ofNat 64 ((vs.head?.map (·.2)).getD 0)))]
  | _ => []

/-- The answer that an input brings to an access. -/
def Input.answerTo? (id : Nat) : Input → Option FarAnswer
  | .event (.resultReturn _ i a) => if i == id then some a else none
  | .event (.storeAcknowledge _ i a) => if i == id then some a else none
  | _ => none

/-- What a far device will answer to an access: the data of the first answer to it among the inputs still to come (R118; log 73). -/
def State.farData (s : State) (id : Nat) : Option (List Dword) :=
  match s.agenda.findSome? (Input.answerTo? id) with
  | some (FarAnswer.ok data) => some data
  | _ => none

/-- A far device answers the access. -/
def Out.peer (o : Out) : Bool := match o.far with | some (.peer _) => true | _ => false

/-- The ports that a peer word's accesses go through (R139). -/
def Out.ports (o : Out) : List Nat := if o.peer then (o.addrs.map fun x => bits x.2 61 57).eraseDups else []

/-- What an outstanding result will write; nothing where no answer to a far access is to come. -/
def State.coming (s : State) (o : Out) : List (Reg × Val) :=
  if o.peer then (match s.farData o.id with | some d => answerDests o d | none => []) else o.dests

/-- A lane with outstanding results: the value before each, or the one that it will write (R118). -/
def outLane (s : State) (pl l : Nat) (r : Reg) (cur : Word) (depth : Nat) : List Out → Word
  | [] => cur
  | o :: t =>
    match (s.coming o).find? fun d => d.1 == r with
    | some (_, v) =>
      if o.lanes.getLsbD l then
        if Config.freeBit s.free (64 * pl + 32 + depth) l then v.laneOf l else outLane s pl l r cur (depth + 1) t
      else outLane s pl l r cur depth t
    | none => outLane s pl l r cur depth t

/-- A scalar with outstanding results (R118). -/
def outScalar (s : State) (pl : Nat) (r : Reg) (cur : Dword) (depth : Nat) : List Out → Dword
  | [] => cur
  | o :: t =>
    match (s.coming o).find? fun d => d.1 == r with
    | some (_, v) => if Config.freeBit s.free (64 * pl + 32 + depth) 0 then v.scalar else outScalar s pl r cur (depth + 1) t
    | none => outScalar s pl r cur depth t

/-- A register of lanes as the word reads it. -/
def readLanes (s : State) (c : Ctx) (pos : Nat) (r : Reg) : Lanes :=
  let v := c.g.readVec r
  if c.sp.view.isEmpty && c.g.outs.isEmpty then v
  else ofLanes fun l => outLane s (place pos r) l r (seeLane s.free (place pos r) l r (lane v l) 0 c.sp.view) 0 c.g.outs

/-- A scalar register's contents, before the P word of the same group and cycle wrote (R112). k0 is the split's mask (R110). -/
def scalarFile (c : Ctx) : Reg → Dword
  | .s i => match c.pre with | some p => p.s.getD i 0 | none => c.g.s.getD i 0
  | .k i => if i == 0 then c.sp.mask.setWidth 64 else (match c.pre with | some p => p.k.getD i 0 | none => c.g.k.getD i 0).setWidth 64
  | _ => 0

/-- A scalar register as the word reads it. DEDUCED (log 73): the status of a wait is a value that it will write only once its loop has ended, so that a read before
that gives the older one (R118). -/
def readScalar (s : State) (c : Ctx) (pos : Nat) (r : Reg) : Dword :=
  let v := scalarFile c r
  if c.sp.view.isEmpty && c.g.outs.isEmpty then v
  else outScalar s (place pos r) r (seeScalar s.free (place pos r) r v 0 c.sp.view) 0 c.g.outs

/-- AOWN (R190). -/
def aownOf (s : State) (core : Nat) (w : Crew) : Dword :=
  BitVec.ofNat 64 ((w.tiles.zipIdx).foldl (fun a (t, i) =>
    let p := (s.core core).tiles.getD t.phys PhysTile.reset
    a + (2 ^ 15 + bit t.saved.isSome * 2 ^ 14 + (match p.owner with | some n => n.toNat | none => 0)) * 2 ^ (16 * i)) 0)

/-- FLAGS and CTX as they stand, before the word on P of the same group and cycle wrote (R112). -/
def Ctx.specFile (c : Ctx) : Byte × Dword := match c.pre with | some p => (p.flags, p.ctx) | none => (c.g.flags, c.g.ctx)
/-- CTX as the word acts under it (R249). -/
def Ctx.ctxNow (c : Ctx) : Dword := match c.sp.oldSpec with | some (_, x) => x | none => c.specFile.2
/-- FLAGS as the word reads it (R249). -/
def Ctx.flagsNow (c : Ctx) : Byte := match c.sp.oldSpec with | some (f, _) => f | none => c.specFile.1
/-- ROUND as the word reads it (R112). -/
def Ctx.roundNow (c : Ctx) : Dword := match c.pre with | some p => p.round | none => c.crew.round

/-- The specials (R107, R121, R217). -/
def readSpecial (s : State) (c : Ctx) : Special → Dword
  | .gid => BitVec.ofNat 64 c.r.gid
  | .stage => BitVec.ofNat 64 ({ c.crew with round := c.roundNow }.stage c.r.gid)
  | .round => c.roundNow
  | .crew => BitVec.ofNat 64 c.r.crew
  | .tile => c.crew.task.tile
  | .launch => c.crew.task.launch.setWidth 64
  | .scope => c.crew.task.scope.setWidth 64
  | .core => coreReg c.r.core
  | .ctype => BitVec.ofNat 64 (bit (isL c.r.core))
  | .cyc => (s.core c.r.core).cyc
  | .time => s.timeOf (dieOf c.r.core)
  | .seq => match c.pre with | some p => p.seq | none => c.g.seq
  | .flags => c.flagsNow.setWidth 64
  | .aown => aownOf s c.r.core c.crew
  | .ctx => c.ctxNow

/-- The value of an inline constant (R217). -/
def constVal (k : BitVec 7) : Dword := k.setWidth 64 - 64#64

/-- Sval (R218): the 64-bit value of an S-class source. -/
def sval (s : State) (c : Ctx) (pos : Nat) : Operand → Dword
  | .s i => readScalar s c pos (.s i.toNat)
  | .k i => readScalar s c pos (.k i.toNat)
  | .special r => readSpecial s c r
  | .const k => constVal k
  | _ => 0

/-- Every lane the same. -/
def splat (w : Word) : Lanes := Vector.replicate 32 w

/-- A source of a vector word, per lane; konst gives an inline constant's element pattern (R218). -/
def vval (s : State) (c : Ctx) (konst : BitVec 7 → Word) (pos : Nat) : Operand → Lanes
  | .m i => readLanes s c pos (.m i.toNat)
  | .o i => readLanes s c pos (.o i.toNat)
  | .x i => readLanes s c pos (.x i.toNat)
  | .lane => ofLanes fun l => BitVec.ofNat 32 l
  | .const k => splat (konst k)
  | o => splat ((sval s c pos o).setWidth 32)

/-- An inline constant of the integer family with 32-bit elements (R218). -/
def const32 (k : BitVec 7) : Word := (constVal k).setWidth 32
/-- In both 16-bit elements. -/
def const16 (k : BitVec 7) : Word := let v : BitVec 16 := (constVal k).setWidth 16; v ++ v
/-- In all four 8-bit elements. -/
def const8 (k : BitVec 7) : Word := let v : BitVec 8 := (constVal k).setWidth 8; v ++ v ++ v ++ v

/-- The lane that a source modifier reads for lane l (R224). -/
def modLane (m : SrcMod) (l : Nat) : Nat :=
  let g := 2 ^ m.seg.toNat
  let base := l - l % g
  match m.cls with
  | .none => l
  | .rotate => base + (l % g + m.dist.toNat) % g
  | .butterfly => Nat.xor l m.dist.toNat
  | .broadcast => base + m.dist.toNat

/-- B under its source modifier (R224). -/
def modRead (m : SrcMod) (v : Lanes) : Lanes := if m.cls == .none then v else ofLanes fun l => lane v (modLane m l)

/-- act of an MR word: the split's mask and the named mask (R222). -/
def actOf (s : State) (c : Ctx) (mask : BitVec 3) : Mask := c.sp.mask &&& (readScalar s c 7 (.k mask.toNat)).setWidth 32

/-! ## Writes -/

/-- A write of a word. -/
structure Wr where
  reg : Reg
  lanes : Mask
  val : Val
  /-- the bits of each lane that the word writes (R348) -/
  bits : Word
  deriving DecidableEq, Repr

/-- The distance from which a fixed-latency result may be read (R125). -/
def distance (t : TClass) : Reg → Nat
  | .x _ => match t with | .t1 => 1 | .t2 => 1 | .t3 => 2 | .t4 => 3
  | .o _ => match t with | .t1 => 2 | .t2 => 2 | .t3 => 3 | .t4 => 4
  | .m _ => match t with | .t1 => 4 | .t2 => 4 | .t3 => 5 | .t4 => 6
  | .s _ => match t with | .t1 => 2 | .t2 => 2 | .t3 => 3 | .t4 => 4
  | .k _ => match t with | .t1 => 2 | .t2 => 2 | .t3 => 3 | .t4 => 4

/-- What a register holds now, as the older contents of a hazard; an S or K write of the same cycle that this one replaces was never there (R112). -/
def Group.before (g : Group) (pre : Option Pre) : Reg → Val
  | .s i => .sc (match pre with | some p => p.s.getD i 0 | none => g.s.getD i 0)
  | .k i => .sc ((match pre with | some p => p.k.getD i 0 | none => g.k.getD i 0).setWidth 64)
  | r => .vec (g.readVec r)

/-- One slot further: own results come nearer (R125). -/
def tickView (v : List Hazard) : List Hazard :=
  v.filterMap fun h =>
    match h.left with
    | none => some h
    | some n => if n ≤ 1 then none else some { h with left := some (n - 1) }

/-- The hazards that a word's writes leave for its own split. -/
def ownHazards (n : Nat) (g : Group) (pre : Option Pre) (t : TClass) (ws : List Wr) : List Hazard :=
  ws.filterMap fun w => if distance t w.reg ≤ 1 then none else some ⟨n, w.reg, w.lanes, g.before pre w.reg, some (distance t w.reg - 1)⟩

/-- The hazards that they leave for every other split and for parked lanes (R162). -/
def otherHazards (n : Nat) (g : Group) (pre : Option Pre) (ws : List Wr) : List Hazard := ws.map fun w => ⟨n, w.reg, w.lanes, g.before pre w.reg, none⟩

/-- A register that an outstanding result writes (R118). -/
def Out.writes (o : Out) (r : Reg) : Bool :=
  o.dst == some r || o.dests.any (fun d => d.1 == r) || (o.width == 8 && match o.dst, r with | some (.m i), .m j => i + 1 == j | _, _ => false)

/-- Lanes of an outstanding result's destination that another word has written (R118). -/
def contest (ws : List Wr) (o : Out) : Out :=
  let hit := ws.filter fun w => o.writes w.reg
  if hit.isEmpty then o else { o with contested := o.contested ++ hit.map fun w => (w.reg, w.lanes &&& o.lanes, w.bits) }

/-- The destination of a wait has been written by another word (R118). -/
def contestWait (ws : List Wr) (p : Split) : Split :=
  { p with waiting := p.waiting.map fun x => { x with hit := x.hit || ws.any fun w => w.reg == .s x.dst } }

/-- The writes of a word by a split: registers, and what each view may still miss. -/
def Group.writeWord (g : Group) (n split : Nat) (pre : Option Pre) (t : TClass) (ws : List Wr) : Group :=
  let own := ownHazards n g pre t ws
  let oth := otherHazards n g pre ws
  let g' := ws.foldl (fun (h : Group) w => h.write w.reg w.lanes w.val) g
  { g' with
    splits := g.splits.map fun p => contestWait ws (if p.num == split then { p with view := own ++ tickView p.view } else { p with view := oth ++ p.view })
    stack := g.stack.map fun e => { e with view := oth ++ e.view }
    outs := g.outs.map (contest ws) }

/-- The outstanding accesses of the words before a split's next word in its program order (R162). -/
def Group.outsOf (g : Group) (p : Split) : List Out := g.outs.filter fun o => o.split == p.num || p.past.contains o.id

/-- The Tun operations of the words before a split's next word that have not ended (R162, R170). -/
def tunOf (s : State) (core crew gid : Nat) (p : Split) : List Nat :=
  ((s.core core).tun.filter fun t => t.crew == crew && t.gid == gid && (t.split == p.num || p.tunPast.contains t.id)).map (·.id)

/-- A number that is no split's: the accesses and Tun operations of a split that has ended bear it. -/
def noSplit : Nat := 4

/-- A completed word: its writes, its flags, and what becomes of its split. The word number moves on. -/
def completeWith (s : State) (c : Ctx) (ws : List Wr) (flags : Byte) (t : TClass) (f : Split → Split) : State :=
  { s.modGroup c.r.core c.r.crew c.r.gid fun g =>
      let g := g.writeWord s.free c.r.split c.pre t ws
      ({ g with flags := g.flags ||| flags }).modSplit c.r.split fun p => f { p with parked := none, oldSpec := none, barWait := none } with
    free := s.free + 1 }

/-- The split goes on to its next word. -/
def Split.next (p : Split) : Split := { p with pc := p.pc + 1 }

/-- A completed word that goes on to the next. -/
def complete (s : State) (c : Ctx) (ws : List Wr) (flags : Byte) (t : TClass) : State := completeWith s c ws flags t Split.next

/-- A commit completes: SEQ gains 1 and the split is closed (R130, R131). -/
def commit (s : State) (c : Ctx) (ws : List Wr) (t : TClass) : State :=
  (completeWith s c ws 0 t fun p => { p.next with closed := true, stale := 0 }).modGroup c.r.core c.r.crew c.r.gid fun g => { g with seq := g.seq + 1 }

/-- A write to an S-class destination: s whole, k its low 32 bits (R232). -/
def wrScalar (d : Operand) (v : Dword) : List Wr :=
  match d with
  | .s i => [⟨.s i.toNat, BitVec.allOnes 32, .sc v, 0xFFFFFFFF⟩]
  | .k i => [⟨.k i.toNat, BitVec.allOnes 32, .sc (v &&& 0xFFFFFFFF), 0xFFFFFFFF⟩]
  | _ => []

/-- A write to a destination of lanes, of some bits of each lane; the others of v are those that it holds. -/
def wrLanes (d : Operand) (m : Mask) (v : Lanes) (b : Word := 0xFFFFFFFF) : List Wr :=
  match d with
  | .m i => [⟨.m i.toNat, m, .vec v, b⟩]
  | .o i => [⟨.o i.toNat, m, .vec v, b⟩]
  | .x i => [⟨.x i.toNat, m, .vec v, b⟩]
  | _ => []

end Sys2Proof.Machine
end

