-- ==== Sys2Proof/Machine/Flags.lean ====
section
/-!
DEFINITION. The arithmetic flags and flag traps (R50, R188, R202), and the driver of every instruction word: the order in which its causes are taken (R181).
-/
namespace Sys2Proof.Machine

/-- Flags in EXC order (R50). -/
def fInvalid : Byte := 0x01
def fDivZero : Byte := 0x02
def fOverflow : Byte := 0x04
def fUnderflow : Byte := 0x08
def fInexact : Byte := 0x10
def fSaturation : Byte := 0x20
def fClip : Byte := 0x40
def fIntOverflow : Byte := 0x80

/-- A flag where a condition holds. -/
def flagIf (b : Bool) (f : Byte) : Byte := if b then f else 0

/-- FTE (R186). -/
def fteOf (ctx : Dword) : Byte := ctx.extractLsb' 48 8

/-- The flag trap that the flags raised meet: 0x30 plus the lowest enabled bit (R188). -/
def flagTrap (ctx : Dword) (raised : Byte) : Option Byte :=
  ((List.range 8).find? fun i => (raised &&& fteOf ctx).getLsbD i).map fun i => BitVec.ofNat 8 (0x30 + i)

/-- A word that only writes registers and raises flags: it traps on an enabled flag with no effect, and completes otherwise (R188). -/
def finishWrites (s : State) (c : Ctx) (ws : List Wr) (flags : Byte) (t : TClass) : Res :=
  match flagTrap c.ctxNow flags with
  | some code => .trap code 0 0
  | none => .ok (complete s c ws flags t)

/-- What the driver must know of a row: the bit of capq leaf 2 that can mask it (R256), whether it closes a strand or ends lanes, so that handler mode
refuses it (R187), and whether a closed split may execute it (R243). -/
structure RowKind where
  cap : Option Nat
  closes : Bool
  closedOk : Bool
  deriving DecidableEq, Repr

/-- A row that no leaf masks, that closes nothing and that a closed split may not execute. -/
def RowKind.plain : RowKind := ⟨none, false, false⟩
/-- A commit. -/
def RowKind.commit : RowKind := ⟨none, true, false⟩

/-- The capability mask of a leaf for the crew's partition (R255). -/
def capOf (s : State) (p leaf : Nat) : Dword := (s.part p).capmask.getD leaf (BitVec.allOnes 64)

/-- Codes that come before the word's own control causes: 0x0E, 0x0F, the operand codes, 0x1B (R181, R228). -/
def gate (s : State) (c : Ctx) (k : RowKind) (codes : List (Option Byte)) : Option Byte :=
  if (match k.cap with | some b => !(capOf s c.crew.part 2).getLsbD b | none => false) then some 0x0E
  else if k.closes && c.g.handler.isSome then some 0x0F
  else match lowest codes with
    | some e => some e
    | none => if c.g.handler.isNone && ((c.sp.closed && !k.closedOk) || c.sp.fused) then some 0x1B else none

/-- THE DRIVER of an instruction word: the executing split, the gate, then the word's own body. -/
def runWord (s : State) (k : RowKind) (codes : Ctx → List (Option Byte)) (body : Ctx → Res) : Out3 :=
  match s.ctx with
  | none => .fault .noIssuer
  | some c =>
    match gate s c k (codes c) with
    | some e => finish s c (.trap e 0 0)
    | none => finish s c (body c)

end Sys2Proof.Machine
end

