-- ==== Sys2Proof/Machine/Scalar.lean ====
section
/-!
DEFINITION. Scalar words (13): majors 0x02 to 0x05, and nop and capq of major 0x00.
-/
namespace Sys2Proof.Machine

/-- A scalar word of two sources (R232 to R234). -/
def scalar2 (f : RWord) (t : TClass) (op : Dword → Dword → Dword) (s : State) : Out3 :=
  runWord s .plain (fun _ => [dstS f.d, srcS f.a, srcS f.b]) fun c =>
    finishWrites s c (wrScalar f.d (op (sval s c 1 f.a) (sval s c 2 f.b))) 0 t

/-- A scalar word of three sources. -/
def scalar3 (f : RWord) (op : Dword → Dword → Dword → Dword) (s : State) : Out3 :=
  runWord s .plain (fun _ => [dstS f.d, srcS f.a, srcS f.b, srcS f.c]) fun c =>
    finishWrites s c (wrScalar f.d (op (sval s c 1 f.a) (sval s c 2 f.b) (sval s c 3 f.c))) 0 .t1

/-- A scalar word of one source. -/
def scalar1 (f : RWord) (op : Dword → Dword) (s : State) : Out3 :=
  runWord s .plain (fun _ => [dstS f.d, srcS f.a]) fun c => finishWrites s c (wrScalar f.d (op (sval s c 1 f.a))) 0 .t1

/-- A flagging word: the exact result wraps, and raises integer overflow outside the range of its form (R235). -/
def scalarFlag (f : RWord) (signed : Bool) (op : Int → Int → Int) (s : State) : Out3 :=
  runWord s .plain (fun _ => [dstS f.d, srcS f.a, srcS f.b]) fun c =>
    let a := sval s c 1 f.a
    let b := sval s c 2 f.b
    let e := if signed then op a.toInt b.toInt else op a.toNat b.toNat
    let out := if signed then decide (e < -2 ^ 63) || decide (2 ^ 63 - 1 < e) else decide (e < 0) || decide (2 ^ 64 - 1 < e)
    finishWrites s c (wrScalar f.d (BitVec.ofInt 64 e)) (flagIf out fIntOverflow) .t1

/-- A scalar compare: 1 to an s register, all ones to a k register, else 0 (R237). -/
def scalarCmp (f : RWord) (p : Dword → Dword → Bool) (s : State) : Out3 :=
  runWord s .plain (fun _ => [dstS f.d, srcS f.a, srcS f.b]) fun c =>
    let yes : Dword := match f.d with | .k _ => 0xFFFFFFFF | _ => 1
    finishWrites s c (wrScalar f.d (if p (sval s c 1 f.a) (sval s c 2 f.b) then yes else 0)) 0 .t1

/-- A scalar immediate (R236). -/
def scalarImm (f : IWord) (op : Dword → Word → Dword) (s : State) : Out3 :=
  runWord s .plain (fun _ => [dstS f.d, srcS f.a]) fun c => finishWrites s c (wrScalar f.d (op (sval s c 1 f.a) f.imm)) 0 .t1

/-- Leading zeros of a 64-bit value (R237). -/
def clz64 (a : Dword) : Nat := ((List.range 64).find? fun i => a.getLsbD (63 - i)).getD 64
/-- Trailing zeros of a 64-bit value (R237). -/
def ctz64 (a : Dword) : Nat := ((List.range 64).find? fun i => a.getLsbD i).getD 64
/-- Bits reversed (R237, R277). -/
def brev {w : Nat} (a : BitVec w) : BitVec w := BitVec.ofNat w ((List.range w).foldl (fun n i => n + bit (a.getLsbD i) * 2 ^ (w - 1 - i)) 0)

/-- A field value of bext and bins that breaks R238. -/
def fieldBad (c : Dword) : Bool :=
  let pos := bits c 5 0
  let len := bits c 14 8
  bits c 63 15 != 0 || bits c 7 6 != 0 || len == 0 || decide (64 < len) || decide (64 < pos + len)

/-- bext (R238). -/
def bextVal (a c : Dword) : Dword := BitVec.ofNat 64 (a.toNat / 2 ^ bits c 5 0 % 2 ^ bits c 14 8)

/-- bins (R238). -/
def binsVal (a b c : Dword) : Dword :=
  let m : Dword := BitVec.ofNat 64 ((2 ^ bits c 14 8 - 1) * 2 ^ bits c 5 0)
  (a &&& ~~~m) ||| (b <<< bits c 5 0 &&& m)

/-- add.b64 (R233). -/
def execAddB64 (f : RWord) (s : State) : Out3 := scalar2 f .t1 (fun a b => a + b) s

/-- sub.b64 (R233). -/
def execSubB64 (f : RWord) (s : State) : Out3 := scalar2 f .t1 (fun a b => a - b) s

/-- mul.b64 (R233). -/
def execMulB64 (f : RWord) (s : State) : Out3 := scalar2 f .t1 (fun a b => a * b) s

/-- mulhi.i64: the signed product divided by 2^64, rounded down (R233). -/
def execMulhiI64 (f : RWord) (s : State) : Out3 := scalar2 f .t4 (fun a b => BitVec.ofInt 64 (Int.fdiv (a.toInt * b.toInt) (2 ^ 64))) s

/-- mulhi.n64 (R233). -/
def execMulhiN64 (f : RWord) (s : State) : Out3 := scalar2 f .t4 (fun a b => BitVec.ofNat 64 (a.toNat * b.toNat / 2 ^ 64)) s

/-- and.b64 (R233). -/
def execAndB64 (f : RWord) (s : State) : Out3 := scalar2 f .t1 (fun a b => a &&& b) s

/-- or.b64 (R233). -/
def execOrB64 (f : RWord) (s : State) : Out3 := scalar2 f .t1 (fun a b => a ||| b) s

/-- xor.b64 (R233). -/
def execXorB64 (f : RWord) (s : State) : Out3 := scalar2 f .t1 (fun a b => a ^^^ b) s

/-- andn.b64 (R233). -/
def execAndnB64 (f : RWord) (s : State) : Out3 := scalar2 f .t1 (fun a b => a &&& ~~~b) s

/-- shl.b64 (R233). -/
def execShlB64 (f : RWord) (s : State) : Out3 := scalar2 f .t1 (fun a b => a <<< (b.toNat % 64)) s

/-- shr.n64 (R233). -/
def execShrN64 (f : RWord) (s : State) : Out3 := scalar2 f .t1 (fun a b => a >>> (b.toNat % 64)) s

/-- shr.i64 (R233). -/
def execShrI64 (f : RWord) (s : State) : Out3 := scalar2 f .t1 (fun a b => a.sshiftRight (b.toNat % 64)) s

/-- min.i64 (R233). -/
def execMinI64 (f : RWord) (s : State) : Out3 := scalar2 f .t1 (fun a b => if a.slt b then a else b) s

/-- max.i64 (R233). -/
def execMaxI64 (f : RWord) (s : State) : Out3 := scalar2 f .t1 (fun a b => if a.slt b then b else a) s

/-- min.n64 (R233). -/
def execMinN64 (f : RWord) (s : State) : Out3 := scalar2 f .t1 (fun a b => if a < b then a else b) s

/-- max.n64 (R233). -/
def execMaxN64 (f : RWord) (s : State) : Out3 := scalar2 f .t1 (fun a b => if a < b then b else a) s

/-- madd.b64 (R233). -/
def execMaddB64 (f : RWord) (s : State) : Out3 := scalar3 f (fun a b c => a * b + c) s

/-- addo.i64 (R233, R235). -/
def execAddoI64 (f : RWord) (s : State) : Out3 := scalarFlag f true (fun a b => a + b) s

/-- addo.n64 (R233, R235). -/
def execAddoN64 (f : RWord) (s : State) : Out3 := scalarFlag f false (fun a b => a + b) s

/-- subo.i64 (R233, R235). -/
def execSuboI64 (f : RWord) (s : State) : Out3 := scalarFlag f true (fun a b => a - b) s

/-- subo.n64 (R233, R235). -/
def execSuboN64 (f : RWord) (s : State) : Out3 := scalarFlag f false (fun a b => a - b) s

/-- mulo.i64 (R233, R235). -/
def execMuloI64 (f : RWord) (s : State) : Out3 := scalarFlag f true (fun a b => a * b) s

/-- mulo.n64 (R233, R235). -/
def execMuloN64 (f : RWord) (s : State) : Out3 := scalarFlag f false (fun a b => a * b) s

/-- addi.b64 (R236). -/
def execAddiB64 (f : IWord) (s : State) : Out3 := scalarImm f (fun a i => a + i.signExtend 64) s

/-- andi.b64 (R236). -/
def execAndiB64 (f : IWord) (s : State) : Out3 := scalarImm f (fun a i => a &&& i.signExtend 64) s

/-- ori.b64 (R236). -/
def execOriB64 (f : IWord) (s : State) : Out3 := scalarImm f (fun a i => a ||| i.setWidth 64) s

/-- xori.b64 (R236). -/
def execXoriB64 (f : IWord) (s : State) : Out3 := scalarImm f (fun a i => a ^^^ i.setWidth 64) s

/-- insh.b64 (R236). -/
def execInshB64 (f : IWord) (s : State) : Out3 := scalarImm f (fun a i => i ++ a.setWidth 32) s

/-- movi.b64; A is zero (R236). -/
def execMoviB64 (f : IWord) (s : State) : Out3 :=
  runWord s .plain (fun _ => [dstS f.d]) fun c => finishWrites s c (wrScalar f.d (f.imm.signExtend 64)) 0 .t1

/-- cmp.eq.b64 (R237). -/
def execCmpEqB64 (f : RWord) (s : State) : Out3 := scalarCmp f (fun a b => a == b) s

/-- cmp.ne.b64 (R237). -/
def execCmpNeB64 (f : RWord) (s : State) : Out3 := scalarCmp f (fun a b => a != b) s

/-- cmp.lt.i64 (R237). -/
def execCmpLtI64 (f : RWord) (s : State) : Out3 := scalarCmp f (fun a b => a.slt b) s

/-- cmp.le.i64 (R237). -/
def execCmpLeI64 (f : RWord) (s : State) : Out3 := scalarCmp f (fun a b => a.sle b) s

/-- cmp.lt.n64 (R237). -/
def execCmpLtN64 (f : RWord) (s : State) : Out3 := scalarCmp f (fun a b => a.ult b) s

/-- cmp.le.n64 (R237). -/
def execCmpLeN64 (f : RWord) (s : State) : Out3 := scalarCmp f (fun a b => a.ule b) s

/-- sel.b64 (R237). -/
def execSelB64 (f : RWord) (s : State) : Out3 := scalar3 f (fun a b c => if c != 0 then a else b) s

/-- popc.b64 (R237). -/
def execPopcB64 (f : RWord) (s : State) : Out3 := scalar1 f (fun a => BitVec.ofNat 64 (popcount a)) s

/-- clz.b64 (R237). -/
def execClzB64 (f : RWord) (s : State) : Out3 := scalar1 f (fun a => BitVec.ofNat 64 (clz64 a)) s

/-- ctz.b64 (R237). -/
def execCtzB64 (f : RWord) (s : State) : Out3 := scalar1 f (fun a => BitVec.ofNat 64 (ctz64 a)) s

/-- brev.b64 (R237). -/
def execBrevB64 (f : RWord) (s : State) : Out3 := scalar1 f (fun a => brev a) s

/-- bext.b64; a bad field value takes 0x14 when the word executes (R237, R238). -/
def execBextB64 (f : RWord) (s : State) : Out3 :=
  runWord s .plain (fun c => [dstS f.d, srcS f.a, srcS f.c, codeIf ((srcS f.c).isNone && fieldBad (sval s c 3 f.c)) 0x14]) fun c =>
    finishWrites s c (wrScalar f.d (bextVal (sval s c 1 f.a) (sval s c 3 f.c))) 0 .t1

/-- bins.b64 (R237, R238). -/
def execBinsB64 (f : RWord) (s : State) : Out3 :=
  runWord s .plain (fun c => [dstS f.d, srcS f.a, srcS f.b, srcS f.c, codeIf ((srcS f.c).isNone && fieldBad (sval s c 3 f.c)) 0x14]) fun c =>
    finishWrites s c (wrScalar f.d (binsVal (sval s c 1 f.a) (sval s c 2 f.b) (sval s c 3 f.c))) 0 .t1

/-- Word n of a fault record (R182, R248). -/
def FaultRec.word (r : FaultRec) : Nat → Dword
  | 0 => r.fstat | 1 => r.faddr | 2 => r.fpc | 3 => r.fpcx | 4 => r.fent | 5 => r.fentx | 6 => r.seq | _ => r.fctx

/-- A's codes of rdfr: an inline constant 0 to 7 (R248). -/
def rdfrSel : Operand → Option Byte
  | .const k => codeIf (bits (constVal k) 63 3 != 0) 0x14
  | .resLow _ => some 0x10
  | _ => some 0x10

/-- rdfr (R248). -/
def execRdfr (f : RWord) (s : State) : Out3 :=
  runWord s .plain (fun _ => [dstSOnly f.d, rdfrSel f.a]) fun c =>
    finishWrites s c (wrScalar f.d (c.g.frec.word (bits (sval s c 1 f.a) 2 0))) 0 .t1

/-- D's codes of wrsr: FLAGS or CTX. R248 gives any other D than a special 0x14; where R217, R218 or R232 gives its index a lower code, that one applies
(R228). -/
def wrsrDst : Operand → Option Byte
  | .special .flags => none
  | .special .ctx => none
  | .s _ => some 0x14
  | .k i => if i == 0 then some 0x12 else some 0x14
  | o => dstS o

/-- The reserved bits of CTX (R186). -/
def ctxReserved (a : Dword) : Bool := bits a 59 56 != 0 || bits a 47 32 != 0

/-- wrsr (R248, R249): words from distance 2 on act under the new value. -/
def execWrsr (f : RWord) (s : State) : Out3 :=
  runWord s .plain
    (fun c => [wrsrDst f.d, srcS f.a, codeIf (f.d == .special .ctx && (srcS f.a).isNone && ctxReserved (sval s c 1 f.a)) 0x0A])
    fun c =>
      let a := sval s c 1 f.a
      let t := completeWith s c [] 0 .t1 fun p => { p.next with oldSpec := some c.specFile }
      .ok (t.modGroup c.r.core c.r.crew c.r.gid fun g => if f.d == .special .ctx then { g with ctx := a } else { g with flags := a.setWidth 8 })

/-- nop: no effect (R252). -/
def execNop (_f : RWord) (s : State) : Out3 := runWord s .plain (fun _ => []) fun c => .ok (complete s c [] 0 .t1)

/-- The leaves of capq (R254); leaf 1 describes the executing core. -/
def capLeaf (s : State) (c : Ctx) : Nat → Dword
  | 0 => BitVec.ofNat 64 (0xDE1D * 2 ^ 48 + 0x0768 * 2 ^ 32 + Config.stepping.toNat * 2 ^ 16 + 1)
  | 1 =>
    let n := (fenceDies s (fenceOf s c.crew.part)).length
    BitVec.ofNat 64 (if c.l then 2 ^ 40 + 8 * 2 ^ 32 + 64 * 2 ^ 24 + 16 * 2 ^ 16 + 4 * 2 ^ 8 + n
                     else 32 * 2 ^ 32 + 96 * 2 ^ 24 + 8 * 2 ^ 16 + 2 * 2 ^ 8 + n)
  | 2 => 0xF
  | _ => 0

/-- capq (R253): the leaf ANDed with the partition's mask; a leaf above 7 reads 0. -/
def execCapq (f : RWord) (s : State) : Out3 :=
  runWord s .plain (fun _ => [dstSOnly f.d, srcS f.a]) fun c =>
    let n := (sval s c 1 f.a).toNat
    finishWrites s c (wrScalar f.d (if n < 8 then capLeaf s c n &&& capOf s c.crew.part n else 0)) 0 .t1

end Sys2Proof.Machine
end

