-- ==== Sys2Proof/Machine/Control.lean ====
section
/-!
DEFINITION. Control and strand words (13 R239 to R247), the join stack (06 R114), and the trap and rte words (17 R332, R333).
-/
namespace Sys2Proof.Machine

/-! ## The join stack (R113, R114) -/

/-- The lowest free split number (R110). -/
def Group.freeNum (g : Group) : Option Nat := (List.range 4).find? fun n => !g.splits.any fun p => p.num == n

/-- Insert a split in rising number. -/
def insertSplit (p : Split) : List Split → List Split
  | [] => [p]
  | q :: t => if p.num < q.num then p :: q :: t else q :: insertSplit p t

/-- A split that starts from an entry (R111, R114). -/
def freshSplit (num : Nat) (pc ent : Pcoff) (ep : BitVec 16) (fused : Bool) (e : Entry) : Split :=
  { num := num, pc := pc, mask := e.mask, ent := ent, ep := ep, closed := false, fused := fused, barWait := none, waiting := none, parked := none,
    relIds := e.relIds, acqIds := e.acqIds, view := e.view, oldSpec := none, hnd := e.hnd, atSe := none, stale := 0, rerun := false, past := e.past,
    tunPast := e.tunPast }

/-- What a split leaves to those that follow it in program order: a division or fusion orders all its accesses before theirs (R162). -/
def Entry.after (e : Entry) (g : Group) (p : Split) (tun : List Nat) : Entry :=
  { e with relIds := e.relIds ++ p.relIds, acqIds := e.acqIds ++ p.acqIds ++ ((g.outsOf p).filter fun o => o.far.isSome).map (·.id),
           past := e.past ++ (g.outsOf p).map (·.id), tunPast := e.tunPast ++ tun }

/-- An entry of a split's lanes with what the split leaves to it. -/
def parkEntry (g : Group) (p : Split) (pc : Pcoff) (mask : Mask) (tun : List Nat) : Entry :=
  ({ kind := .park, mask := mask, arr := 0, pcoff := pc, ent := p.ent, ep := p.ep, fused := false, hnd := p.hnd, view := p.view, relIds := [], acqIds := [],
     past := [], tunPast := [] } : Entry).after g p tun

/-- What two splits that fuse may still miss: a result counts from its producer on each path; a write that either has ordered is ordered (R125, R162). -/
def mergeViews (a b : List Hazard) : List Hazard :=
  let other := fun (h : Hazard) (v : List Hazard) => v.find? fun k => k.id == h.id && k.reg == h.reg
  (a.filterMap fun h =>
    match other h b with
    | some k => some { h with left := match h.left, k.left with | none, none => none | some n, none => some n | none, some n => some n | some n, some m => some (max n m) }
    | none => if h.left.isSome then some h else none)
  ++ b.filter fun h => (other h a).isNone && h.left.isSome

/-- A mark whose lanes have all arrived (R114). -/
def Entry.ready (e : Entry) : Bool := e.kind == .mark && e.arr == e.mask && e.mask != 0

/-- Complete the topmost ready mark: the fused split starts at the word after the join, or waits as a PARK entry (R114). The function gives the point of
the se at an offset. -/
def completeMark (pt : Pcoff → BitVec 16) (g : Group) : Group :=
  match g.stack.find? Entry.ready with
  | none => g
  | some e =>
    let off := e.pcoff + 1
    match g.freeNum with
    | some n =>
      { g with stack := g.stack.eraseP Entry.ready, splits := insertSplit (freshSplit n off off (pt off) true e) g.splits }
    | none =>
      { g with stack := modFirst g.stack Entry.ready fun e => { e with kind := .park, arr := 0, pcoff := off, ent := off, ep := pt off, fused := true } }

/-- Start the topmost parked entry under a free number (R114). -/
def startPark (g : Group) : Group :=
  match g.freeNum with
  | none => g
  | some n =>
    match g.stack.find? fun e => e.kind == .park with
    | none => g
    | some e =>
      { g with stack := g.stack.eraseP fun e => e.kind == .park,
               splits := insertSplit (freshSplit n e.pcoff e.ent e.ep e.fused e) g.splits }

/-- Apply a function n times. -/
def times {α : Type} (f : α → α) : Nat → α → α
  | 0, x => x
  | n + 1, x => times f n (f x)

/-- The rows of R114 that follow a join or an exit: marks complete, then parked entries start. -/
def settleStack (pt : Pcoff → BitVec 16) (g : Group) : Group := times startPark 4 (times (completeMark pt) 16 g)

/-- The point of the se at an offset of the running encoding; 0 where no se stands there. -/
def pointAt (s : State) (c : Ctx) (off : Pcoff) : BitVec 16 := (seIdOf (codeWord s c.r.core c.crew off)).getD 0

/-- A load result that a split of the group or a parked set of lanes still awaits, where the executing split ends (R245). -/
def Group.stillAwaits (g : Group) (id : Nat) : Bool := g.splits.any (fun p => p.past.contains id) || g.stack.any fun e => e.past.contains id

/-- Lanes leave every entry of the stack; an entry that they empty goes (R114). Results that they alone await are discarded: the lanes of a vector load, a
scalar load that no split left awaits (R245). -/
def Group.dropLanes (g : Group) (split : Nat) (m : Mask) : Group :=
  let st := (g.stack.map fun e => { e with mask := e.mask &&& ~~~m, arr := e.arr &&& ~~~m }).filter fun e => e.mask != 0
  let g := { g with stack := st }
  let keep := fun (o : Out) => o.kind == .store || o.kind == .atomic || o.kind == .mx
  { g with outs := ((g.outs.map fun o => if keep o || o.scalar then o else { o with lanes := o.lanes &&& ~~~m }).filter fun o =>
      keep o || (if o.scalar then g.splits.any (fun p => p.num == o.split) || g.stillAwaits o.id else o.lanes != 0)).map fun o => if o.split == split then { o with split := noSplit } else o }

/-- The Tun operations of a split that ends bear its number no more. -/
def State.leaveTun (s : State) (c : Ctx) : State :=
  s.modCore c.r.core fun k =>
    { k with tun := k.tun.map fun t => if t.crew == c.r.crew && t.gid == c.r.gid && t.split == c.r.split then { t with split := noSplit } else t }

/-- The executing split ends with all its lanes (R245). -/
def exitSplit (s : State) (c : Ctx) (split : Nat) (mask : Mask) : State :=
  let s := (s.modGroup c.r.core c.r.crew c.r.gid fun g =>
    settleStack (pointAt s c) ({ g with splits := g.splits.filter fun p => p.num != split }.dropLanes split mask)).leaveTun c
  match s.group? c.r.core c.r.crew c.r.gid with
  | none => s
  | some g => if g.splits.isEmpty && g.stack.isEmpty then groupEnds s c.r.core c.r.crew c.r.gid false else s

/-! ## Branches (R239 to R243) -/

/-- br, ret and exit and retire may be executed by a closed split (R243). -/
def RowKind.closedBranch : RowKind := ⟨none, false, true⟩

/-- The target of an offset (R240); none outside the encoding. -/
def target? (pc : Pcoff) (imm : Word) : Option Pcoff :=
  let t : Int := (pc.toNat : Int) + imm.toInt
  if 0 ≤ t ∧ t < 2 ^ 32 then some (BitVec.ofInt 54 t) else none

/-- The whole split moves (R241). -/
def moveTo (s : State) (c : Ctx) (ws : List Wr) (t : Pcoff) : State := completeWith s c ws 0 .t1 fun p => { p with pc := t }

/-- br (R241). -/
def execBr (f : IWord) (s : State) : Out3 :=
  runWord s .closedBranch (fun _ => []) fun c =>
    match target? c.sp.pc f.imm with
    | none => .trap 0x1A 0 0
    | some t => .ok (moveTo s c [] t)

/-- A uniform conditional branch on an S-class source (R241). -/
def branchIf (f : IWord) (p : Dword → Bool) (s : State) : Out3 :=
  runWord s .plain (fun _ => [srcS f.a]) fun c =>
    match target? c.sp.pc f.imm with
    | none => .trap 0x1A 0 0
    | some t => .ok (if p (sval s c 1 f.a) then moveTo s c [] t else complete s c [] 0 .t1)

/-- bz (R241). -/
def execBz (f : IWord) (s : State) : Out3 := branchIf f (fun a => a == 0) s
/-- bnz (R241). -/
def execBnz (f : IWord) (s : State) : Out3 := branchIf f (fun a => a != 0) s

/-- The A field of a split branch: a k register (R239). -/
def srcK : Operand → Option Byte
  | .k _ => none
  | _ => some 0x10

/-- The division of a split (R111, R241): T to the target, the rest to the next word, as a new split or a PARK entry. Both inherit ENT, what the branch leaves
in flight, and what precedes it in program order (R162). -/
def divide (s : State) (c : Ctx) (t : Mask) (tgt : Pcoff) : Res :=
  let rest := c.sp.mask &&& ~~~t
  let tun := tunOf s c.r.core c.r.crew c.r.gid c.sp
  let u := completeWith s c [] 0 .t1 fun p => { p with pc := tgt, mask := t }
  let entry := fun (g : Group) => (g.split? c.r.split).map fun p => parkEntry g p (c.sp.pc + 1) rest tun
  let ordered := fun (g : Group) (e : Entry) => g.modSplit c.r.split fun p => { p with acqIds := e.acqIds }
  match c.g.freeNum with
  | none =>
    if c.g.stack.length < 16 then
      .ok (u.modGroup c.r.core c.r.crew c.r.gid fun g =>
        match entry g with
        | none => g
        | some e => { ordered g e with stack := e :: g.stack })
    else .trap 0x18 0 0
  | some n =>
    .ok (u.modGroup c.r.core c.r.crew c.r.gid fun g =>
      match entry g, g.split? c.r.split with
      | some e, some p =>
        { g with splits := insertSplit { p with num := n, pc := c.sp.pc + 1, mask := rest, acqIds := e.acqIds, past := e.past, tunPast := e.tunPast }
                            (ordered g e).splits }
      | _, _ => g)

/-- A split branch taken by the lanes T (R241). DESIGN CHOICE (log 82): a target outside the encoding (0x1A) is reported before a full stack (0x18); R181 gives no order
within the class. -/
def splitBranch (f : IWord) (neg : Bool) (s : State) : Out3 :=
  runWord s .plain (fun _ => [srcK f.a]) fun c =>
    match target? c.sp.pc f.imm with
    | none => .trap 0x1A 0 0
    | some tgt =>
      let m := (sval s c 1 f.a).setWidth 32
      let t := c.sp.mask &&& (if neg then ~~~m else m)
      if t == c.sp.mask then .ok (moveTo s c [] tgt)
      else if t == 0 then .ok (complete s c [] 0 .t1)
      else divide s c t tgt

/-- bk (R241). -/
def execBk (f : IWord) (s : State) : Out3 := splitBranch f false s
/-- bnk (R241). -/
def execBnk (f : IWord) (s : State) : Out3 := splitBranch f true s

/-- D of call: s0 to s63; k0 and the specials take 0x12, any other 0x10 (R239). -/
def dstCall : Operand → Option Byte
  | .k i => if i == 0 then some 0x12 else some 0x10
  | .special _ => some 0x12
  | .s _ => none
  | _ => some 0x10

/-- call (R242). -/
def execCall (f : IWord) (s : State) : Out3 :=
  runWord s .plain (fun _ => [dstCall f.d]) fun c =>
    match target? c.sp.pc f.imm with
    | none => .trap 0x1A 0 0
    | some t => .ok (moveTo s c (wrScalar f.d ((c.sp.pc + 1).setWidth 64)) t)

/-- ret (R240, R242). -/
def execRet (f : IWord) (s : State) : Out3 :=
  runWord s .closedBranch (fun _ => [srcS f.a]) fun c =>
    let a := sval s c 1 f.a
    if a.toNat < 2 ^ 32 then .ok (moveTo s c [] (a.setWidth 54)) else .trap 0x1A 0 0

/-! ## mark, join, exit (R244, R245) -/

/-- mark (R244). DESIGN CHOICE (log 82): a full stack (0x18) is reported before a target outside the encoding (0x1A); R181 gives no order within the class. -/
def execMark (f : IWord) (s : State) : Out3 :=
  runWord s .commit (fun _ => []) fun c =>
    if 16 ≤ c.g.stack.length then .trap 0x18 0 0
    else match target? c.sp.pc f.imm with
      | none => .trap 0x1A 0 0
      | some t =>
        .ok ((completeWith s c [] 0 .t1 fun p => { p.next with closed := true }).modGroup c.r.core c.r.crew c.r.gid fun g =>
          { g with stack := { kind := .mark, mask := c.sp.mask, arr := 0, pcoff := t, ent := c.sp.ent, ep := c.sp.ep, fused := false, hnd := false,
                              view := [], relIds := [], acqIds := [], past := [], tunPast := [] } :: g.stack })

/-- The governing mark of a mask: the topmost MARK entry that it meets (R114). -/
def governs (m : Mask) (e : Entry) : Bool := e.kind == .mark && (e.mask &&& m) != 0

/-- join (R114, R244). -/
def execJoin (_f : IWord) (s : State) : Out3 :=
  runWord s .commit (fun _ => []) fun c =>
    match c.g.stack.find? (governs c.sp.mask) with
    | none => .trap 0x19 0 0
    | some e =>
      if (c.sp.mask &&& ~~~e.mask) != 0 || e.pcoff != c.sp.pc then .trap 0x19 0 0
      else
        let tun := tunOf s c.r.core c.r.crew c.r.gid c.sp
        let u := (completeWith s c [] 0 .t1 id).leaveTun c
        .ok (u.modGroup c.r.core c.r.crew c.r.gid fun g =>
          let p := (g.split? c.r.split).getD c.sp
          let g := { g with splits := g.splits.filter fun p => p.num != c.r.split,
                            stack := modFirst g.stack (governs c.sp.mask) fun e =>
                              { e.after g p tun with arr := e.arr ||| c.sp.mask, view := if e.arr == 0 then p.view else mergeViews e.view p.view },
                            outs := g.outs.map fun o => if o.split == c.r.split then { o with split := noSplit } else o }
          settleStack (pointAt s c) g)

/-- Words that end lanes: refused in handler mode, allowed to a closed split (R187, R243). -/
def RowKind.ender : RowKind := ⟨none, true, true⟩

/-- exit (R245). -/
def execExit (_f : IWord) (s : State) : Out3 :=
  runWord s .ender (fun _ => []) fun c =>
    .ok { exitSplit s c c.r.split c.sp.mask with free := s.free + 1 }

/-! ## Kill points (R93, R94) and se (R246) -/

/-- The group of a word dies at its next kill point. -/
def dieing (s : State) (c : Ctx) : Bool := groupDoomed s c.r.core c.crew c.g

/-- The group dies here (R94, R96). -/
def dieHere (s : State) (c : Ctx) : State := groupEnds s c.r.core c.r.crew c.r.gid true

/-- The split stands before an se under a migration stop: its group stops there, once what may not be cut short has completed (R112, R119, R137). In handler mode
the handler runs again from its start in any case (R193). -/
def stopAtSe (s : State) (c : Ctx) (id : BitVec 16) : State :=
  takeTrap s c.r.core c.r.crew c.r.gid c.r.split stopSe 0 (id.setWidth 64)

/-- The effect of se: X and O zero for the split's lanes, ENT here, the strand open (R128, R246). Rejections count on in a strand that re-runs (R148). What
other splits read of those lanes is the zero or what was there before (R224). -/
def enterStrand (s : State) (c : Ctx) (id : BitVec 16) : State :=
  let m := c.sp.mask
  let near := fun (h : Hazard) => h.left.isSome && (match h.reg with | .o _ => true | .x _ => true | _ => false)
  let s := completeWith s c [] 0 .t1 fun p =>
    { p.next with ent := c.sp.pc, ep := id, closed := false, fused := false, atSe := none, rerun := false, stale := if p.rerun then p.stale else 0,
                  view := p.view.filter fun h => !near h }
  s.modGroup c.r.core c.r.crew c.r.gid fun g =>
    let old := ((List.range 16).map Reg.o ++ (List.range 4).map Reg.x).map fun r => (⟨s.free, r, m, .vec (g.readVec r), none⟩ : Hazard)
    { g with o := g.o.map (mergeLanes m zeroLanes), x := g.x.map (mergeLanes m zeroLanes)
             splits := g.splits.map fun p => if p.num == c.r.split then p else { p with view := old ++ p.view }
             stack := g.stack.map fun e => { e with view := old ++ e.view } }

/-- se (R246): kill point, migration stop, handler mode, mapping check, effect. -/
def execSe (f : IWord) (s : State) : Out3 :=
  match s.ctx with
  | none => .fault .noIssuer
  | some c =>
    let id : BitVec 16 := f.imm.setWidth 16
    if dieing s c then .next (dieHere s c)
    else if c.g.migStop then .next (stopAtSe s c id)
    else if c.g.handler.isSome then finish s c (.trap 0x0F 0 0)
    else match eqPoint? s c.crew.part c.crew.pasid.toNat c.crew.code c.regs id.toNat (clusterOf c.r.core) with
      | none => finish s c (.trap 0x1C 0 0)
      | some e => if e.off == c.sp.pc.toNat then finish s c (.ok (enterStrand s c id)) else finish s c (.trap 0x1C 0 0)

/-- migr (R247). -/
def execMigr (f : IWord) (s : State) : Out3 :=
  runWord s ⟨some 3, true, false⟩ (fun _ => [dstSOnly f.d]) fun c =>
    let w := c.crew
    let o := !c.l
    let v : Dword :=
      if !present w.code o then 2 else if !affAllows w.task o then 3 else if !fits w.task o then 4 else if w.migr then 1 else 0
    .ok ((commit s c (wrScalar f.d v) .t1).modCrew c.r.core c.r.crew fun w => if v == 0 then { w with migr := true } else w)

/-! ## trap and rte (R332, R333) -/

/-- A of trap: an inline constant 0 to 7 (R332). -/
def trapSel : Operand → Option Byte
  | .const k => codeIf (bits (constVal k) 63 3 != 0) 0x14
  | _ => some 0x10

/-- trap (R332): a commit, completed when the trap is raised. The word after a wrsr acts under the older CTX (R249). -/
def execTrap (f : RWord) (s : State) : Out3 :=
  runWord s .commit (fun _ => [trapSel f.a]) fun c =>
    let t := (commit s c [] .t1).modSplit c.r fun p => { p with oldSpec := c.sp.oldSpec }
    .ok (takeTrap t c.r.core c.r.crew c.r.gid c.r.split (BitVec.ofNat 8 (0x20 + bits (sval s c 1 f.a) 2 0)) 0 0)

/-- rte (R187, R333). -/
def execRte (_f : RWord) (s : State) : Out3 :=
  runWord s .plain (fun _ => []) fun c =>
    if c.g.handler.isNone then .trap 0x1E 0 0
    else
      let far := (c.g.outs.filter fun o => o.far.isSome).map (·.id)
      if far.isEmpty then .ok (leaveHandler s c.r.core c.r.crew c.r.gid) else .park (.release far)

end Sys2Proof.Machine
end

