-- ==== Sys2Proof/Machine/Float.lean ====
section
/-!
DEFINITION. Floating point (11): the formats, exact values, the one rounding of each result with its flags (R199 to R202), and the special functions of
R295, worked out with far more bits than any FP32 result needs to round correctly.
-/
namespace Sys2Proof.Machine

/-- A floating-point format (R196): exponent and fraction widths, bias; F8E4 has no infinity (R197). -/
structure FloatFmt where
  ebits : Nat
  frac : Nat
  bias : Nat
  noInf : Bool
  deriving DecidableEq, Repr

def FloatFmt.f32 : FloatFmt := ⟨8, 23, 127, false⟩
def FloatFmt.f16 : FloatFmt := ⟨5, 10, 15, false⟩
def FloatFmt.bf16 : FloatFmt := ⟨8, 7, 127, false⟩
def FloatFmt.f8e4 : FloatFmt := ⟨4, 3, 7, true⟩
def FloatFmt.f8e5 : FloatFmt := ⟨5, 2, 15, false⟩

/-- A value: NaN, an infinity, or plus or minus m times 2^e; zero keeps its sign. -/
inductive FVal where
  | nan
  | inf (neg : Bool)
  | fin (neg : Bool) (m : Nat) (e : Int)
  deriving DecidableEq, Repr

/-- The value of an encoding (R196, R197). -/
def FloatFmt.val (f : FloatFmt) (b : Nat) : FVal :=
  let neg := b / 2 ^ (f.ebits + f.frac) % 2 == 1
  let ex := b / 2 ^ f.frac % 2 ^ f.ebits
  let fr := b % 2 ^ f.frac
  if f.noInf && ex == 2 ^ f.ebits - 1 && fr == 2 ^ f.frac - 1 then .nan
  else if !f.noInf && ex == 2 ^ f.ebits - 1 then (if fr == 0 then .inf neg else .nan)
  else if ex == 0 then .fin neg fr (1 - f.bias - f.frac)
  else .fin neg (2 ^ f.frac + fr) ((ex : Int) - f.bias - f.frac)

/-- Width of the format. -/
def FloatFmt.width (f : FloatFmt) : Nat := 1 + f.ebits + f.frac

/-- The canonical NaN (R197). -/
def FloatFmt.nan (f : FloatFmt) : Nat :=
  if f.noInf then 2 ^ (f.ebits + f.frac) - 1 else (2 ^ f.ebits - 1) * 2 ^ f.frac + 2 ^ (f.frac - 1)

/-- The sign bit. -/
def FloatFmt.sign (f : FloatFmt) (neg : Bool) : Nat := if neg then 2 ^ (f.ebits + f.frac) else 0

/-- An infinity, of a format that has one. -/
def FloatFmt.inf (f : FloatFmt) (neg : Bool) : Nat := f.sign neg + (2 ^ f.ebits - 1) * 2 ^ f.frac

/-- The largest finite value, without its sign. -/
def FloatFmt.maxFin (f : FloatFmt) : Nat := if f.noInf then 2 ^ (f.ebits + f.frac) - 2 else (2 ^ f.ebits - 1) * 2 ^ f.frac - 1

/-- Rounding modes (R199). -/
inductive RMode where
  | rne | rtz | rdn | rup
  deriving DecidableEq, Repr

/-- Bits of a number. -/
def blen (n : Nat) : Nat := if n = 0 then 0 else Nat.log2 n + 1

/-- Round q plus the fraction r of d (with a sticky part below, when st) to an integer. -/
def roundInt (mode : RMode) (neg : Bool) (q r d : Nat) (st : Bool) : Nat :=
  let some_ := r != 0 || st
  let up :=
    match mode with
    | .rtz => false
    | .rdn => neg && some_
    | .rup => !neg && some_
    | .rne => decide (d < 2 * r) || (2 * r == d && (st || q % 2 == 1))
  if up then q + 1 else q

/-- m times 2^e, and a sticky part below it, as a number of units of 2^u, rounded; and whether the rounding lost anything. -/
def roundAt (mode : RMode) (neg : Bool) (m : Nat) (e u : Int) (st : Bool) : Nat × Bool :=
  if u ≤ e then (roundInt mode neg (m * 2 ^ (e - u).toNat) 0 2 st, st)
  else
    let d := 2 ^ (u - e).toNat
    (roundInt mode neg (m / d) (m % d) d st, m % d != 0 || st)

/-- A result and the flags it raises. -/
structure FRes where
  bits : Nat
  flags : Byte
  deriving DecidableEq, Repr

/-- What an overflow delivers (R199, R200). -/
def overflowRes (f : FloatFmt) (mode : RMode) (neg : Bool) : FRes :=
  if f.noInf then ⟨f.sign neg + f.maxFin, fSaturation ||| fOverflow ||| fInexact⟩
  else
    let toMax := match mode with | .rne => false | .rtz => true | .rdn => !neg | .rup => neg
    ⟨if toMax then f.sign neg + f.maxFin else f.inf neg, fOverflow ||| fInexact⟩

/-- THE ROUNDING of a non-zero exact result to a format (R199, R200, R202). The exact magnitude is m times 2^e, or with st lies strictly between that and the
next number of units of 2^e. -/
def roundTo (f : FloatFmt) (mode : RMode) (neg : Bool) (m : Nat) (e : Int) (st : Bool) : FRes :=
  let p := f.frac + 1
  let u := e + blen m - p
  let umin : Int := 1 - f.bias - f.frac
  let free := (roundAt mode neg m e u st).1
  -- tiny: the rounding with an unbounded exponent stays below 2^(1 - bias)
  let tiny := decide (u + p ≤ 1 - f.bias) && !(free == 2 ^ p && u + p == 1 - f.bias)
  let v := max u umin
  let (q0, lost) := roundAt mode neg m e v st
  let (q, v) := if q0 == 2 ^ p then (2 ^ f.frac, v + 1) else (q0, v)
  let field : Int := if q < 2 ^ f.frac then 0 else v + f.frac + f.bias
  let tooBig := decide ((if f.noInf then (2 ^ f.ebits - 1 : Int) else 2 ^ f.ebits - 2) < field)
    || (f.noInf && field == 2 ^ f.ebits - 1 && q == 2 ^ p - 1)
  if tooBig then overflowRes f mode neg
  else
    let b := if field == 0 then q else field.toNat * 2 ^ f.frac + (q - 2 ^ f.frac)
    ⟨f.sign neg + b, flagIf lost fInexact ||| flagIf (tiny && lost) fUnderflow⟩

/-- Round an exact signed integer number of units of 2^e; zero takes the sign given (R199). -/
def roundExact (f : FloatFmt) (mode : RMode) (v : Int) (e : Int) (zneg : Bool) : FRes :=
  if v == 0 then ⟨f.sign zneg, 0⟩ else roundTo f mode (decide (v < 0)) v.natAbs e false

/-- An infinity delivered in a format (R197, R200). -/
def infRes (f : FloatFmt) (neg : Bool) : FRes := if f.noInf then ⟨f.sign neg + f.maxFin, fSaturation⟩ else ⟨f.inf neg, 0⟩

/-- Invalid: the canonical NaN (R202). -/
def invalidRes (f : FloatFmt) : FRes := ⟨f.nan, fInvalid⟩

/-- A value rounded to a format. -/
def FVal.to (f : FloatFmt) (mode : RMode) : FVal → FRes
  | .nan => ⟨f.nan, 0⟩
  | .inf n => infRes f n
  | .fin n m e => if m == 0 then ⟨f.sign n, 0⟩ else roundTo f mode n m e false

/-- The sign of a value. -/
def FVal.neg? : FVal → Bool
  | .nan => false | .inf n => n | .fin n _ _ => n

/-- The value with its sign inverted. -/
def FVal.flip : FVal → FVal
  | .nan => .nan | .inf n => .inf !n | .fin n m e => .fin (!n) m e

/-- An exact product, and whether it is 0 times infinity. -/
def FVal.mul : FVal → FVal → FVal × Bool
  | .nan, _ => (.nan, false)
  | _, .nan => (.nan, false)
  | .inf a, .inf b => (.inf (a != b), false)
  | .inf a, .fin b m _ => if m == 0 then (.nan, true) else (.inf (a != b), false)
  | .fin a m _, .inf b => if m == 0 then (.nan, true) else (.inf (a != b), false)
  | .fin a m e, .fin b n g => (.fin (a != b) (m * n) (e + g), false)

/-- The least exponent among finite addends. -/
def minExp : List FVal → Int
  | [] => 0
  | .fin _ _ e :: [] => e
  | .fin _ _ e :: t => min e (minExp t)
  | _ :: t => minExp t

/-- The exact sum of finite addends in units of 2^e. -/
def sumAt (e : Int) (l : List FVal) : Int :=
  l.foldl (fun a v => match v with | .fin n m g => a + (if n then -1 else 1) * (m * 2 ^ (g - e).toNat : Nat) | _ => a) 0

/-- The sign of an exact zero sum (R199): minus when every addend is minus zero, or under RDN when the addends are not all plus zero. -/
def zeroNeg (mode : RMode) (l : List FVal) : Bool :=
  if l.isEmpty then false else l.all FVal.neg? || (mode == .rdn && l.any FVal.neg?)

/-- An exact sum, rounded once (R199, R211): opposite infinities or a product of 0 and infinity are Invalid even beside a NaN. -/
def sumRes (f : FloatFmt) (mode : RMode) (l : List FVal) (inv : Bool) : FRes :=
  if inv || (l.contains (.inf true) && l.contains (.inf false)) then invalidRes f
  else if l.contains .nan then ⟨f.nan, 0⟩
  else if l.contains (.inf true) then infRes f true
  else if l.contains (.inf false) then infRes f false
  else roundExact f mode (sumAt (minExp l) l) (minExp l) (zeroNeg mode l)

/-- a times b plus c, rounded once (R283). -/
def fmaRes (f : FloatFmt) (mode : RMode) (a b c : FVal) : FRes :=
  let (p, inv) := a.mul b
  sumRes f mode [p, c] inv

/-- a times b, rounded once. -/
def mulRes (f : FloatFmt) (mode : RMode) (a b : FVal) : FRes :=
  let (p, inv) := a.mul b
  if inv then invalidRes f else p.to f mode

/-- Order of encodings that are no NaN, with minus zero below plus zero (R282). -/
def FloatFmt.key (f : FloatFmt) (b : Nat) : Int :=
  let h := 2 ^ (f.ebits + f.frac)
  if h ≤ b then -((b - h : Nat) : Int) - 1 else b

/-- Order of encodings that are no NaN, the zeros equal. -/
def FloatFmt.cmpKey (f : FloatFmt) (b : Nat) : Int :=
  let h := 2 ^ (f.ebits + f.frac)
  if h ≤ b then -((b - h : Nat) : Int) else b

/-- The encoding is a NaN. -/
def FloatFmt.isNan (f : FloatFmt) (b : Nat) : Bool := f.val b == .nan

/-- Minimum and maximum (R198, R282). -/
def FloatFmt.minmax (f : FloatFmt) (mx : Bool) (a b : Nat) : Nat :=
  if f.isNan a then (if f.isNan b then f.nan else b)
  else if f.isNan b then a
  else if mx then (if f.key a < f.key b then b else a) else (if f.key b < f.key a then b else a)

/-! ## Quotients and roots, exact to the sticky bit -/

/-- A non-zero magnitude of a function: m times 2^e and a sticky part. -/
structure Mag where
  m : Nat
  e : Int
  st : Bool
  deriving DecidableEq, Repr

/-- m1 2^e1 divided by m2 2^e2, to at least 64 bits. -/
def divMag (m1 : Nat) (e1 : Int) (m2 : Nat) (e2 : Int) : Mag :=
  let k := 64 + blen m2
  let n := m1 * 2 ^ k
  ⟨n / m2, e1 - e2 - k, n % m2 != 0⟩

/-- The square root of m 2^e. -/
def sqrtMag (m : Nat) (e : Int) : Mag :=
  let e' := if e % 2 == 0 then e - 128 else e - 127
  let n := m * 2 ^ (e - e').toNat
  let r := Nat.sqrt n
  ⟨r, e' / 2, r * r != n⟩

/-- One over the square root of m 2^e. -/
def rsqrtMag (m : Nat) (e : Int) : Mag :=
  let h := 128 + blen m
  -- 1 / (m 2^e) = 2^k / m * 2^(-e-k), with e + k even
  let k := if (e + h) % 2 == 0 then h else h + 1
  let r := Nat.sqrt (2 ^ k / m)
  ⟨r, -(e + k) / 2, r * r * m != 2 ^ k⟩

/-! ## Elementary functions in fixed point: p bits after the point -/

/-- Terms of exp: t is x^(k-1)/(k-1)!. -/
def expTerms (p x : Nat) : Nat → Nat → Nat → Nat
  | 0, _, _ => 0
  | n + 1, k, t => t + expTerms p x n (k + 1) (t * x / 2 ^ p / k)

/-- exp of a number from 0 to 1. -/
def expFix (p x : Nat) : Nat := expTerms p x 110 1 (2 ^ p)

/-- Terms of atanh: z to odd powers over them. -/
def atanhTerms (p z2 : Nat) : Nat → Nat → Nat → Nat
  | 0, _, _ => 0
  | n + 1, k, t => t / k + atanhTerms p z2 n (k + 2) (t * z2 / 2 ^ p)

/-- atanh of a number from 0 to 1/3. -/
def atanhFix (p z : Nat) : Nat := atanhTerms p (z * z / 2 ^ p) 130 1 z

/-- The natural logarithm of 2. -/
def ln2Fix (p : Nat) : Nat := 2 * atanhFix p (2 ^ p / 3)

/-- Terms of arctan: alternating. -/
def atanTerms (z2 : Nat) : Nat → Nat → Int → Int
  | 0, _, _ => 0
  | n + 1, k, t => t / (k : Int) + atanTerms z2 n (k + 2) (-t / (z2 : Int))

/-- Pi, by Machin's formula. -/
def piFix (p : Nat) : Nat :=
  (4 * (4 * atanTerms 25 ((p + 8) / 4) 1 (2 ^ p / 5 : Nat) - atanTerms (239 * 239) ((p + 8) / 8) 1 (2 ^ p / 239 : Nat))).toNat

/-- Terms of sine and cosine: t is the k-th term, alternating. -/
def trigTerms (p x2 : Nat) : Nat → Nat → Int → Int
  | 0, _, _ => 0
  | n + 1, k, t => t + trigTerms p x2 n (k + 2) (-(t * x2 / 2 ^ p / ((k + 1) * (k + 2) : Nat)))

/-- Sine and cosine of a number from 0 to 1. -/
def sinFix (p x : Nat) : Nat := (trigTerms p (x * x / 2 ^ p) 60 1 x).toNat
def cosFix (p x : Nat) : Nat := (trigTerms p (x * x / 2 ^ p) 60 0 (2 ^ p : Nat)).toNat

/-- Working precision for functions whose argument is not tiny. -/
def wp : Nat := 320

/-- 2^(x / 2^wp), for a fixed-point x of either sign: a fixed-point mantissa from 1 to 2 and an exponent. -/
def exp2Fix (x : Int) : Nat × Int :=
  let n := Int.fdiv x (2 ^ wp : Nat)
  let f := (x - n * (2 ^ wp : Nat)).toNat
  (expFix wp (f * ln2Fix wp / 2 ^ wp), n)

/-- 2 to the power of m 2^e with a sign, not an integer, of magnitude below 2^9. -/
def exp2Mag (neg : Bool) (m : Nat) (e : Int) : Mag :=
  let x : Int := if 0 ≤ e + wp then m * 2 ^ (e + wp).toNat else 1
  let (r, n) := exp2Fix (if neg then -x else x)
  ⟨r, n - wp, true⟩

/-- log2 of m 2^e, not a power of 2: its sign and magnitude. -/
def log2Mag (m : Nat) (e : Int) : Bool × Mag :=
  let k := blen m - 1
  let x := m * 2 ^ wp / 2 ^ k            -- from 1 to 2
  let z := (x - 2 ^ wp) * 2 ^ wp / (x + 2 ^ wp)
  let l := 2 * atanhFix wp z * 2 ^ wp / ln2Fix wp
  let v : Int := (e + k) * (2 ^ wp : Nat) + l
  (decide (v < 0), ⟨v.natAbs, -(wp : Int), true⟩)

/-- sin of pi times r = n / 2^k for r from 0 to 1/2, not an end: chosen so that a small r keeps its bits. -/
def sinpiMag (n k : Nat) : Mag :=
  let p := 200 + 2 * k
  let x := n * piFix p / 2 ^ k
  let h := piFix p / 2
  ⟨if 2 * x ≤ h then sinFix p x else cosFix p (h - x), -(p : Int), true⟩

/-- tanh of m 2^e, positive. -/
def tanhMag (m : Nat) (e : Int) : Mag :=
  let top := e + blen m
  if top ≤ -13 then ⟨m * 2 ^ 40 - 1, e - 40, true⟩        -- within 2^-27 of itself, and below
  else if 5 ≤ top then ⟨2 ^ 40 - 1, -40, true⟩             -- above 1 - 2^-45
  else
    let y := 2 * m * 2 ^ (e + wp).toNat                      -- 2a
    let (r, n) := exp2Fix (-((y * 2 ^ wp / ln2Fix wp : Nat) : Int))
    let t := if n ≤ 0 then r / 2 ^ (-n).toNat else r
    ⟨(2 ^ wp - t) * 2 ^ wp / (2 ^ wp + t), -(wp : Int), true⟩

/-- A magnitude rounded to FP32, nearest even (R295). -/
def Mag.to32 (g : Mag) (neg : Bool) : FRes := roundTo .f32 .rne neg g.m g.e g.st

/-! ## The special functions (R295) -/

def nan32 : FRes := ⟨FloatFmt.f32.nan, 0⟩
def one32 : Nat := 0x3F800000

/-- rcp. -/
def rcpRes : FVal → FRes
  | .nan => nan32
  | .inf n => ⟨FloatFmt.f32.sign n, 0⟩
  | .fin n m e => if m == 0 then ⟨FloatFmt.f32.inf n, fDivZero⟩ else (divMag 1 0 m e).to32 n

/-- sqrt. -/
def sqrtRes : FVal → FRes
  | .nan => nan32
  | .inf n => if n then invalidRes .f32 else ⟨FloatFmt.f32.inf false, 0⟩
  | .fin n m e => if m == 0 then ⟨FloatFmt.f32.sign n, 0⟩ else if n then invalidRes .f32 else (sqrtMag m e).to32 false

/-- rsqrt. -/
def rsqrtRes : FVal → FRes
  | .nan => nan32
  | .inf n => if n then invalidRes .f32 else ⟨0, 0⟩
  | .fin n m e => if m == 0 then ⟨FloatFmt.f32.inf n, fDivZero⟩ else if n then invalidRes .f32 else (rsqrtMag m e).to32 false

/-- m 2^e as an integer, if it is one. -/
def asInt? (m : Nat) (e : Int) : Option Nat :=
  if m == 0 then some 0
  else if 0 ≤ e then some (m * 2 ^ e.toNat) else if m % 2 ^ (-e).toNat == 0 then some (m / 2 ^ (-e).toNat) else none

/-- exp2. Beyond 2^9 the result overflows or lies below half the smallest subnormal. -/
def exp2Res : FVal → FRes
  | .nan => nan32
  | .inf n => ⟨if n then 0 else FloatFmt.f32.inf false, 0⟩
  | .fin n m e =>
    if m == 0 then ⟨one32, 0⟩
    else if 9 < e + blen m then (if n then roundTo .f32 .rne false 1 (-600) false else overflowRes .f32 .rne false)
    else match asInt? m e with
      | some k => roundTo .f32 .rne false 1 (if n then -(k : Int) else k) false
      | none => (exp2Mag n m e).to32 false

/-- log2. -/
def log2Res : FVal → FRes
  | .nan => nan32
  | .inf n => if n then invalidRes .f32 else ⟨FloatFmt.f32.inf false, 0⟩
  | .fin n m e =>
    if m == 0 then ⟨FloatFmt.f32.inf true, fDivZero⟩
    else if n then invalidRes .f32
    else
      let k := blen m - 1
      if m == 2 ^ k then roundExact .f32 .rne (e + k) 0 false
      else let (neg, g) := log2Mag m e; g.to32 neg

/-- sin of pi times n / 2^k, n / 2^k below 2 and no multiple of 1/2: the half period gives the sign, and sin(pi - x) = sin x. -/
def sinpiRed (neg : Bool) (n k : Nat) : FRes :=
  let one := 2 ^ k
  let neg := neg != decide (one ≤ n)
  let n := n % one
  (sinpiMag (if one < 2 * n then one - n else n) k).to32 neg

/-- sinpi. -/
def sinpiRes : FVal → FRes
  | .nan => nan32
  | .inf _ => nan32
  | .fin neg m e =>
    match asInt? m e with
    | some _ => ⟨FloatFmt.f32.sign neg, 0⟩
    | none =>
      let k := (-e).toNat
      let n := m % 2 ^ (k + 1)
      match asInt? n (1 - k) with
      | some h => ⟨FloatFmt.f32.sign (neg != decide (h == 3)) + one32, 0⟩
      | none => sinpiRed neg n k

/-- cospi: cos(pi a) = sin(pi (a + 1/2)). -/
def cospiRes : FVal → FRes
  | .nan => nan32
  | .inf _ => nan32
  | .fin _ m e =>
    match asInt? m e with
    | some i => ⟨FloatFmt.f32.sign (i % 2 == 1) + one32, 0⟩
    | none =>
      let k := (-e).toNat
      match asInt? m (e + 1) with
      | some _ => ⟨0, 0⟩
      | none => sinpiRed false ((m + 2 ^ (k - 1)) % 2 ^ (k + 1)) k

/-- tanh. -/
def tanhRes : FVal → FRes
  | .nan => nan32
  | .inf n => ⟨FloatFmt.f32.sign n + one32, 0⟩
  | .fin n m e => if m == 0 then ⟨FloatFmt.f32.sign n, 0⟩ else (tanhMag m e).to32 n

/-- div. -/
def divRes : FVal → FVal → FRes
  | .nan, _ => nan32
  | _, .nan => nan32
  | .inf _, .inf _ => invalidRes .f32
  | .inf a, .fin b _ _ => ⟨FloatFmt.f32.inf (a != b), 0⟩
  | .fin a _ _, .inf b => ⟨FloatFmt.f32.sign (a != b), 0⟩
  | .fin a m e, .fin b n g =>
    if n == 0 then (if m == 0 then invalidRes .f32 else ⟨FloatFmt.f32.inf (a != b), fDivZero⟩)
    else if m == 0 then ⟨FloatFmt.f32.sign (a != b), 0⟩
    else (divMag m e n g).to32 (a != b)

/-! ## Conversions (R201, R203, R206) -/

/-- Float to integer: rounded, clamped; the bounds of the type (R201). -/
def toIntRes (mode : RMode) (lo hi : Int) : FVal → Int × Byte
  | .nan => (0, fInvalid)
  | .inf n => (if n then lo else hi, fSaturation)
  | .fin n m e =>
    let (q, lost) := roundAt mode n m e 0 false
    let v : Int := if n then -q else q
    if v < lo then (lo, fSaturation ||| fInexact) else if hi < v then (hi, fSaturation ||| fInexact) else (v, flagIf lost fInexact)

/-- Error-feedback rounding (R203): the narrowed value, the new residue, the flags. -/
def efRes (f : FloatFmt) (x rin : Nat) : Nat × Nat × Byte :=
  let t := sumRes .f32 .rne [FloatFmt.f32.val x, FloatFmt.f32.val rin] false
  let tv := FloatFmt.f32.val t.bits
  let y := tv.to f .rne
  let yv := f.val y.bits
  let rout := match tv, yv with
    | .fin .., .fin .. => (sumRes .f32 .rne [tv, yv.flip] false).bits
    | _, _ => 0
  (y.bits, rout, t.flags ||| y.flags)

/-- The magnitudes of HQ4's levels, times 256 (R204). -/
def hq4Mag : Nat → Nat
  | 0 => 11 | 1 => 33 | 2 => 55 | 3 => 80 | 4 => 107 | 5 => 139 | 6 => 181 | _ => 256

/-- The value of an HQ4 code (R204). -/
def hq4Val (q : Nat) : FVal := .fin (decide (8 ≤ q)) (hq4Mag (q % 8)) (-8)

/-- The boundaries between levels, times 512 (R206). -/
def hq4Bounds : List Nat := [44, 88, 135, 187, 246, 320, 437]

/-- Quantising x under s (R206): the code and its flags. DEDUCED (log 14): an infinite x clips, and since its level differs from u it is inexact too. -/
def hq4Quant (x s : FVal) : Nat × Byte :=
  match x, s with
  | .nan, _ => (0, fInvalid)
  | _, .nan => (0, fInvalid)
  | _, .inf _ => (0, fInvalid)
  | .inf a, .fin b n _ => if n == 0 then (0, fInvalid) else ((if a != b then 15 else 7), fClip ||| fInexact)
  | .fin a m e, .fin b n g =>
    if n == 0 then (0, fInvalid)
    else
      let k := min e g
      let xm := m * 2 ^ (e - k).toNat
      let sm := n * 2 ^ (g - k).toNat
      let i := (hq4Bounds.filter fun c => decide (c * sm < 512 * xm)).length
      (i + (if a != b then 8 else 0), flagIf (decide (sm < xm)) fClip ||| flagIf (256 * xm != hq4Mag i * sm) fInexact)

end Sys2Proof.Machine
end

