-- ==== Sys2Proof/Machine/VecInt.lean ====
section
/-!
DEFINITION. What every vector word shares (15 R275, R276), the integer words of majors 0x07 and 0x08, and their element operations.
-/
namespace Sys2Proof.Machine

/-! ## The MR form (R222, R276) -/

/-- A rounding that a row without directed roundings, or no row, offers. -/
def rndBad (dirs : Bool) : Rnd → Bool
  | .rne => false
  | .rz => !dirs
  | .rd => !dirs
  | .ru => !dirs
  | .r5 => true
  | .r6 => true
  | .r7 => true

/-- The rounding mode. -/
def rndMode : Rnd → RMode
  | .rz => .rtz | .rd => .rdn | .ru => .rup | _ => .rne

/-- The rounding mode that a tail names. -/
def tailMode : VTail → RMode
  | .src r _ _ => rndMode r
  | .ef _ _ => .rne

/-- The codes of B, MOD and RND: whether the row reads B, offers directed roundings, offers error feedback. -/
def tailCodes (c : Ctx) (two dirs ef : Bool) : VTail → List (Option Byte)
  | .src r b m => [if two then srcV c b else none, if two then modCode m b else none, codeIf (rndBad dirs r) 0x14]
  | .ef a b => [resCode c a, resCode c b, codeIf (!ef) 0x14]

/-- The codes of an MR word with a destination of lanes. -/
def mrCodes (c : Ctx) (f : MRWord) (two dirs sat : Bool) : List (Option Byte) :=
  dstV c f.d :: srcV c f.a :: codeIf (f.sat && !sat) 0x14 :: tailCodes c two dirs false f.tail

/-- B of an MR word as its lanes read it. -/
def bLanes (s : State) (c : Ctx) (konst : BitVec 7 → Word) : VTail → Lanes
  | .src _ b m => modRead m (vval s c konst 2 b)
  | .ef _ _ => zeroLanes

/-- The class of an MR word (R224, R225). -/
def tailClass (t : TClass) : VTail → TClass
  | .src _ _ m => modClass m t
  | .ef _ _ => t

/-- The flags of the active lanes (R275). -/
def laneFlags (act : Mask) (f : Nat → Byte) : Byte := (lanesOf act).foldl (fun a l => a ||| f l) 0

/-- A lane-by-lane word of the MR form (R275, R278). -/
def laneWord (f : MRWord) (two dirs sat : Bool) (t : TClass) (konst : BitVec 7 → Word) (op : Word → Word → Word × Byte) (s : State) : Out3 :=
  runWord s .plain (fun c => mrCodes c f two dirs sat) fun c =>
    let act := actOf s c f.mask
    let a := vval s c konst 1 f.a
    let b := bLanes s c konst f.tail
    finishWrites s c (wrLanes f.d act (ofLanes fun l => (op (lane a l) (lane b l)).1))
      (laneFlags act fun l => (op (lane a l) (lane b l)).2) (tailClass t f.tail)

/-! ## Elements (R195, R278) -/

/-- Element n of w bits. -/
def elem (w n : Nat) (v : Word) : Nat := v.toNat / 2 ^ (w * n) % 2 ^ w

/-- An operation on each of the packed elements of w bits. -/
def onElems (w : Nat) (op : Nat → Nat → Nat × Byte) (a b : Word) : Word × Byte :=
  (List.range (32 / w)).foldl (fun r n =>
    let (v, fl) := op (elem w n a) (elem w n b)
    (r.1 + BitVec.ofNat 32 (v % 2 ^ w * 2 ^ (w * n)), r.2 ||| fl)) (0, 0)

/-- An element as an integer of its type. -/
def elInt (w : Nat) (signed : Bool) (v : Nat) : Int := if signed && 2 ^ (w - 1) ≤ v then (v : Int) - 2 ^ w else v

/-- The bounds of a type. -/
def intLo (w : Nat) (signed : Bool) : Int := if signed then -2 ^ (w - 1) else 0
def intHi (w : Nat) (signed : Bool) : Int := if signed then 2 ^ (w - 1) - 1 else 2 ^ w - 1

/-- An exact integer delivered in a type: saturated, or wrapped with Integer overflow where the row flags (R278). -/
def deliver (w : Nat) (signed flags sat : Bool) (e : Int) : Nat × Byte :=
  let out := decide (e < intLo w signed) || decide (intHi w signed < e)
  if sat then
    ((if e < intLo w signed then intLo w signed else if intHi w signed < e then intHi w signed else e) % 2 ^ w |>.toNat, flagIf out fSaturation)
  else ((e % 2 ^ w).toNat, flagIf (flags && out) fIntOverflow)

/-- A flagging row on elements of w bits. -/
def flagging (w : Nat) (signed : Bool) (op : Int → Int → Int) (sat : Bool) (a b : Word) : Word × Byte :=
  onElems w (fun x y => deliver w signed true sat (op (elInt w signed x) (elInt w signed y))) a b

/-- A row that never flags, on whole lanes. -/
def quiet (op : Word → Word → Word) (a b : Word) : Word × Byte := (op a b, 0)

/-- A choice between the elements of w bits. -/
def choose (w : Nat) (signed : Bool) (second : Int → Int → Bool) (a b : Word) : Word × Byte :=
  onElems w (fun x y => (if second (elInt w signed x) (elInt w signed y) then y else x, 0)) a b

/-- Leading zeros of a word (R277). -/
def clz32 (a : Word) : Nat := ((List.range 32).find? fun i => a.getLsbD (31 - i)).getD 32

/-! ### The element operations of R277, shared with the short forms of R227 -/

def elAddI32 (sat : Bool) : Word → Word → Word × Byte := flagging 32 true (fun a b => a + b) sat
def elSubI32 (sat : Bool) : Word → Word → Word × Byte := flagging 32 true (fun a b => a - b) sat
def elAndB32 : Word → Word → Word × Byte := quiet fun a b => a &&& b
def elOrB32 : Word → Word → Word × Byte := quiet fun a b => a ||| b
def elXorB32 : Word → Word → Word × Byte := quiet fun a b => a ^^^ b
def elShlB32 : Word → Word → Word × Byte := quiet fun a b => a <<< (b.toNat % 32)
def elShrN32 : Word → Word → Word × Byte := quiet fun a b => a >>> (b.toNat % 32)
def elShrI32 : Word → Word → Word × Byte := quiet fun a b => a.sshiftRight (b.toNat % 32)
def elMinI32 : Word → Word → Word × Byte := quiet fun a b => if b.slt a then b else a
def elMaxI32 : Word → Word → Word × Byte := quiet fun a b => if a.slt b then b else a
def elMinN32 : Word → Word → Word × Byte := quiet fun a b => if b.ult a then b else a
def elMaxN32 : Word → Word → Word × Byte := quiet fun a b => if a.ult b then b else a

/-- drcp.n32 (R279). -/
def elDrcp (a : Word) : Word × Byte := if a == 0 then (0xFFFFFFFF, fDivZero) else (BitVec.ofNat 32 ((2 ^ 32 - 1) / a.toNat), 0)

/-! ## Major 0x07 (R277) -/

/-- add.i32 (R277) -/
def execAddI32 (f : MRWord) (s : State) : Out3 := laneWord f true false true .t1 const32 (elAddI32 f.sat) s

/-- sub.i32 (R277) -/
def execSubI32 (f : MRWord) (s : State) : Out3 := laneWord f true false true .t1 const32 (elSubI32 f.sat) s

/-- add.n32 (R277) -/
def execAddN32 (f : MRWord) (s : State) : Out3 := laneWord f true false true .t1 const32 (flagging 32 false (fun a b => a + b) f.sat) s

/-- sub.n32 (R277) -/
def execSubN32 (f : MRWord) (s : State) : Out3 := laneWord f true false true .t1 const32 (flagging 32 false (fun a b => a - b) f.sat) s

/-- and.b32 (R277) -/
def execAndB32 (f : MRWord) (s : State) : Out3 := laneWord f true false false .t1 const32 (elAndB32) s

/-- or.b32 (R277) -/
def execOrB32 (f : MRWord) (s : State) : Out3 := laneWord f true false false .t1 const32 (elOrB32) s

/-- xor.b32 (R277) -/
def execXorB32 (f : MRWord) (s : State) : Out3 := laneWord f true false false .t1 const32 (elXorB32) s

/-- andn.b32 (R277) -/
def execAndnB32 (f : MRWord) (s : State) : Out3 := laneWord f true false false .t1 const32 (quiet fun a b => a &&& ~~~b) s

/-- shl.b32 (R277) -/
def execShlB32 (f : MRWord) (s : State) : Out3 := laneWord f true false false .t1 const32 (elShlB32) s

/-- shr.n32 (R277) -/
def execShrN32 (f : MRWord) (s : State) : Out3 := laneWord f true false false .t1 const32 (elShrN32) s

/-- shr.i32 (R277) -/
def execShrI32 (f : MRWord) (s : State) : Out3 := laneWord f true false false .t1 const32 (elShrI32) s

/-- min.i32 (R277) -/
def execMinI32 (f : MRWord) (s : State) : Out3 := laneWord f true false false .t1 const32 (elMinI32) s

/-- max.i32 (R277) -/
def execMaxI32 (f : MRWord) (s : State) : Out3 := laneWord f true false false .t1 const32 (elMaxI32) s

/-- min.n32 (R277) -/
def execMinN32 (f : MRWord) (s : State) : Out3 := laneWord f true false false .t1 const32 (elMinN32) s

/-- max.n32 (R277) -/
def execMaxN32 (f : MRWord) (s : State) : Out3 := laneWord f true false false .t1 const32 (elMaxN32) s

/-- mul.b32 (R277) -/
def execMulB32 (f : MRWord) (s : State) : Out3 := laneWord f true false false .t2 const32 (quiet fun a b => a * b) s

/-- mulhi.i32 (R277) -/
def execMulhiI32 (f : MRWord) (s : State) : Out3 := laneWord f true false false .t4 const32 (quiet fun a b => BitVec.ofInt 32 (Int.fdiv (a.toInt * b.toInt) (2 ^ 32))) s

/-- mulhi.n32 (R277) -/
def execMulhiN32 (f : MRWord) (s : State) : Out3 := laneWord f true false false .t4 const32 (quiet fun a b => BitVec.ofNat 32 (a.toNat * b.toNat / 2 ^ 32)) s

/-- drcp.n32 (R279) -/
def execDrcpN32 (f : MRWord) (s : State) : Out3 := laneWord f false false false .t4 const32 (fun a _ => elDrcp a) s

/-- dcor.n32 (R279) -/
def execDcorN32 (f : MRWord) (s : State) : Out3 := laneWord f true false false .t4 const32 (quiet fun a b => if b.ule a then a - b else a) s

/-- add.i16 (R277) -/
def execAddI16 (f : MRWord) (s : State) : Out3 := laneWord f true false true .t1 const16 (flagging 16 true (fun a b => a + b) f.sat) s

/-- sub.i16 (R277) -/
def execSubI16 (f : MRWord) (s : State) : Out3 := laneWord f true false true .t1 const16 (flagging 16 true (fun a b => a - b) f.sat) s

/-- min.i16 (R277) -/
def execMinI16 (f : MRWord) (s : State) : Out3 := laneWord f true false false .t1 const16 (choose 16 true fun a b => decide (b < a)) s

/-- max.i16 (R277) -/
def execMaxI16 (f : MRWord) (s : State) : Out3 := laneWord f true false false .t1 const16 (choose 16 true fun a b => decide (a < b)) s

/-- add.i8 (R277) -/
def execAddI8 (f : MRWord) (s : State) : Out3 := laneWord f true false true .t1 const8 (flagging 8 true (fun a b => a + b) f.sat) s

/-- sub.i8 (R277) -/
def execSubI8 (f : MRWord) (s : State) : Out3 := laneWord f true false true .t1 const8 (flagging 8 true (fun a b => a - b) f.sat) s

/-- min.n8 (R277) -/
def execMinN8 (f : MRWord) (s : State) : Out3 := laneWord f true false false .t1 const8 (choose 8 false fun a b => decide (b < a)) s

/-- max.n8 (R277) -/
def execMaxN8 (f : MRWord) (s : State) : Out3 := laneWord f true false false .t1 const8 (choose 8 false fun a b => decide (a < b)) s

/-- abs.i32 (R277) -/
def execAbsI32 (f : MRWord) (s : State) : Out3 := laneWord f false false true .t1 const32 (flagging 32 true (fun a _ => if a < 0 then -a else a) f.sat) s

/-- popc.b32 (R277) -/
def execPopcB32 (f : MRWord) (s : State) : Out3 := laneWord f false false false .t1 const32 (quiet fun a _ => BitVec.ofNat 32 (popcount a)) s

/-- clz.b32 (R277) -/
def execClzB32 (f : MRWord) (s : State) : Out3 := laneWord f false false false .t1 const32 (quiet fun a _ => BitVec.ofNat 32 (clz32 a)) s

/-- brev.b32 (R277) -/
def execBrevB32 (f : MRWord) (s : State) : Out3 := laneWord f false false false .t1 const32 (quiet fun a _ => brev a) s

/-! ## Major 0x08 (R280) -/

/-- An immediate word: the split's own lanes, no flag. -/
def immWord (f : IWord) (bad : Bool) (op : Word → Word) (s : State) : Out3 :=
  runWord s .plain (fun c => [dstV c f.d, srcV c f.a, codeIf bad 0x14]) fun c =>
    let a := vval s c const32 1 f.a
    finishWrites s c (wrLanes f.d c.sp.mask (ofLanes fun l => op (lane a l))) 0 .t1

/-- A shift of 32 or more (R280). -/
def immShiftBad (f : IWord) : Bool := decide (32 ≤ f.imm.toNat)

/-- addi.i32 (R280). -/
def execAddiI32 (f : IWord) (s : State) : Out3 := immWord f false (fun a => a + f.imm) s

/-- andi.b32 (R280). -/
def execAndiB32 (f : IWord) (s : State) : Out3 := immWord f false (fun a => a &&& f.imm) s

/-- ori.b32 (R280). -/
def execOriB32 (f : IWord) (s : State) : Out3 := immWord f false (fun a => a ||| f.imm) s

/-- xori.b32 (R280). -/
def execXoriB32 (f : IWord) (s : State) : Out3 := immWord f false (fun a => a ^^^ f.imm) s

/-- shli.b32 (R280). -/
def execShliB32 (f : IWord) (s : State) : Out3 := immWord f (immShiftBad f) (fun a => a <<< f.imm.toNat) s

/-- shri.n32 (R280). -/
def execShriN32 (f : IWord) (s : State) : Out3 := immWord f (immShiftBad f) (fun a => a >>> f.imm.toNat) s

/-- shri.i32 (R280). -/
def execShriI32 (f : IWord) (s : State) : Out3 := immWord f (immShiftBad f) (fun a => a.sshiftRight f.imm.toNat) s

/-- movi.b32 (R280); A is zero. -/
def execMoviB32 (f : IWord) (s : State) : Out3 :=
  runWord s .plain (fun c => [dstV c f.d]) fun c => finishWrites s c (wrLanes f.d c.sp.mask (splat f.imm)) 0 .t1

end Sys2Proof.Machine
end

