-- ==== Sys2Proof/Machine/VecFloat.lean ====
section
/-!
DEFINITION. Vector float words (15): majors 0x09 and 0x0A, the conversions of 0x0E and the special functions of 0x0F.
-/
namespace Sys2Proof.Machine

/-- An inline constant of the float family (R218): the exact integer in each element. -/
def constF (f : FloatFmt) (k : BitVec 7) : Word :=
  let v := (constVal k).toInt
  let e := (roundExact f .rne v 0 false).bits
  (List.range (32 / f.width)).foldl (fun (r : Word) n => r + BitVec.ofNat 32 (e * 2 ^ (f.width * n))) 0

/-- A result as a lane's element. -/
def FRes.pair (r : FRes) : Nat × Byte := (r.bits, r.flags)

/-- Addition of elements of a format. -/
def elAddF (f : FloatFmt) (mode : RMode) : Word → Word → Word × Byte :=
  onElems f.width fun a b => (sumRes f mode [f.val a, f.val b] false).pair
/-- Subtraction. -/
def elSubF (f : FloatFmt) (mode : RMode) : Word → Word → Word × Byte :=
  onElems f.width fun a b => (sumRes f mode [f.val a, (f.val b).flip] false).pair
/-- Multiplication. -/
def elMulF (f : FloatFmt) (mode : RMode) : Word → Word → Word × Byte := onElems f.width fun a b => (mulRes f mode (f.val a) (f.val b)).pair
/-- Minimum, maximum. -/
def elMinF (f : FloatFmt) : Word → Word → Word × Byte := onElems f.width fun a b => (f.minmax false a b, 0)
def elMaxF (f : FloatFmt) : Word → Word → Word × Byte := onElems f.width fun a b => (f.minmax true a b, 0)
/-- Absolute value, negation; a NaN becomes the positive canonical one (R282). -/
def elAbsF (f : FloatFmt) : Word → Word → Word × Byte :=
  onElems f.width fun a _ => (if f.isNan a then f.nan else a % 2 ^ (f.ebits + f.frac), 0)
def elNegF (f : FloatFmt) : Word → Word → Word × Byte :=
  onElems f.width fun a _ => (if f.isNan a then f.nan else Nat.xor a (f.sign true), 0)

/-! ## Major 0x09 (R281, R282) -/

/-- add.f32 (R282). -/
def execAddF32 (f : MRWord) (s : State) : Out3 := laneWord f true true false .t2 (constF .f32) (elAddF .f32 (tailMode f.tail)) s

/-- sub.f32 (R282). -/
def execSubF32 (f : MRWord) (s : State) : Out3 := laneWord f true true false .t2 (constF .f32) (elSubF .f32 (tailMode f.tail)) s

/-- mul.f32 (R282). -/
def execMulF32 (f : MRWord) (s : State) : Out3 := laneWord f true true false .t2 (constF .f32) (elMulF .f32 (tailMode f.tail)) s

/-- min.f32 (R282). -/
def execMinF32 (f : MRWord) (s : State) : Out3 := laneWord f true false false .t2 (constF .f32) (elMinF .f32) s

/-- max.f32 (R282). -/
def execMaxF32 (f : MRWord) (s : State) : Out3 := laneWord f true false false .t2 (constF .f32) (elMaxF .f32) s

/-- abs.f32 (R282). -/
def execAbsF32 (f : MRWord) (s : State) : Out3 := laneWord f false false false .t2 (constF .f32) (elAbsF .f32) s

/-- neg.f32 (R282). -/
def execNegF32 (f : MRWord) (s : State) : Out3 := laneWord f false false false .t2 (constF .f32) (elNegF .f32) s

/-- add.f16 (R282). -/
def execAddF16 (f : MRWord) (s : State) : Out3 := laneWord f true true false .t2 (constF .f16) (elAddF .f16 (tailMode f.tail)) s

/-- sub.f16 (R282). -/
def execSubF16 (f : MRWord) (s : State) : Out3 := laneWord f true true false .t2 (constF .f16) (elSubF .f16 (tailMode f.tail)) s

/-- mul.f16 (R282). -/
def execMulF16 (f : MRWord) (s : State) : Out3 := laneWord f true true false .t2 (constF .f16) (elMulF .f16 (tailMode f.tail)) s

/-- min.f16 (R282). -/
def execMinF16 (f : MRWord) (s : State) : Out3 := laneWord f true false false .t2 (constF .f16) (elMinF .f16) s

/-- max.f16 (R282). -/
def execMaxF16 (f : MRWord) (s : State) : Out3 := laneWord f true false false .t2 (constF .f16) (elMaxF .f16) s

/-- abs.f16 (R282). -/
def execAbsF16 (f : MRWord) (s : State) : Out3 := laneWord f false false false .t2 (constF .f16) (elAbsF .f16) s

/-- neg.f16 (R282). -/
def execNegF16 (f : MRWord) (s : State) : Out3 := laneWord f false false false .t2 (constF .f16) (elNegF .f16) s

/-- add.bf16 (R282). -/
def execAddBf16 (f : MRWord) (s : State) : Out3 := laneWord f true true false .t2 (constF .bf16) (elAddF .bf16 (tailMode f.tail)) s

/-- sub.bf16 (R282). -/
def execSubBf16 (f : MRWord) (s : State) : Out3 := laneWord f true true false .t2 (constF .bf16) (elSubF .bf16 (tailMode f.tail)) s

/-- mul.bf16 (R282). -/
def execMulBf16 (f : MRWord) (s : State) : Out3 := laneWord f true true false .t2 (constF .bf16) (elMulF .bf16 (tailMode f.tail)) s

/-- min.bf16 (R282). -/
def execMinBf16 (f : MRWord) (s : State) : Out3 := laneWord f true false false .t2 (constF .bf16) (elMinF .bf16) s

/-- max.bf16 (R282). -/
def execMaxBf16 (f : MRWord) (s : State) : Out3 := laneWord f true false false .t2 (constF .bf16) (elMaxF .bf16) s

/-- abs.bf16 (R282). -/
def execAbsBf16 (f : MRWord) (s : State) : Out3 := laneWord f false false false .t2 (constF .bf16) (elAbsF .bf16) s

/-- neg.bf16 (R282). -/
def execNegBf16 (f : MRWord) (s : State) : Out3 := laneWord f false false false .t2 (constF .bf16) (elNegF .bf16) s

/-! ## Major 0x0A (R283) -/

/-- The rounding in FN[56:55] (R283). -/
def fmaMode (r : BitVec 2) : RMode :=
  match r.toNat with
  | 0 => .rne | 1 => .rtz | 2 => .rdn | _ => .rup

/-- Three packed elements. -/
def onElems3 (w : Nat) (op : Nat → Nat → Nat → Nat × Byte) (a b c : Word) : Word × Byte :=
  (List.range (32 / w)).foldl (fun r n =>
    let (v, fl) := op (elem w n a) (elem w n b) (elem w n c)
    (r.1 + BitVec.ofNat 32 (v % 2 ^ w * 2 ^ (w * n)), r.2 ||| fl)) (0, 0)

/-- A fused multiply-add, with the product or the addend negated. -/
def fmaWord (f : FmaWord) (g : FloatFmt) (negp negc : Bool) (s : State) : Out3 :=
  runWord s .plain (fun c => [dstV c f.d, srcV c f.a, srcV c f.b, srcV c f.c, modCode f.mod f.b]) fun c =>
    let k := constF g
    let av := vval s c k 1 f.a
    let bv := modRead f.mod (vval s c k 2 f.b)
    let cv := vval s c k 3 f.c
    let op := fun (l : Nat) => onElems3 g.width (fun x y z =>
      let p := g.val x
      let q := g.val z
      (fmaRes g (fmaMode f.rnd) (if negp then p.flip else p) (g.val y) (if negc then q.flip else q)).pair) (lane av l) (lane bv l) (lane cv l)
    finishWrites s c (wrLanes f.d c.sp.mask (ofLanes fun l => (op l).1)) (laneFlags c.sp.mask fun l => (op l).2) (modClass f.mod .t2)

/-- fma.f32 (R283). -/
def execFmaF32 (f : FmaWord) (s : State) : Out3 := fmaWord f .f32 false false s

/-- fms.f32 (R283). -/
def execFmsF32 (f : FmaWord) (s : State) : Out3 := fmaWord f .f32 false true s

/-- fnma.f32 (R283). -/
def execFnmaF32 (f : FmaWord) (s : State) : Out3 := fmaWord f .f32 true false s

/-- fnms.f32 (R283). -/
def execFnmsF32 (f : FmaWord) (s : State) : Out3 := fmaWord f .f32 true true s

/-- fma.f16 (R283). -/
def execFmaF16 (f : FmaWord) (s : State) : Out3 := fmaWord f .f16 false false s

/-- fma.bf16 (R283). -/
def execFmaBf16 (f : FmaWord) (s : State) : Out3 := fmaWord f .bf16 false false s

/-! ## Major 0x0E (R291 to R294) -/

/-- The lane's word with the element of w bits at position p replaced. -/
def putElem (w p : Nat) (old : Word) (v : Nat) : Word := BitVec.ofNat 32 (old.toNat - elem w p old * 2 ^ (w * p) + v % 2 ^ w * 2 ^ (w * p))

/-- The contents that a destination holds, whose other positions a narrowing keeps (R292): no read of a source, so that no distance concerns it. -/
def dstLanes (c : Ctx) : Operand → Lanes
  | .m i => c.g.readVec (.m i.toNat)
  | .o i => c.g.readVec (.o i.toNat)
  | .x i => c.g.readVec (.x i.toNat)
  | _ => zeroLanes

/-- The writes of a conversion with error feedback: its position of D, and the residue. Where D is the residue's destination itself, the spec says of neither write
that it stands: the bytes of the position are free values, and the others the residue's (R348; log 31). -/
def efWrites (n : Nat) (d rd : Operand) (act : Mask) (res val : Lanes) (pos : Word) : List Wr :=
  if d == rd then wrLanes d act (ofLanes fun l => (lane res l &&& ~~~pos) ||| (Config.freeWord n 8192 l &&& pos))
  else wrLanes rd act res ++ wrLanes d act val pos

/-- A narrowing conversion to position p, with error feedback where it is named (R292, R293). -/
def narrow (f : CvtWord) (g : FloatFmt) (s : State) : Out3 :=
  let v := f.v
  runWord s .plain (fun c => dstV c v.d :: srcV c v.a :: codeIf v.sat 0x14 :: tailCodes c false true true v.tail) fun c =>
    let act := actOf s c v.mask
    let a := vval s c const32 1 v.a
    let old := dstLanes c v.d
    let put := fun (l b : Nat) => putElem g.width f.p.toNat (lane old l) b
    let pos : Word := putElem g.width f.p.toNat 0 (2 ^ g.width - 1)
    match v.tail with
    | .src r _ _ =>
      let op := fun (l : Nat) => (FloatFmt.f32.val (lane a l).toNat).to g (rndMode r)
      finishWrites s c (wrLanes v.d act (ofLanes fun l => put l (op l).bits) pos) (laneFlags act fun l => (op l).flags) .t3
    | .ef rs rd =>
      let rin := vval s c const32 2 rs
      let op := fun (l : Nat) => efRes g (lane a l).toNat (lane rin l).toNat
      finishWrites s c
        (efWrites s.free v.d rd act (ofLanes fun l => BitVec.ofNat 32 (op l).2.1) (ofLanes fun l => put l (op l).1) pos)
        (laneFlags act fun l => (op l).2.2) .t3

/-- A widening conversion from position p (R292). -/
def widen (f : CvtWord) (g : FloatFmt) (s : State) : Out3 :=
  laneWord f.v false false false .t3 (if g.width == 16 then const16 else const8) (fun a _ => (BitVec.ofNat 32 ((g.val (elem g.width f.p.toNat a)).to .f32 .rne).bits, 0)) s

/-- cvt.f16.f32 (R292, R293). -/
def execCvtF16F32 (f : CvtWord) (s : State) : Out3 := narrow f .f16 s

/-- cvt.bf16.f32 (R292, R293). -/
def execCvtBf16F32 (f : CvtWord) (s : State) : Out3 := narrow f .bf16 s

/-- cvt.f8e4.f32 (R292, R293). -/
def execCvtF8e4F32 (f : CvtWord) (s : State) : Out3 := narrow f .f8e4 s

/-- cvt.f8e5.f32 (R292, R293). -/
def execCvtF8e5F32 (f : CvtWord) (s : State) : Out3 := narrow f .f8e5 s

/-- cvt.f32.f16 (R292). -/
def execCvtF32F16 (f : CvtWord) (s : State) : Out3 := widen f .f16 s

/-- cvt.f32.bf16 (R292). -/
def execCvtF32Bf16 (f : CvtWord) (s : State) : Out3 := widen f .bf16 s

/-- cvt.f32.f8e4 (R292). -/
def execCvtF32F8e4 (f : CvtWord) (s : State) : Out3 := widen f .f8e4 s

/-- cvt.f32.f8e5 (R292). -/
def execCvtF32F8e5 (f : CvtWord) (s : State) : Out3 := widen f .f8e5 s

/-- cvt.f32.i32 (R201). -/
def execCvtF32I32 (f : MRWord) (s : State) : Out3 :=
  laneWord f false true false .t3 const32 (fun a _ => let r := roundExact .f32 (tailMode f.tail) a.toInt 0 false; (BitVec.ofNat 32 r.bits, r.flags)) s

/-- cvt.f32.n32 (R201). -/
def execCvtF32N32 (f : MRWord) (s : State) : Out3 :=
  laneWord f false true false .t3 const32 (fun a _ => let r := roundExact .f32 (tailMode f.tail) a.toNat 0 false; (BitVec.ofNat 32 r.bits, r.flags)) s

/-- cvt.i32.f32 (R201). -/
def execCvtI32F32 (f : MRWord) (s : State) : Out3 :=
  laneWord f false true false .t3 const32
    (fun a _ => let r := toIntRes (tailMode f.tail) (intLo 32 true) (intHi 32 true) (FloatFmt.f32.val a.toNat); (BitVec.ofInt 32 r.1, r.2)) s

/-- cvt.n32.f32 (R201). -/
def execCvtN32F32 (f : MRWord) (s : State) : Out3 :=
  laneWord f false true false .t3 const32
    (fun a _ => let r := toIntRes (tailMode f.tail) (intLo 32 false) (intHi 32 false) (FloatFmt.f32.val a.toNat); (BitVec.ofInt 32 r.1, r.2)) s

/-- An integer narrowed to w bits (R201): the low bits, or clamped with Saturation. -/
def narrowInt (w : Nat) (sat : Bool) (v : Int) : Nat × Byte := deliver w true false sat v

/-- Elements side by side in a lane, with their flags. -/
def packElems (w : Nat) (es : List (Nat × Byte)) : Word × Byte :=
  (es.zipIdx).foldl (fun r (e, n) => (r.1 + BitVec.ofNat 32 (e.1 * 2 ^ (w * n)), r.2 ||| e.2)) (0, 0)

/-- pack.i16.i32 (R291, R292). -/
def execPackI16I32 (f : MRWord) (s : State) : Out3 :=
  laneWord f true false true .t3 const32 (fun a b => packElems 16 [narrowInt 16 f.sat a.toInt, narrowInt 16 f.sat b.toInt]) s

/-- pack.i8.i16 (R291, R292). -/
def execPackI8I16 (f : MRWord) (s : State) : Out3 :=
  let n := fun (v : Word) (i : Nat) => narrowInt 8 f.sat (elInt 16 true (elem 16 i v))
  laneWord f true false true .t3 const16 (fun a b => packElems 8 [n a 0, n a 1, n b 0, n b 1]) s

/-- cvt.hq4.f32 (R294). -/
def execCvtHq4F32 (f : MRWord) (s : State) : Out3 :=
  laneWord f true false false .t3 const32
    (fun a b => let r := hq4Quant (FloatFmt.f32.val a.toNat) (FloatFmt.f32.val b.toNat); (BitVec.ofNat 32 r.1, r.2)) s

/-! ## Major 0x0F (R295, R296) -/

/-- A new outstanding result or store of the executing split. A peer request waits for a flit of VC 0 (R266). -/
def addOut (s : State) (c : Ctx) (o : Out) : State :=
  let s1 := s.modGroup c.r.core c.r.crew c.r.gid fun g => { g with outs := g.outs ++ [{ o with id := s.nextId, split := c.r.split }] }
  { o.ports.foldl (fun s i => s.setPort i { s.port i with reqs := (s.port i).reqs ++ [s.nextId] }) s1 with nextId := s.nextId + 1 }

/-- A special function: the value is worked out now, and is written when it returns (R118, R296); its flags are raised at once. -/
def special (f : MRWord) (two : Bool) (op : FVal → FVal → FRes) (s : State) : Out3 :=
  runWord s .plain (fun c => dstM c f.d :: (mrCodes c f two false false).drop 1) fun c =>
    let act := actOf s c f.mask
    let a := vval s c (constF .f32) 1 f.a
    let b := bLanes s c (constF .f32) f.tail
    let r := fun (l : Nat) => op (FloatFmt.f32.val (lane a l).toNat) (FloatFmt.f32.val (lane b l).toNat)
    let fl := laneFlags act fun l => (r l).flags
    match flagTrap c.ctxNow fl with
    | some code => .trap code 0 0
    | none =>
      let t := complete s c [] fl (tailClass .t4 f.tail)
      match f.d with
      | .m i =>
        if act == 0 then .ok t
        else .ok (addOut t c { id := 0, split := 0, kind := .special, lanes := act,
                               dests := [(.m i.toNat, .vec (ofLanes fun l => BitVec.ofNat 32 (r l).bits))], contested := [], far := none, addrs := [],
                               width := 4, scalar := false, dst := some (.m i.toNat), pc := c.sp.pc, ctx := c.ctxNow, tag := none, rel := false, host := false })
      | _ => .ok t

/-- rcp.f32 (R295). -/
def execRcpF32 (f : MRWord) (s : State) : Out3 := special f false (fun a _ => rcpRes a) s

/-- rsqrt.f32 (R295). -/
def execRsqrtF32 (f : MRWord) (s : State) : Out3 := special f false (fun a _ => rsqrtRes a) s

/-- sqrt.f32 (R295). -/
def execSqrtF32 (f : MRWord) (s : State) : Out3 := special f false (fun a _ => sqrtRes a) s

/-- exp2.f32 (R295). -/
def execExp2F32 (f : MRWord) (s : State) : Out3 := special f false (fun a _ => exp2Res a) s

/-- log2.f32 (R295). -/
def execLog2F32 (f : MRWord) (s : State) : Out3 := special f false (fun a _ => log2Res a) s

/-- sinpi.f32 (R295). -/
def execSinpiF32 (f : MRWord) (s : State) : Out3 := special f false (fun a _ => sinpiRes a) s

/-- cospi.f32 (R295). -/
def execCospiF32 (f : MRWord) (s : State) : Out3 := special f false (fun a _ => cospiRes a) s

/-- tanh.f32 (R295). -/
def execTanhF32 (f : MRWord) (s : State) : Out3 := special f false (fun a _ => tanhRes a) s

/-- div.f32 (R295). -/
def execDivF32 (f : MRWord) (s : State) : Out3 := special f true divRes s

end Sys2Proof.Machine
end

