-- ==== Sys2Proof/Machine/VecMask.lean ====
section
/-!
DEFINITION. Compares and mask logic (major 0x0B), permutes (0x0C), reductions and scans (0x0D), and pair words (R117, R227).
-/
namespace Sys2Proof.Machine

/-! ## Compares (R284) -/

/-- A compare: bits of a k register for the active lanes, or a mask in each active lane. -/
def compare (f : MRWord) (konst : BitVec 7 → Word) (p : Word → Word → Bool) (s : State) : Out3 :=
  runWord s .plain (fun c => dstVK c f.d :: (mrCodes c f true false false).drop 1) fun c =>
    let act := actOf s c f.mask
    let a := vval s c konst 1 f.a
    let b := bLanes s c konst f.tail
    let hit := fun (l : Nat) => p (lane a l) (lane b l)
    let ws := match f.d with
      | .k i =>
        let old : Word := (scalarFile c (.k i.toNat)).setWidth 32
        wrScalar (.k i) (((maskOf hit &&& act) ||| (old &&& ~~~act)).setWidth 64)
      | d => wrLanes d act (ofLanes fun l => if hit l then 0xFFFFFFFF else 0)
    finishWrites s c ws 0 (tailClass .t2 f.tail)

/-- A compare of FP32 values that are no NaN; nanRes where either is one. -/
def cmpF (p : Int → Int → Bool) (nanRes : Bool) (a b : Word) : Bool :=
  let f := FloatFmt.f32
  if f.isNan a.toNat || f.isNan b.toNat then nanRes else p (f.cmpKey a.toNat) (f.cmpKey b.toNat)

/-- cmp.eq.i32 (R284). -/
def execCmpEqI32 (f : MRWord) (s : State) : Out3 := compare f const32 (fun a b => a == b) s

/-- cmp.ne.i32 (R284). -/
def execCmpNeI32 (f : MRWord) (s : State) : Out3 := compare f const32 (fun a b => a != b) s

/-- cmp.lt.i32 (R284). -/
def execCmpLtI32 (f : MRWord) (s : State) : Out3 := compare f const32 (fun a b => a.slt b) s

/-- cmp.le.i32 (R284). -/
def execCmpLeI32 (f : MRWord) (s : State) : Out3 := compare f const32 (fun a b => a.sle b) s

/-- cmp.lt.n32 (R284). -/
def execCmpLtN32 (f : MRWord) (s : State) : Out3 := compare f const32 (fun a b => a.ult b) s

/-- cmp.le.n32 (R284). -/
def execCmpLeN32 (f : MRWord) (s : State) : Out3 := compare f const32 (fun a b => a.ule b) s

/-- cmp.eq.f32 (R284). -/
def execCmpEqF32 (f : MRWord) (s : State) : Out3 := compare f (constF .f32) (cmpF (fun a b => a == b) false) s

/-- cmp.ne.f32 (R284). -/
def execCmpNeF32 (f : MRWord) (s : State) : Out3 := compare f (constF .f32) (cmpF (fun a b => a != b) true) s

/-- cmp.lt.f32 (R284). -/
def execCmpLtF32 (f : MRWord) (s : State) : Out3 := compare f (constF .f32) (cmpF (fun a b => decide (a < b)) false) s

/-- cmp.le.f32 (R284). -/
def execCmpLeF32 (f : MRWord) (s : State) : Out3 := compare f (constF .f32) (cmpF (fun a b => decide (a ≤ b)) false) s

/-- cmp.un.f32 (R284). -/
def execCmpUnF32 (f : MRWord) (s : State) : Out3 := compare f (constF .f32) (cmpF (fun _ _ => false) true) s

/-! ## Mask logic (R285) -/

/-- The codes of RND, SAT and MASK of a mask-logic word (R276), and of its sources. -/
def klogicCodes (c : Ctx) (f : MRWord) (two : Bool) : List (Option Byte) :=
  dstK f.d :: srcK f.a :: codeIf (f.sat || f.mask != 0) 0x14 ::
    match f.tail with
    | .src r b m => [if two then srcK b else none, if two then modCode m b else none, codeIf (rndBad false r) 0x14]
    | .ef rs rd => [resCode c rs, resCode c rd, some 0x14]

/-- A mask-logic word: all 32 bits of a k register. -/
def klogic (f : MRWord) (two : Bool) (op : Word → Word → Word) (s : State) : Out3 :=
  runWord s .plain (fun c => klogicCodes c f two) fun c =>
    let a : Word := (sval s c 1 f.a).setWidth 32
    let b : Word := match f.tail with | .src _ b _ => (sval s c 2 b).setWidth 32 | .ef _ _ => 0
    finishWrites s c (wrScalar f.d ((op a b).setWidth 64)) 0 .t1

/-- kand (R285). -/
def execKand (f : MRWord) (s : State) : Out3 := klogic f true (fun a b => a &&& b) s

/-- kor (R285). -/
def execKor (f : MRWord) (s : State) : Out3 := klogic f true (fun a b => a ||| b) s

/-- kxor (R285). -/
def execKxor (f : MRWord) (s : State) : Out3 := klogic f true (fun a b => a ^^^ b) s

/-- kandn (R285). -/
def execKandn (f : MRWord) (s : State) : Out3 := klogic f true (fun a b => a &&& ~~~b) s

/-- knot (R285). -/
def execKnot (f : MRWord) (s : State) : Out3 := klogic f false (fun a _ => ~~~a) s

/-- kfirst: the lowest set bit alone (R285). -/
def execKfirst (f : MRWord) (s : State) : Out3 := klogic f false (fun a _ => a &&& (0 - a)) s

/-! ## Permutes (R286, R287) -/

/-- A permute of one source: the lanes written, and what each reads, from the split's mask and act. -/
def permute (f : MRWord) (g : Mask → Mask → Lanes → Mask × Lanes) (s : State) : Out3 :=
  runWord s .plain (fun c => mrCodes c f false false false) fun c =>
    let (m, v) := g c.sp.mask (actOf s c f.mask) (vval s c const32 1 f.a)
    finishWrites s c (wrLanes f.d m v) 0 .t3

/-- The first n lanes of a mask. -/
def firstLanes (m : Mask) (n : Nat) : Mask := maskOf fun l => ((lanesOf m).take n).contains l

/-- The place of lane l among the lanes of a mask. -/
def rankIn (m : Mask) (l : Nat) : Nat := ((lanesOf m).filter fun x => decide (x < l)).length

/-- Lane i in order of a mask. -/
def nthLane (m : Mask) (i : Nat) : Nat := (lanesOf m).getD i 0

/-- compress.b32 (R287). -/
def execCompressB32 (f : MRWord) (s : State) : Out3 :=
  permute f (fun m act a => (firstLanes m (lanesOf act).length, ofLanes fun l => lane a (nthLane act (rankIn m l)))) s

/-- expand.b32 (R287). -/
def execExpandB32 (f : MRWord) (s : State) : Out3 :=
  permute f (fun m act a => (act, ofLanes fun l => lane a (nthLane m (rankIn act l)))) s

/-- match.b32 (R287). -/
def execMatchB32 (f : MRWord) (s : State) : Out3 :=
  permute f (fun _ act a => (act, ofLanes fun l => maskOf (fun m => lane a m == lane a l) &&& act)) s

/-- The uniform B of a slide: S-class or an inline constant (R286). -/
def srcUniform (c : Ctx) : Operand → Option Byte
  | .m _ => some 0x10
  | .o _ => some 0x10
  | .x _ => some 0x10
  | .lane => some 0x10
  | o => srcV c o

/-- A slide: B's amount is judged when the word executes (R287). -/
def slide (f : MRWord) (up : Bool) (s : State) : Out3 :=
  let amount := fun (c : Ctx) => match f.tail with | .src _ b _ => (sval s c 2 b).toNat | .ef _ _ => 0
  runWord s .plain
    (fun c =>
      dstV c f.d :: srcV c f.a :: codeIf f.sat 0x14 ::
        match f.tail with
        | .src r b _ => [srcUniform c b, codeIf (rndBad false r) 0x14, codeIf ((srcUniform c b).isNone && decide (31 < amount c)) 0x14]
        | .ef rs rd => [resCode c rs, resCode c rd, some 0x14])
    fun c =>
      let k := amount c
      let act := actOf s c f.mask
      let a := vval s c const32 1 f.a
      let m := act &&& maskOf fun l => if up then decide (k ≤ l) else decide (l + k ≤ 31)
      finishWrites s c (wrLanes f.d m (ofLanes fun l => lane a (if up then l - k else l + k))) 0 .t3

/-- slideup.b32 (R287). -/
def execSlideupB32 (f : MRWord) (s : State) : Out3 := slide f true s

/-- slidedn.b32 (R287). -/
def execSlidednB32 (f : MRWord) (s : State) : Out3 := slide f false s

/-! ## Reductions and scans (R288 to R290) -/

/-- An operation over the values of a list of lanes. -/
abbrev SetOp := List Word → Word × Byte

/-- A sum of I32 values (R289). -/
def sumI32 (sat : Bool) : SetOp := fun l =>
  let r := deliver 32 true true sat (l.foldl (fun a v => a + v.toInt) 0)
  (BitVec.ofNat 32 r.1, r.2)

/-- A sum of FP32 values, rounded once; no value sums to +0 (R289). -/
def sumF32 (mode : RMode) : SetOp := fun l =>
  let r := sumRes .f32 mode (l.map fun v => FloatFmt.f32.val v.toNat) false
  (BitVec.ofNat 32 r.bits, r.flags)

/-- A fold from an identity. -/
def foldOp (op : Word → Word → Word) (e : Word) : SetOp := fun l => (l.foldl op e, 0)

/-- The least or greatest FP32 value, NaN ignored; all NaN gives the canonical NaN, none gives the identity (R289). -/
def minmaxF32 (mx : Bool) : SetOp := fun l =>
  let f := FloatFmt.f32
  if l.isEmpty then (BitVec.ofNat 32 (f.inf mx), 0)
  else (BitVec.ofNat 32 (l.foldl (fun a v => f.minmax mx a v.toNat) f.nan), 0)

/-- What a reduction or scan does beyond a fixed-latency word: its group issues nothing until it has left E3 (R290). -/
def hold (s : State) (c : Ctx) (n : Nat) : State :=
  s.modGroup c.r.core c.r.crew c.r.gid fun g => { g with holdUntil := (s.core c.r.core).cyc.toNat + 2 + n }

/-- The values of A over the active lanes that p admits. -/
def valuesOf (act : Mask) (a : Lanes) (p : Nat → Bool) : List Word := ((lanesOf act).filter p).map (lane a)

/-- Complete a held word, or take its flag trap. -/
def finishHeld (s : State) (c : Ctx) (n : Nat) (ws : List Wr) (flags : Byte) : Res :=
  match finishWrites s c ws flags .t3 with
  | .ok t => .ok (hold t c n)
  | r => r

/-- A reduction (R289): the value in every active lane, or in an s register. -/
def reduce (f : MRWord) (dirs sat : Bool) (n : Nat) (signed : Bool) (op : SetOp) (s : State) : Out3 :=
  runWord s .plain (fun c => dstVS c f.d :: (mrCodes c f false dirs sat).drop 1) fun c =>
    let act := actOf s c f.mask
    let (v, fl) := op (valuesOf act (vval s c const32 1 f.a) fun _ => true)
    let ws := match f.d with
      | .s i => wrScalar (.s i) (if signed then v.signExtend 64 else v.setWidth 64)
      | d => wrLanes d act (splat v)
    finishHeld s c n ws fl

/-- A scan (R289): each active lane receives the value over the active lanes up to it. -/
def scan (f : MRWord) (dirs sat : Bool) (n : Nat) (op : SetOp) (s : State) : Out3 :=
  runWord s .plain (fun c => dstLevel c f.d :: (mrCodes c f false dirs sat).drop 1) fun c =>
    let act := actOf s c f.mask
    let a := vval s c const32 1 f.a
    let r := fun (l : Nat) => op (valuesOf act a fun m => decide (m ≤ l))
    finishHeld s c n (wrLanes f.d act (ofLanes fun l => (r l).1)) (laneFlags act fun l => (r l).2)

/-- red.add.i32 (R288, R289). -/
def execRedAddI32 (f : MRWord) (s : State) : Out3 := reduce f false true 6 true (sumI32 f.sat) s

/-- red.add.f32 (R288, R289). -/
def execRedAddF32 (f : MRWord) (s : State) : Out3 := reduce f true false 8 false (sumF32 (tailMode f.tail)) s

/-- red.min.i32 (R288, R289). -/
def execRedMinI32 (f : MRWord) (s : State) : Out3 := reduce f false false 6 true (foldOp (fun a b => if b.slt a then b else a) 0x7FFFFFFF) s

/-- red.max.i32 (R288, R289). -/
def execRedMaxI32 (f : MRWord) (s : State) : Out3 := reduce f false false 6 true (foldOp (fun a b => if a.slt b then b else a) 0x80000000) s

/-- red.min.n32 (R288, R289). -/
def execRedMinN32 (f : MRWord) (s : State) : Out3 := reduce f false false 6 false (foldOp (fun a b => if b.ult a then b else a) 0xFFFFFFFF) s

/-- red.max.n32 (R288, R289). -/
def execRedMaxN32 (f : MRWord) (s : State) : Out3 := reduce f false false 6 false (foldOp (fun a b => if a.ult b then b else a) 0) s

/-- red.min.f32 (R288, R289). -/
def execRedMinF32 (f : MRWord) (s : State) : Out3 := reduce f false false 8 false (minmaxF32 false) s

/-- red.max.f32 (R288, R289). -/
def execRedMaxF32 (f : MRWord) (s : State) : Out3 := reduce f false false 8 false (minmaxF32 true) s

/-- red.and.b32 (R288, R289). -/
def execRedAndB32 (f : MRWord) (s : State) : Out3 := reduce f false false 6 false (foldOp (fun a b => a &&& b) 0xFFFFFFFF) s

/-- red.or.b32 (R288, R289). -/
def execRedOrB32 (f : MRWord) (s : State) : Out3 := reduce f false false 6 false (foldOp (fun a b => a ||| b) 0) s

/-- red.xor.b32 (R288, R289). -/
def execRedXorB32 (f : MRWord) (s : State) : Out3 := reduce f false false 6 false (foldOp (fun a b => a ^^^ b) 0) s

/-- scan.add.i32 (R288, R289). -/
def execScanAddI32 (f : MRWord) (s : State) : Out3 := scan f false true 10 (sumI32 f.sat) s

/-- scan.add.f32 (R288, R289). -/
def execScanAddF32 (f : MRWord) (s : State) : Out3 := scan f true false 16 (sumF32 (tailMode f.tail)) s

/-- scan.max.i32 (R288, R289). -/
def execScanMaxI32 (f : MRWord) (s : State) : Out3 := scan f false false 10 (foldOp (fun a b => if a.slt b then b else a) 0x80000000) s

/-- scan.max.f32 (R288, R289). -/
def execScanMaxF32 (f : MRWord) (s : State) : Out3 := scan f false false 12 (minmaxF32 true) s

/-! ## Pair words (R117, R227) -/

/-- A short specifier as an operand (R216). -/
def shortFull : ShortOperand → Operand
  | .m i => .m (i.setWidth 8)
  | .o i => .o (i.setWidth 8)
  | .x i => .x (i.setWidth 8)
  | .s i => .s i

/-- The long form of a short operation (R227). -/
def sopEl : Sop → Word → Word → Word × Byte
  | .mov => quiet fun a _ => a
  | .addI32 => elAddI32 false
  | .subI32 => elSubI32 false
  | .andB32 => elAndB32
  | .orB32 => elOrB32
  | .xorB32 => elXorB32
  | .shlB32 => elShlB32
  | .shrN32 => elShrN32
  | .shrI32 => elShrI32
  | .minI32 => elMinI32
  | .maxI32 => elMaxI32
  | .minN32 => elMinN32
  | .maxN32 => elMaxN32
  | .addF32 => elAddF .f32 .rne
  | .subF32 => elSubF .f32 .rne
  | .mulF32 => elMulF .f32 .rne
  | .minF32 => elMinF .f32
  | .maxF32 => elMaxF .f32
  | .addBf16 => elAddF .bf16 .rne
  | .mulBf16 => elMulF .bf16 .rne

/-- The class of a pair word. -/
def pairClass (f : PairWord) : TClass := if f.op1.op.isT2 then .t2 else .t1

/-- A pair word: both operations read before either writes, and their flags go to FLAGS together (R117, R227). -/
def execPairWord (f : PairWord) (s : State) : Out3 :=
  runWord s .plain
    (fun c => [dstV c (shortFull f.op1.d), srcV c (shortFull f.op1.a), if f.op1.op == .mov then none else srcV c (shortFull f.op1.b),
               dstV c (shortFull f.op2.d), srcV c (shortFull f.op2.a), if f.op2.op == .mov then none else srcV c (shortFull f.op2.b)])
    fun c =>
      let m := c.sp.mask
      let r := fun (o : ShortOp) (p : Nat) =>
        let a := vval s c const32 p (shortFull o.a)
        let b := vval s c const32 (p + 1) (shortFull o.b)
        fun (l : Nat) => sopEl o.op (lane a l) (lane b l)
      let r1 := r f.op1 1
      let r2 := r f.op2 3
      finishWrites s c (wrLanes (shortFull f.op1.d) m (ofLanes fun l => (r1 l).1) ++ wrLanes (shortFull f.op2.d) m (ofLanes fun l => (r2 l).1))
        (laneFlags m fun l => (r1 l).2 ||| (r2 l).2) (pairClass f)

end Sys2Proof.Machine
end

