-- ==== Sys2Proof/Machine/Mem.lean ====
section
/-!
DEFINITION. The memory path of instruction words: address forms (R139, R219), checks lane by lane (R140, R146, R263), and the loads and stores of majors
0x10 to 0x1A (R258 to R266).
-/
namespace Sys2Proof.Machine

/-- The spaces (R139). -/
inductive Space where
  | spad | cluster | dev | peer | host | const
  deriving DecidableEq, Repr

/-- First code of a space's domain (R179). -/
def Space.base : Space → Nat
  | .spad => 0x40 | .cluster => 0x48 | .dev => 0x50 | .peer => 0x58 | .host => 0x60 | .const => 0x68

/-- The stale-generation code of the spaces whose loads a checker may reject (R147, R148, R179). -/
def Space.staleCode : Space → Option Byte
  | .dev => some 0x54 | .const => some 0x6C | .peer => some 0x5C | .host => some 0x64 | .spad => none | .cluster => none

/-- The bit of capq leaf 2 that can mask the space (R256). -/
def Space.cap : Space → Option Nat
  | .peer => some 0 | .host => some 1 | _ => none

/-- Where an address that has passed its checks lies. -/
inductive Loc where
  | spad (core slot off : Nat)
  | dev (pa : Nat)
  | peer (port : Nat)
  | host (hpa : Nat)
  /-- a byte of the scratchpad of a crew that has left its core, poisoned or not, as a copy that goes on reads it (R103) -/
  | image (b : Byte) (bad : Bool)
  deriving DecidableEq, Repr

/-- What the check of one lane comes to; a host page that is not translated is asked for. -/
inductive LaneRes where
  | ok (l : Loc)
  | err (code : Byte)
  | stale
  | ask (iova : Nat)
  deriving DecidableEq, Repr

/-- A lane's check, from a code. -/
def badLane (base kind : Nat) : LaneRes := .err (BitVec.ofNat 8 (base + kind))

/-- SPAD of a crew in bytes (R140). -/
def Crew.spadBytes (w : Crew) : Nat := w.task.spad * 1024

/-- An offset in the copy ring: the top 2 KiB, when SPAD is at least 2 (R140). -/
def Crew.inRing (w : Crew) (off : Nat) : Bool := decide (2 ≤ w.task.spad) && decide (w.spadBytes ≤ off + 2048)

/-- The scratchpad check (R140, R263). -/
def checkSpad (core : Nat) (w : Crew) (a : Dword) (n : Nat) : LaneRes :=
  if bits a 63 19 != 0 || decide (w.spadBytes ≤ a.toNat) then badLane 0x40 3
  else if a.toNat % n != 0 then badLane 0x40 2
  else if w.inRing a.toNat then badLane 0x40 1
  else .ok (.spad core w.slot a.toNat)

/-- The cluster check, in R140's order. -/
def checkCluster (s : State) (core part : Nat) (launch : Word) (a : Dword) (n : Nat) : LaneRes :=
  let tcore := clusterOf core * 8 + bits a 26 24
  let off := bits a 18 0
  if bits a 63 27 != 0 then badLane 0x48 3
  else if a.toNat % n != 0 then badLane 0x48 2
  else match s.crew? tcore (bits a 23 19) with
    | none => badLane 0x48 0
    | some t =>
      if t.halted then badLane 0x48 0
      else if t.part != part || t.task.launch != launch then badLane 0x48 6
      else if t.spadBytes ≤ off then badLane 0x48 3
      else if t.inRing off then badLane 0x48 1
      else .ok (.spad tcore t.slot off)

/-- A device or constant check; stores and atomics are sent again under a stale tag (R148). -/
def checkDev (s : State) (c : Ctx) (sp : Space) (a : Dword) (n : Nat) (write : Bool) : LaneRes :=
  match s.devCheck (clusterOf c.r.core) c.crew.part c.crew.pasid.toNat a n (if write then .write else .read) write (c.g.walkOut == some c.r.split) with
  | .ok pa => .ok (.dev pa)
  | .err .stale => .stale
  | .err e => .err (e.code sp.base)

/-- The fence that a peer port is assigned to (R55). -/
def portFence (s : State) (i : Nat) : Option Nat :=
  let r := if i < 12 then s.ppmap0 else s.ppmap1
  let n := bits r (4 * (i % 12) + 3) (4 * (i % 12))
  if 8 ≤ n then some (n - 8) else none

/-- The peer check on this side (R139, R263): what the far device says comes with its answer. A port is reached only through the X-die that carries it, and the
firewall stops what has no route there (R15, R56; log 76). -/
def checkPeer (s : State) (core part : Nat) (a : Dword) (n : Nat) : LaneRes :=
  let port := bits a 61 57
  if bits a 63 62 != 0 || decide (23 < port) then badLane 0x58 3
  else if a.toNat % n != 0 then badLane 0x58 2
  else if portFence s port != some (fenceOf s part) || !xRoute s (dieOf core) (port / 12) then badLane 0x58 6
  else if (s.port port).down then badLane 0x58 7
  else .ok (.peer port)

/-- The host check (R44, R263). A load that would go under an older generation is rejected; a store or atomic is translated again in its place (R46, R148). An
access that the firewall lets not reach the X-die of its function ends in the time-out of the domain, which has no firewall code (R15, R17, R179; log 76). -/
def checkHost (s : State) (core part pasid : Nat) (a : Dword) (n : Nat) (write : Bool) : LaneRes :=
  if bits a 63 57 != 0 then badLane 0x60 3
  else if a.toNat % n != 0 then badLane 0x60 2
  else if !xRoute s (dieOf core) (part / 32) then badLane 0x60 7
  else match s.hostXlate? part pasid a.toNat write with
    | some h => .ok (.host h)
    | none => if !write && s.hostStale part pasid a.toNat write then .stale else .ask a.toNat

/-- The check of one lane. -/
def checkLane (s : State) (c : Ctx) (sp : Space) (n : Nat) (write : Bool) (a : Dword) : LaneRes :=
  match sp with
  | .spad => checkSpad c.r.core c.crew a n
  | .cluster => checkCluster s c.r.core c.crew.part c.crew.task.launch a n
  | .dev => checkDev s c .dev a n write
  | .const => checkDev s c .const a n false
  | .peer => checkPeer s c.r.core c.crew.part a n
  | .host => checkHost s c.r.core c.crew.part c.crew.pasid.toNat a n write

/-- What the checks of every lane of a word come to (R146). -/
inductive WordRes where
  | ok (ls : List (Nat × Loc))
  | err (code : Byte) (lane : Nat) (addr : Dword)
  | stale (lane : Nat) (addr : Dword)
  | ask (lane iova : Nat)
  deriving DecidableEq, Repr

/-- A host page that is not translated (R44, R45): the group waits where a page request for it is under way; else the IOMMU is asked, and the word parks. -/
def askHost (s : State) (c : Ctx) (ln iova : Nat) (write : Bool) : Res :=
  let p := c.crew.part
  let ps := c.crew.pasid.toNat
  let a : Dword := BitVec.ofNat 64 iova
  if (s.fn p).pri.contains (ps, iova / 4096, write) && mayInterrupt s c.r.core c.r.crew c.r.gid c.g then .trap 0x60 ln a
  else .ok ((s.atsAsk p ps iova write).modSplit c.r fun q => { q with parked := some (.ats (iova / 4096) ln a write) })

/-- The checks of a word's lanes, in ascending order: the lowest faulting lane is the one named. No lane's access leaves before every lane's checks, so that a
checker rejects none where some lane faults (R146, R148, R181). -/
def checkLanes (s : State) (c : Ctx) (sp : Space) (n : Nat) (write : Bool) : List (Nat × Dword) → WordRes
  | [] => .ok []
  | (l, a) :: t =>
    match checkLane s c sp n write a with
    | .err code => .err code l a
    | .stale => (match checkLanes s c sp n write t with | .err code k b => .err code k b | _ => .stale l a)
    | .ask v => .ask l v
    | .ok loc =>
      match checkLanes s c sp n write t with
      | .ok ls => .ok ((l, loc) :: ls)
      | r => r

/-! ## Reading and writing a location -/

/-- A poisoned word under a location (R192). -/
def poisonedAt (s : State) (n : Nat) : Loc → Bool
  | .spad core slot off => match s.crew? core slot with | some w => w.spadPoison.any fun p => decide (off < 4 * p + 4) && decide (4 * p < off + n) | none => false
  | .dev pa => s.devPoisoned pa n
  | .peer _ => false
  | .host h => s.hostPoison.any fun w => decide (h < 64 * w + 64) && decide (64 * w < h + n)
  | .image _ bad => bad

/-- n bytes at a location, as a number; what a peer holds is not in this machine. -/
def readAt (s : State) (n : Nat) : Loc → Nat
  | .spad core slot off => match s.crew? core slot with | some w => leNat (w.spadRead off n) | none => 0
  | .dev pa => s.devRead pa n
  | .peer _ => 0
  | .host h => leNat (s.host.getBytes h n)
  | .image b _ => b.toNat

/-- Write n bytes at a location. -/
def writeAt (s : State) (n v : Nat) : Loc → State
  | .spad core slot off => s.modCrew core slot fun w => { w with spad := w.spad.putBytes off (leBytes n v) }
  | .dev pa => s.devWrite pa (leBytes n v)
  | .peer _ => s
  | .host h => { s with host := s.host.setBytes h (leBytes n v) }
  | .image _ _ => s

/-- Device and host words that these writes cover whole lose their poison; so do the 4-byte words of a scratchpad (R192). -/
def unpoison (s : State) (n : Nat) (ls : List (Nat × Loc)) : State :=
  let s := s.clearPoison (ls.filterMap fun (_, l) => match l with | .dev pa => some (pa, n) | _ => none)
  let s := s.clearHostPoison (ls.filterMap fun (_, l) => match l with | .host h => some (h, n) | _ => none)
  let cover := fun (core slot p : Nat) => (List.range 4).all fun i => ls.any fun (_, l) =>
    match l with | .spad k w off => k == core && w == slot && decide (off ≤ 4 * p + i) && decide (4 * p + i < off + n) | _ => false
  ls.foldl (fun s (_, l) => match l with
    | .spad core slot _ => s.modCrew core slot fun w => { w with spadPoison := w.spadPoison.filter fun p => !cover core slot p }
    | _ => s) s

/-- The lowest poisoned lane of a read. -/
def poisonedLane (s : State) (n : Nat) (as : List (Nat × Dword)) (ls : List (Nat × Loc)) : Option (Nat × Dword × Loc) :=
  (as.zip ls).findSome? fun ((l, a), (_, loc)) => if poisonedAt s n loc then some (l, a, loc) else none

/-- The row that a location lies in, as the row test names it (R68): the 4 KiB page of a device address, or one number for each core's arrays; what lies outside
is not the device's to test. -/
def rowOf : Loc → Option Nat
  | .spad core _ _ => some (2 ^ 40 + core)
  | .dev pa => some (pa / 4096)
  | .peer _ => none
  | .host _ => none
  | .image _ _ => none

/-- A trap on poisoned data, which also starts the row test (R192). -/
def trapPoison (s : State) (c : Ctx) (code : Byte) (loc : Loc) (l : Nat) (a : Dword) : Res :=
  .ok (takeTrap (match rowOf loc with | some r => s.startTest r | none => s) c.r.core c.r.crew c.r.gid c.r.split code l a)

/-! ## Operands of memory words (R259) -/

/-- BASE and IDX. -/
def baseCode (c : Ctx) : Operand → Option Byte
  | .k _ => some 0x10
  | .acc _ => some 0x10
  | .resLow _ => some 0x11
  | .resHigh _ => some 0x11
  | o => codeIf (!opPresent c.l c.regs o) 0x10

/-- A BASE or IDX that differs by lane; LANE is one, which R259 does not name and R217 lets a vector word read (DEDUCED, log 16). -/
def perLane : Operand → Bool
  | .m _ => true
  | .o _ => true
  | .x _ => true
  | .lane => true
  | _ => false

/-- The codes of an even pair of M registers (R220). -/
def pairCode (c : Ctx) (i : BitVec 8) : List (Option Byte) :=
  [codeIf (i.toNat % 2 != 0) 0x14, codeIf (decide (32 * c.regs ≤ i.toNat + 1)) 0x15]

/-- D of a load. -/
def loadDst (c : Ctx) (b64 : Bool) : Operand → List (Option Byte)
  | .m i => dstM c (.m i) :: (if b64 then pairCode c i else [])
  | .s _ => []
  | .o _ => [some 0x10]
  | .x _ => [some 0x10]
  | .k _ => [some 0x10]
  | .acc _ => [some 0x10]
  | .resLow _ => [some 0x11]
  | .resHigh _ => [some 0x11]
  | .lane => [some 0x12]
  | .special _ => [some 0x12]
  | .const _ => [some 0x12]

/-- D of a store. -/
def storeData (c : Ctx) (b64 : Bool) : Operand → List (Option Byte)
  | .m i => srcV c (.m i) :: (if b64 then pairCode c i else [])
  | .o i => if b64 then [some 0x10] else [srcV c (.o i)]
  | .x i => if b64 then [some 0x10] else [srcV c (.x i)]
  | o => [srcV c o]

/-- An operand of lanes. -/
def isVec : Operand → Bool
  | .m _ => true
  | .o _ => true
  | .x _ => true
  | _ => false

/-- The scalar form of a load: D an s register (R260). -/
def isScalar : Operand → Bool
  | .s _ => true
  | _ => false

/-- SIZE in bytes. -/
def sizeOf_ (f : MWord) : Nat :=
  match f.size with
  | .b8 => 1 | .b16 => 2 | .b32 => 4 | .b64 => 8

/-- The address of a lane (R219). -/
def laneAddr (f : MWord) (b : Lanes) (bs : Dword) (i : Lanes) (is : Dword) (l : Nat) : Dword :=
  let b' : Dword := if perLane f.base then (lane b l).setWidth 64 else bs
  let i' : Dword := if perLane f.idx then (lane i l).signExtend 64 else is
  b' + i' <<< f.scale.toNat + f.off.signExtend 64

/-- The addresses of the active lanes, or the one address of a scalar form (R219, R260). -/
def memAddrs (s : State) (c : Ctx) (f : MWord) (scalar : Bool) : List (Nat × Dword) :=
  let b := if perLane f.base then vval s c const32 1 f.base else zeroLanes
  let i := if perLane f.idx then vval s c const32 2 f.idx else zeroLanes
  let bs := sval s c 1 f.base
  let is := sval s c 2 f.idx
  if scalar then [(0, laneAddr f b bs i is 0)] else (lanesOf c.sp.mask).map fun l => (l, laneAddr f b bs i is l)

/-! ## Waiting for far accesses -/

/-- Far accesses that precede the word in program order and have not been answered. -/
def farOuts (c : Ctx) : List Out := (c.g.outsOf c.sp).filter fun o => o.far.isSome

/-- Those of a list that are still outstanding. -/
def stillOut (c : Ctx) (ids : List Nat) : List Nat := ids.filter fun i => c.g.outs.any fun o => o.id == i

/-- What an access waits for before it leaves (R164, R172, R273): far acquires, and what a division or fusion orders, for every access; releases by a fence
for stores and atomics; for a release of its own the far accesses before it; for an acquire the far releases among them. -/
def accessWaits (c : Ctx) (write release acquire : Bool) : List Nat :=
  stillOut c (c.sp.acqIds ++ (if write then c.sp.relIds else [])
    ++ ((farOuts c).filter fun o => release || (acquire && o.rel)).map (·.id))

/-- A rejected load (R46, R148): its stale translations go, and the group re-runs its strand, or at the 256th rejection in a row takes the space's stale code. -/
def rejectLoad (s : State) (c : Ctx) (sp : Space) (ln : Nat) (a : Dword) : Res :=
  let p := c.crew.part
  let ps := c.crew.pasid.toNat
  let s := if sp == .host then s.dropStaleAts p ps
    else s.modCluster (clusterOf c.r.core) fun k => { k with tlb := k.tlb.filter fun t => !(t.fn == p && t.pasid == ps && t.gen != s.genOf p ps) }
  let again := decide (c.sp.stale < 255)
  let s := s.modSplit c.r fun q => { q with stale := if again then q.stale + 1 else 0 }
  .ok (takeTrap s c.r.core c.r.crew c.r.gid c.r.split (if again then reRun else BitVec.ofNat 8 (sp.base + 4)) (if again then 0 else ln) (if again then 0 else a))

/-- An outstanding access as it starts. -/
def newOut (c : Ctx) (kind : OutKind) (lanes : Mask) (dests : List (Reg × Val)) (far : Option Far) (as : List (Nat × Dword)) (n : Nat) (scalar : Bool)
    (dst : Option Reg) : Out :=
  { id := 0, split := 0, kind := kind, lanes := lanes, dests := dests, contested := [], far := far, addrs := as, width := n, scalar := scalar, dst := dst,
    pc := c.sp.pc, ctx := c.ctxNow, tag := none, rel := false, host := false }

/-- Where a word's accesses are performed, if it is a peer word. -/
def farOf (write : Bool) : List (Nat × Loc) → Option Far
  | (_, .peer _) :: _ => some (.peer write)
  | _ => none

/-- The generation that a load of a space carries (R147, R264). -/
def tagOf (s : State) (c : Ctx) (sp : Space) : Option Tag :=
  let p := c.crew.part
  let ps := c.crew.pasid.toNat
  sp.staleCode.map fun code => ⟨code, match sp with | .peer => none | .host => some ((s.fn p).hostGen.get ps 0).toNat | _ => some (s.genOf p ps)⟩

/-- Before a word's accesses to host memory, its function's atomics on those bytes make their writes (R270). -/
def hostBefores (s : State) (p n : Nat) (ls : List (Nat × Loc)) : State :=
  if s.hostRmw.isEmpty then s else ls.foldl (fun s (_, l) => match l with | .host h => s.hostBefore p h n | _ => s) s

/-- The destinations of values loaded (R260, R269). -/
def loadDests (d : Operand) (n : Nat) (vs : List (Nat × Nat)) : List (Reg × Val) :=
  match d with
  | .m i => (.m i.toNat, .vec (lanesFrom vs 0)) :: (if n == 8 then [(.m (i.toNat + 1), .vec (lanesFrom vs 32))] else [])
  | .s i => [(.s i.toNat, .sc (BitVec.ofNat 64 ((vs.head?.map (·.2)).getD 0)))]
  | _ => []

/-- The register that a far answer's first word goes to. -/
def dstReg : Operand → Option Reg
  | .m i => some (.m i.toNat)
  | .s i => some (.s i.toNat)
  | _ => none

/-! ## The constant cache (R265) -/

/-- The eight-byte word around an address as ldk may see it: the line held, or memory (a line may have been dropped at any time), the same for every lane. -/
def constWord (s : State) (c : Ctx) (va pa : Nat) : Dword :=
  let m := s.dev64 (pa / 8 * 8)
  match (s.core c.r.core).kcache.find? fun e => e.1 == c.crew.part && e.2.1 == c.crew.pasid.toNat && e.2.2.1 == va / 8 * 8 with
  | none => m
  | some e => if Config.freeBit s.free 4096 (va / 8) then e.2.2.2 else m

/-- The value that ldk loads. -/
def constRead (s : State) (c : Ctx) (n : Nat) (a : Dword) (pa : Nat) : Nat := (constWord s c a.toNat pa).toNat / 2 ^ (8 * (a.toNat % 8)) % 2 ^ (8 * n)

/-- Eight-byte words of the constant cache, 64 KiB (R105). -/
def kcacheWords : Nat := 8192

/-- The last n of a list. -/
def lastOf {α : Type} (n : Nat) (l : List α) : List α := l.drop (l.length - n)

/-- The lines that an ldk leaves in the constant cache; the oldest give way (R105). -/
def constFill (s : State) (c : Ctx) (as : List (Nat × Dword)) (ls : List (Nat × Loc)) : State :=
  let k := (s.core c.r.core).kcache
  let key := fun (va : Nat) (e : Nat × Nat × Nat × Dword) => e.1 == c.crew.part && e.2.1 == c.crew.pasid.toNat && e.2.2.1 == va / 8 * 8
  let k' := (as.zip ls).foldl (fun (k : List (Nat × Nat × Nat × Dword)) ((_, a), (_, loc)) => match loc with
    | .dev pa => k.filter (fun e => !key a.toNat e) ++ [(c.crew.part, c.crew.pasid.toNat, a.toNat / 8 * 8, constWord s c a.toNat pa)]
    | _ => k) k
  s.modCore c.r.core fun x => { x with kcache := lastOf kcacheWords k' }

/-! ## Loads and stores (R260) -/

/-- A load word. -/
def loadWord (sp : Space) (f : MWord) (s : State) : Out3 :=
  let n := sizeOf_ f
  let sc := isScalar f.d
  runWord s ⟨sp.cap, false, false⟩
    (fun c => baseCode c f.base :: baseCode c f.idx :: codeIf (sc && (perLane f.base || perLane f.idx)) 0x10 :: loadDst c (n == 8) f.d)
    fun c =>
      let w := accessWaits c false false (f.ord == .acq)
      if !w.isEmpty then .park (.release w)
      else
        let as := memAddrs s c f sc
        match checkLanes s c sp n false as with
        | .err code l a => .trap code l a
        | .stale l a => rejectLoad s c sp l a
        | .ask l v => askHost s c l v false
        | .ok ls =>
          match poisonedLane s n as ls with
          | some (l, a, loc) => trapPoison s c (BitVec.ofNat 8 (sp.base + 5)) loc l a
          | none =>
            let s := hostBefores s c.crew.part n ls
            let vs := (as.zip ls).map fun ((l, a), (_, loc)) =>
              (l, match sp, loc with | .const, .dev pa => constRead s c n a pa | _, _ => readAt s n loc)
            let far := farOf false ls
            let t := complete (if sp == .const then constFill s c as ls else s) c [] 0 .t1
            let t := if far.isSome && f.ord == .acq then t.modSplit c.r fun p => { p with acqIds := p.acqIds ++ [t.nextId] } else t
            .ok (addOut t c
              { newOut c .load (if sc then BitVec.allOnes 32 else c.sp.mask) (if far.isSome then [] else loadDests f.d n vs) far as n sc (dstReg f.d) with
                tag := tagOf s c sp, host := sp == .host })

/-- The value that a lane stores (R260). -/
def storeVal (s : State) (c : Ctx) (f : MWord) (n : Nat) : Nat → Nat :=
  match f.d with
  | .m i =>
    let lo := readLanes s c 0 (.m i.toNat)
    if n == 8 then
      let hi := readLanes s c 0 (.m (i.toNat + 1))
      fun l => (lane hi l).toNat * 2 ^ 32 + (lane lo l).toNat
    else fun l => (lane lo l).toNat % 2 ^ (8 * n)
  | .o _ => let v := vval s c const32 0 f.d; fun l => (lane v l).toNat % 2 ^ (8 * n)
  | .x _ => let v := vval s c const32 0 f.d; fun l => (lane v l).toNat % 2 ^ (8 * n)
  | .lane => fun l => l
  | d => let v := (sval s c 0 d).toNat; fun _ => v % 2 ^ (8 * n)

/-- Write each lane's value, in ascending order, so that the highest lane's bytes land last (R261). -/
def storeLanes (s : State) (n : Nat) (v : Nat → Nat) (ls : List (Nat × Loc)) : State := ls.foldl (fun s (l, loc) => writeAt s n (v l) loc) s

/-- A host store: its bytes are written when it has been transmitted, or when a later access of the function needs them; where the link fails before, it has no
effect (R263, R266). -/
def hostStore (s : State) (p n : Nat) (v : Nat → Nat) (ls : List (Nat × Loc)) : State :=
  { s with hostRmw := s.hostRmw ++ [⟨s.nextId, p, ls.filterMap fun (l, loc) => match loc with | .host h => some (h, leBytes n (v l)) | _ => none⟩] }

/-- A store word. -/
def storeWord (sp : Space) (f : MWord) (s : State) : Out3 :=
  let n := sizeOf_ f
  runWord s ⟨sp.cap, false, false⟩ (fun c => baseCode c f.base :: baseCode c f.idx :: storeData c (n == 8) f.d) fun c =>
    let w := accessWaits c true (f.ord == .rel) false
    if !w.isEmpty then .park (.release w)
    else
      let as := memAddrs s c f false
      match checkLanes s c sp n true as with
      | .err code l a => .trap code l a
      | .stale l a => rejectLoad s c sp l a
      | .ask l v => askHost s c l v true
      | .ok ls =>
        let s := hostBefores s c.crew.part n ls
        let t := complete (if sp == .host then hostStore s c.crew.part n (storeVal s c f n) ls else unpoison (storeLanes s n (storeVal s c f n) ls) n ls) c [] 0 .t1
        .ok (addOut t c { newOut c .store c.sp.mask [] (if sp == .host then some .host else farOf true ls) as n false none with rel := f.ord == .rel, host := sp == .host })

/-- lds (R258, R260). -/
def execLds (f : MWord) (s : State) : Out3 := loadWord .spad f s
/-- sts (R258, R260). -/
def execSts (f : MWord) (s : State) : Out3 := storeWord .spad f s
/-- ldc (R258, R260). -/
def execLdc (f : MWord) (s : State) : Out3 := loadWord .cluster f s
/-- stc (R258, R260). -/
def execStc (f : MWord) (s : State) : Out3 := storeWord .cluster f s
/-- ldd (R258, R260). -/
def execLdd (f : MWord) (s : State) : Out3 := loadWord .dev f s
/-- std (R258, R260). -/
def execStd (f : MWord) (s : State) : Out3 := storeWord .dev f s
/-- ldp: the answer comes from the far device (R258, R266). -/
def execLdp (f : MWord) (s : State) : Out3 := loadWord .peer f s
/-- stp (R258, R266). -/
def execStp (f : MWord) (s : State) : Out3 := storeWord .peer f s
/-- ldh (R258, R260). -/
def execLdh (f : MWord) (s : State) : Out3 := loadWord .host f s
/-- sth: a posted write (R258, R266). -/
def execSth (f : MWord) (s : State) : Out3 := storeWord .host f s
/-- ldk (R258, R265). -/
def execLdk (f : MWord) (s : State) : Out3 := loadWord .const f s

end Sys2Proof.Machine
end

