-- ==== Sys2Proof/Machine/Atomic.lean ====
section
/-!
DEFINITION. Atomics, majors 0x1B to 0x1E (R267 to R271), and fences, major 0x1F (R272, R273).
-/
namespace Sys2Proof.Machine

/-! ## Operations (R267) -/

/-- What an atomic makes of the old value m, with b and c; all are N-bit numbers. -/
inductive AOp where
  | add | and | or | xor | smin | smax | umin | umax | exch | cas | fadd
  deriving DecidableEq, Repr

/-- The new memory value (R267). -/
def AOp.new (op : AOp) (nbits m b c : Nat) : Nat :=
  match op with
  | .add => (m + b) % 2 ^ nbits
  | .and => Nat.land m b
  | .or => Nat.lor m b
  | .xor => Nat.xor m b
  | .smin => if elInt nbits true b < elInt nbits true m then b else m
  | .smax => if elInt nbits true m < elInt nbits true b then b else m
  | .umin => if b < m then b else m
  | .umax => if m < b then b else m
  | .exch => b
  | .cas => if m == b then c else m
  | .fadd => (sumRes .f32 .rne [FloatFmt.f32.val m, FloatFmt.f32.val b] false).bits

/-- Bytes of ASZ; 0 and 1 are judged before (R223). -/
def aszBytes (f : AWord) : Nat := if f.asz == 3 then 8 else 4

/-! ## Operands (R268) -/

/-- A per-lane or uniform S-class operand; b64 lanes are even M pairs. -/
def atomSrc (c : Ctx) (pair : Bool) : Operand → List (Option Byte)
  | .m i => codeIf (!opPresent c.l c.regs (.m i)) 0x10 :: (if pair then pairCode c i else [])
  | .o i => if pair then [some 0x10] else [codeIf (!opPresent c.l c.regs (.o i)) 0x10]
  | .x i => if pair then [some 0x10] else [codeIf (!opPresent c.l c.regs (.x i)) 0x10]
  | .acc _ => [some 0x10]
  | .lane => [some 0x10]
  | .resLow _ => [some 0x11]
  | .resHigh _ => [some 0x11]
  | .s _ => []
  | .k _ => []
  | .special _ => []
  | .const _ => []

/-- D of an atomic. -/
def atomDst (c : Ctx) (pair : Bool) : Operand → List (Option Byte)
  | .m i => codeIf (!opPresent c.l c.regs (.m i)) 0x10 :: (if pair then pairCode c i else [])
  | .s _ => []
  | .o _ => [some 0x10]
  | .x _ => [some 0x10]
  | .acc _ => [some 0x10]
  | .k _ => [some 0x12]
  | .lane => [some 0x12]
  | .special _ => [some 0x12]
  | .const _ => [some 0x12]
  | .resLow _ => [some 0x11]
  | .resHigh _ => [some 0x11]

/-- A per-lane address is a pair in the spaces of 64-bit addresses (R268). -/
def Space.wide : Space → Bool
  | .spad => false | .cluster => false | _ => true

/-- The operand codes of an atomic. -/
def atomCodes (c : Ctx) (sp : Space) (op : AOp) (f : AWord) : List (Option Byte) :=
  let pair := f.asz == 3
  codeIf (decide (f.asz.toNat < 2) || (op == .fadd && f.asz == 3)) 0x14
    :: codeIf (isScalar f.d && (isVec f.a || isVec f.b || (op == .cas && isVec f.c))) 0x10
    :: (atomDst c pair f.d ++ atomSrc c sp.wide f.a ++ atomSrc c pair f.b ++ (if op == .cas then atomSrc c pair f.c else []))

/-- A 64-bit or 32-bit operand by lane. -/
def atomVal (s : State) (c : Ctx) (pos : Nat) (pair : Bool) (o : Operand) : Nat → Nat :=
  match o with
  | .m i =>
    let lo := readLanes s c pos (.m i.toNat)
    if pair then
      let hi := readLanes s c pos (.m (i.toNat + 1))
      fun l => (lane hi l).toNat * 2 ^ 32 + (lane lo l).toNat
    else fun l => (lane lo l).toNat
  | .o _ => let v := vval s c const32 pos o; fun l => (lane v l).toNat
  | .x _ => let v := vval s c const32 pos o; fun l => (lane v l).toNat
  | o => let v := (sval s c pos o).toNat; fun _ => v

/-- Addresses of an atomic's lanes (R268). -/
def atomAddrs (s : State) (c : Ctx) (sp : Space) (f : AWord) : List (Nat × Dword) :=
  let a := atomVal s c 1 sp.wide f.a
  if isScalar f.d then [(0, BitVec.ofNat 64 (a 0))] else (lanesOf c.sp.mask).map fun l => (l, BitVec.ofNat 64 (a l))

/-- The words of join cells whose COUNT an access of n bytes may have taken to 0. -/
def cellAt? (s : State) (pa n : Nat) : Option Nat := s.cells.find? fun c => decide (c < pa + n) && decide (pa < c + 8)

/-- An addition at device scope on bytes of a join cell's COUNT that takes it from non-zero to 0 releases the cell (R76). -/
def addReleases (s s1 : State) (pa n : Nat) : Option Nat :=
  match cellAt? s pa n with
  | some c => if s.dev64 c != 0 && s1.dev64 c == 0 then some c else none
  | none => none

/-- An atomic in device space is made at device scope or above: the space's own scope is device, and a plain one takes no other (R76, R160; log 12). -/
def deviceScope (f : AWord) : Bool := f.ord == .plain || f.scope == .default || f.scope == .device || f.scope == .system

/-- One lane's read and write, and the release of a cell whose COUNT an addition at device scope takes from non-zero to 0 (R76, R269). -/
def atomLane (s : State) (c : Ctx) (op : AOp) (wide : Bool) (n b cc : Nat) (a : Dword) (loc : Loc) : State × Nat :=
  let m := readAt s n loc
  let v := op.new (8 * n) m (b % 2 ^ (8 * n)) (cc % 2 ^ (8 * n))
  let s1 := writeAt s n v loc
  match loc with
  | .dev pa =>
    (match if op == .add && wide then addReleases s s1 pa n else none with
     | some k => (s1.releaseCell (State.dieOfPa pa) c.crew.part c.crew.pasid (a - BitVec.ofNat 64 (pa - k)) (some c.crew.task.launch), m)
     | none => (s1, m))
  | _ => (s1, m)

/-- The lanes in ascending order (R269). -/
def atomLanes (s : State) (c : Ctx) (op : AOp) (wide : Bool) (n : Nat) (b cc : Nat → Nat) : List (Nat × Dword × Loc) → State × List (Nat × Nat)
  | [] => (s, [])
  | (l, a, loc) :: t =>
    let (s1, m) := atomLane s c op wide n (b l) (cc l) a loc
    let (s2, ms) := atomLanes s1 c op wide n b cc t
    (s2, (l, m) :: ms)

/-- An atomic word. One on a peer is performed at the far device, one on host memory by the X-die, which reads now and writes when it answers: the split waits for
the answer, which completes the commit (R266, R270, R271). -/
def atomic (sp : Space) (op : AOp) (f : AWord) (s : State) : Out3 :=
  let n := aszBytes f
  runWord s ⟨sp.cap, true, false⟩ (fun c => atomCodes c sp op f) fun c =>
    let w := accessWaits c true (f.ord == .rel || f.ord == .ar) (f.ord == .acq || f.ord == .ar)
    if !w.isEmpty then .park (.release w)
    else
      let sc := isScalar f.d
      let as := atomAddrs s c sp f
      match checkLanes s c sp n true as with
      | .err code l a => .trap code l a
      | .stale l a => rejectLoad s c sp l a
      | .ask l v => askHost s c l v true
      | .ok ls =>
        match poisonedLane s n as ls with
        | some (l, a, loc) => trapPoison s c (BitVec.ofNat 8 (sp.base + 5)) loc l a
        | none =>
          let s := hostBefores s c.crew.part n ls
          let out : Out := { newOut c .atomic (if sc then BitVec.allOnes 32 else c.sp.mask) [] (farOf true ls) as n sc (dstReg f.d) with
                       rel := f.ord == .rel || f.ord == .ar, host := sp == .host }
          let far := fun (t : State) (o : Out) => Res.ok ((addOut t c o).modSplit c.r fun p => { p with parked := some (.release [s.nextId]) })
          if out.far.isSome then far s out
          else
            let pair := f.asz == 3
            let (s1, ms) := atomLanes s c op (deviceScope f) n (atomVal s c 2 pair f.b) (atomVal s c 3 pair f.c)
              ((as.zip ls).map fun ((l, a), (_, loc)) => (l, a, loc))
            let out : Out := { out with dests := loadDests f.d n ms }
            if sp == .host then
              far { s with hostRmw := s.hostRmw ++ [⟨s.nextId, c.crew.part, ls.filterMap fun (_, l) => match l with | .host h => some (h, s1.host.getBytes h n) | _ => none⟩] }
                { out with far := some .host }
            else .ok (addOut (commit s1 c [] .t1) c out)

/-- ats.add (R267, R269). -/
def execAtsAdd (f : AWord) (s : State) : Out3 := atomic .spad .add f s
/-- ats.and (R267, R269). -/
def execAtsAnd (f : AWord) (s : State) : Out3 := atomic .spad .and f s
/-- ats.or (R267, R269). -/
def execAtsOr (f : AWord) (s : State) : Out3 := atomic .spad .or f s
/-- ats.xor (R267, R269). -/
def execAtsXor (f : AWord) (s : State) : Out3 := atomic .spad .xor f s
/-- ats.smin (R267, R269). -/
def execAtsSmin (f : AWord) (s : State) : Out3 := atomic .spad .smin f s
/-- ats.smax (R267, R269). -/
def execAtsSmax (f : AWord) (s : State) : Out3 := atomic .spad .smax f s
/-- ats.umin (R267, R269). -/
def execAtsUmin (f : AWord) (s : State) : Out3 := atomic .spad .umin f s
/-- ats.umax (R267, R269). -/
def execAtsUmax (f : AWord) (s : State) : Out3 := atomic .spad .umax f s
/-- ats.exch (R267, R269). -/
def execAtsExch (f : AWord) (s : State) : Out3 := atomic .spad .exch f s
/-- ats.cas (R267, R269). -/
def execAtsCas (f : AWord) (s : State) : Out3 := atomic .spad .cas f s
/-- ats.fadd (R267, R269). -/
def execAtsFadd (f : AWord) (s : State) : Out3 := atomic .spad .fadd f s

/-- atc.add (R267, R269). -/
def execAtcAdd (f : AWord) (s : State) : Out3 := atomic .cluster .add f s
/-- atc.and (R267, R269). -/
def execAtcAnd (f : AWord) (s : State) : Out3 := atomic .cluster .and f s
/-- atc.or (R267, R269). -/
def execAtcOr (f : AWord) (s : State) : Out3 := atomic .cluster .or f s
/-- atc.xor (R267, R269). -/
def execAtcXor (f : AWord) (s : State) : Out3 := atomic .cluster .xor f s
/-- atc.smin (R267, R269). -/
def execAtcSmin (f : AWord) (s : State) : Out3 := atomic .cluster .smin f s
/-- atc.smax (R267, R269). -/
def execAtcSmax (f : AWord) (s : State) : Out3 := atomic .cluster .smax f s
/-- atc.umin (R267, R269). -/
def execAtcUmin (f : AWord) (s : State) : Out3 := atomic .cluster .umin f s
/-- atc.umax (R267, R269). -/
def execAtcUmax (f : AWord) (s : State) : Out3 := atomic .cluster .umax f s
/-- atc.exch (R267, R269). -/
def execAtcExch (f : AWord) (s : State) : Out3 := atomic .cluster .exch f s
/-- atc.cas (R267, R269). -/
def execAtcCas (f : AWord) (s : State) : Out3 := atomic .cluster .cas f s
/-- atc.fadd (R267, R269). -/
def execAtcFadd (f : AWord) (s : State) : Out3 := atomic .cluster .fadd f s

/-- atd.add (R267, R269). -/
def execAtdAdd (f : AWord) (s : State) : Out3 := atomic .dev .add f s
/-- atd.and (R267, R269). -/
def execAtdAnd (f : AWord) (s : State) : Out3 := atomic .dev .and f s
/-- atd.or (R267, R269). -/
def execAtdOr (f : AWord) (s : State) : Out3 := atomic .dev .or f s
/-- atd.xor (R267, R269). -/
def execAtdXor (f : AWord) (s : State) : Out3 := atomic .dev .xor f s
/-- atd.smin (R267, R269). -/
def execAtdSmin (f : AWord) (s : State) : Out3 := atomic .dev .smin f s
/-- atd.smax (R267, R269). -/
def execAtdSmax (f : AWord) (s : State) : Out3 := atomic .dev .smax f s
/-- atd.umin (R267, R269). -/
def execAtdUmin (f : AWord) (s : State) : Out3 := atomic .dev .umin f s
/-- atd.umax (R267, R269). -/
def execAtdUmax (f : AWord) (s : State) : Out3 := atomic .dev .umax f s
/-- atd.exch (R267, R269). -/
def execAtdExch (f : AWord) (s : State) : Out3 := atomic .dev .exch f s
/-- atd.cas (R267, R269). -/
def execAtdCas (f : AWord) (s : State) : Out3 := atomic .dev .cas f s
/-- atd.fadd (R267, R269). -/
def execAtdFadd (f : AWord) (s : State) : Out3 := atomic .dev .fadd f s

/-- atr.p.add (R267, R269). -/
def execAtrPAdd (f : AWord) (s : State) : Out3 := atomic .peer .add f s
/-- atr.p.and (R267, R269). -/
def execAtrPAnd (f : AWord) (s : State) : Out3 := atomic .peer .and f s
/-- atr.p.or (R267, R269). -/
def execAtrPOr (f : AWord) (s : State) : Out3 := atomic .peer .or f s
/-- atr.p.xor (R267, R269). -/
def execAtrPXor (f : AWord) (s : State) : Out3 := atomic .peer .xor f s
/-- atr.p.smin (R267, R269). -/
def execAtrPSmin (f : AWord) (s : State) : Out3 := atomic .peer .smin f s
/-- atr.p.smax (R267, R269). -/
def execAtrPSmax (f : AWord) (s : State) : Out3 := atomic .peer .smax f s
/-- atr.p.umin (R267, R269). -/
def execAtrPUmin (f : AWord) (s : State) : Out3 := atomic .peer .umin f s
/-- atr.p.umax (R267, R269). -/
def execAtrPUmax (f : AWord) (s : State) : Out3 := atomic .peer .umax f s
/-- atr.p.exch (R267, R269). -/
def execAtrPExch (f : AWord) (s : State) : Out3 := atomic .peer .exch f s
/-- atr.p.cas (R267, R269). -/
def execAtrPCas (f : AWord) (s : State) : Out3 := atomic .peer .cas f s
/-- atr.p.fadd (R267, R269). -/
def execAtrPFadd (f : AWord) (s : State) : Out3 := atomic .peer .fadd f s

/-- atr.h.add (R267, R269). -/
def execAtrHAdd (f : AWord) (s : State) : Out3 := atomic .host .add f s
/-- atr.h.and (R267, R269). -/
def execAtrHAnd (f : AWord) (s : State) : Out3 := atomic .host .and f s
/-- atr.h.or (R267, R269). -/
def execAtrHOr (f : AWord) (s : State) : Out3 := atomic .host .or f s
/-- atr.h.xor (R267, R269). -/
def execAtrHXor (f : AWord) (s : State) : Out3 := atomic .host .xor f s
/-- atr.h.smin (R267, R269). -/
def execAtrHSmin (f : AWord) (s : State) : Out3 := atomic .host .smin f s
/-- atr.h.smax (R267, R269). -/
def execAtrHSmax (f : AWord) (s : State) : Out3 := atomic .host .smax f s
/-- atr.h.umin (R267, R269). -/
def execAtrHUmin (f : AWord) (s : State) : Out3 := atomic .host .umin f s
/-- atr.h.umax (R267, R269). -/
def execAtrHUmax (f : AWord) (s : State) : Out3 := atomic .host .umax f s
/-- atr.h.exch (R267, R269). -/
def execAtrHExch (f : AWord) (s : State) : Out3 := atomic .host .exch f s
/-- atr.h.cas (R267, R269). -/
def execAtrHCas (f : AWord) (s : State) : Out3 := atomic .host .cas f s
/-- atr.h.fadd (R267, R269). -/
def execAtrHFadd (f : AWord) (s : State) : Out3 := atomic .host .fadd f s

/-! ## Fences (R165, R168, R170 to R173) -/

/-- A fence word that is no commit: it parks until the accesses named have ended, or completes. -/
def fenceOn (ids : Ctx → List Nat) (done : Ctx → Split → Split) (s : State) : Out3 :=
  runWord s .plain (fun _ => []) fun c =>
    let w := stillOut c (ids c)
    if !w.isEmpty then .park (.access w) else .ok (completeWith s c [] 0 .t1 fun p => done c p.next)

/-- The outstanding accesses before the word in program order, of the kinds that p admits. -/
def outIds (c : Ctx) (p : OutKind → Bool) : List Nat := ((c.g.outsOf c.sp).filter fun o => p o.kind).map (·.id)

/-- fence.acq: every earlier load and atomic of the split has returned its value (R273). -/
def execFenceAcq (_f : FenceWord) (s : State) : Out3 := fenceOn (fun c => outIds c fun k => k == .load || k == .atomic) (fun _ p => p) s

/-- fence.rel: later stores and atomics of the split wait for its earlier LS accesses; the grist write of mldb is an MX access (R273, R303). -/
def execFenceRel (_f : FenceWord) (s : State) : Out3 :=
  fenceOn (fun _ => []) (fun c p => { p with relIds := p.relIds ++ outIds c fun k => k != .special && k != .mx }) s

/-- fence.ar: the split's earlier accesses are performed (R273). -/
def execFenceAr (_f : FenceWord) (s : State) : Out3 := fenceOn (fun c => outIds c fun k => k != .special && k != .mx) (fun _ p => p) s

/-- fence.tot: as fence.ar; its place in the order S is its place in the order of this machine's steps (R168, R273). -/
def execFenceTot (_f : FenceWord) (s : State) : Out3 := fenceOn (fun c => outIds c fun k => k != .special && k != .mx) (fun _ p => p) s

/-- The core's instruction and constant-cache lines go. -/
def dropLines (s : State) (c : Ctx) : State := s.modCore c.r.core fun k => { k with icache := [], kcache := [] }

/-- What the copy engine has written to the grist by now is what the crew's later MX reads see (R142, R170). -/
def seeGrist (s : State) (c : Ctx) : State := s.modCrew c.r.core c.r.crew fun w => { w with gristOld := [] }

/-- xfence.a.b: it waits for the accesses of its first path: LS accesses before it in program order, Tun work of such matrix words; acquired copies and fetches
of executed words are already performed (R273). What follows it on the IF path is fetched afresh (R170, R174). -/
def execXfence (f : XfenceWord) (s : State) : Out3 :=
  runWord s .plain (fun _ => []) fun c =>
    let done := Res.ok (if f.b == .instr then dropLines (complete s c [] 0 .t1) c else complete s c [] 0 .t1)
    match f.a with
    | .ls =>
      let w := outIds c fun k => k != .special && k != .mx
      if !w.isEmpty then .park (.access w) else done
    | .mx =>
      match (tunOf s c.r.core c.r.crew c.r.gid c.sp).foldl (fun (m : Option Nat) i => some (max i (m.getD 0))) none with
      | some i => .park (.tun (i + 1))
      | none => done
    | .cp => if f.b == .mx then .ok (seeGrist (complete s c [] 0 .t1) c) else done
    | .instr => done

/-- fence.i: the core's instruction and constant-cache lines go, for every crew on it (R171, R273). -/
def execFenceI (_w : Bool) (s : State) : Out3 :=
  runWord s .plain (fun _ => []) fun c =>
    .ok (dropLines (complete s c [] 0 .t1) c)

end Sys2Proof.Machine
end

