-- ==== Sys2Proof/Machine/Sync.lean ====
section
/-!
DEFINITION. Synchronisation words, major 0x20 (R319 to R324), and the copy words of major 0x21 (R325, R326).
-/
namespace Sys2Proof.Machine

/-! ## Crew barriers (R320, R321) -/

/-- Register an arrival, with its count, at the open phase (R320). -/
def Crew.arrive (w : Crew) (gid bv cv : Nat) : Crew :=
  ({ w.modGroup gid fun g => { g with arrived := vmod g.arrived bv fun n => n + 1 } with
    bars := vmod w.bars bv fun b => { b with arr := b.arr ++ [gid], count := some cv } }).settleBarriers

/-- bar.arr and bar.hold (R321). -/
def barWord (f : RWord) (stays : Bool) (s : State) : Out3 :=
  runWord s .commit (fun _ => [if stays then none else dstS17 f.d, srcVal f.a, srcVal f.b]) fun c =>
    let bv := (sval s c 1 f.a).toNat
    let cv0 := (sval s c 2 f.b).toNat
    let cv := if cv0 == 0 then c.crew.n else cv0
    if 7 < bv then .trap 0x80 0 0
    else if c.crew.n < cv then .trap 0x81 0 0
    else if dieing s c then .ok (dieHere s c)
    else
      let p := c.g.arrived.getD bv 0
      let b := c.crew.bars.getD bv ⟨0, [], none⟩
      let far := accessWaits c true true false
      if !far.isEmpty then .park (.release far)
      else if b.bph != BitVec.ofNat 64 p then .park (.phase bv (BitVec.ofNat 64 p))
      else if (match b.count with | some k => k != cv | none => false) then .trap 0x81 0 0
      else
        let up : Dword := BitVec.ofNat 64 (p + 1)
        let t := commit s c (if stays then [] else wrScalar f.d up) .t1
        let t := t.modCrew c.r.core c.r.crew fun w => w.arrive c.r.gid bv cv
        .ok (if stays then t.modSplit c.r fun q => { q with barWait := some (bv, up) } else t)

/-- bar.arr (R321). -/
def execBarArr (f : RWord) (s : State) : Out3 := barWord f false s
/-- bar.hold (R321). -/
def execBarHold (f : RWord) (s : State) : Out3 := barWord f true s

/-! ## wait (R322, R323) -/

/-- The ARG of a condition word. -/
def condArg (w0 : Dword) : Nat := bits w0 56 0

/-- A malformed condition (R322). -/
def condBad (w0 w1 : Dword) : Bool :=
  match bits w0 63 60 with
  | 1 => false
  | 2 => bits w0 59 57 != 0 || decide (7 < condArg w0)
  | 3 => bits w0 59 57 != 0 || condArg w0 != 0 || w1 != 0
  | 4 => bits w0 59 57 != 0 || decide (65535 < condArg w0) || w1 != 0
  | 5 => bits w0 59 57 != 0 || condArg w0 != 0
  | _ => true

/-- The condition that two well-formed words state (R322). -/
def condOf (w0 w1 : Dword) : WaitCond :=
  match bits w0 63 60 with
  | 1 => .counter (bits w0 59 57 == 2) (condArg w0) w1
  | 2 => .barrier (condArg w0) w1
  | 3 => .paddle
  | 4 => .scope (condArg w0)
  | _ => .time w1

/-- Where the counter of a condition lies. The wait's reads of device space are sent again under a stale tag (R148). -/
def counterAt (s : State) (core : Nat) (w : Crew) (timedOut : Bool) (device : Bool) (a : Nat) : LaneRes :=
  if device then
    match s.devCheck (clusterOf core) w.part w.pasid.toNat (BitVec.ofNat 64 a) 8 .read true timedOut with
    | .ok pa => .ok (.dev pa)
    | .err e => .err (e.code 0x50)
  else checkSpad core w (BitVec.ofNat 64 a) 8

/-- The first counter condition that cannot be read: its code and address, and where a poisoned word lies (R322, R263, R192). -/
def counterFault (s : State) (c : Ctx) : List WaitCond → Option (Byte × Nat × Option Loc)
  | [] => none
  | .counter d a _ :: t =>
    (match counterAt s c.r.core c.crew (c.g.walkOut == some c.r.split) d a with
     | .err code => some (code, a, none)
     | .ok loc => if poisonedAt s 8 loc then some (if d then 0x55 else 0x45, a, some loc) else counterFault s c t
     | _ => counterFault s c t)
  | _ :: t => counterFault s c t

/-- A condition holds (R323). -/
def condHolds (s : State) (r : SplitRef) (w : Crew) : WaitCond → Bool
  | .counter d a t =>
    (match counterAt s r.core w false d a with
     | .ok loc => !poisonedAt s 8 loc && decide (t.toNat ≤ readAt s 8 loc)
     | _ => false)
  | .barrier b t => decide (t.toNat ≤ (w.bars.getD b ⟨0, [], none⟩).bph.toNat)
  | .paddle => (s.core r.core).paddle == some r.crew && w.stage r.gid == 0
  | .scope id => s.cancelledOn w.part (dieOf r.core) 15 id
  | .time t => decide (t.toNat ≤ (s.timeOf (dieOf r.core)).toNat)

/-- SAT: which conditions hold (R322). -/
def satOf (s : State) (r : SplitRef) (w : Crew) (cs : List WaitCond) : Nat :=
  (cs.zipIdx).foldl (fun n (x, i) => n + bit (condHolds s r w x) * 2 ^ i) 0

/-- A wait asks for the paddle that one of its conditions needs (R108, R323). -/
def askForWait (s : State) (r : SplitRef) (w : Crew) (cs : List WaitCond) : State :=
  if cs.contains .paddle && w.stage r.gid == 0 then s.modCore r.core fun k => k.askPaddle r.crew else s

/-- The loop of R323 ends: the status, or none while it goes on. -/
def waitStatus (s : State) (r : SplitRef) (w : Crew) (x : Waiting) : Option Dword :=
  let sat := satOf s r w x.conds
  let now := (s.timeOf (dieOf r.core)).toNat
  let waited := min (now - x.t0.toNat) (2 ^ 32 - 1)
  if (x.all && sat == 2 ^ x.conds.length - 1) || (!x.all && sat != 0) then some (BitVec.ofNat 64 (waited * 2 ^ 32 + sat))
  else if x.tmo != 0xFFFFFFFF && decide (x.t0.toNat + x.tmo.toNat ≤ now) then some (BitVec.ofNat 64 (waited * 2 ^ 32 + 16 + sat))
  else none

/-- The status as an outstanding result (R323). -/
def statusOut (id : Nat) (r : SplitRef) (dst : Nat) (v : Dword) (hit : Bool) (pc : Pcoff) (ctx : Dword) : Out :=
  { id := id, split := r.split, kind := .special, lanes := BitVec.allOnes 32, dests := [(.s dst, .sc v)],
    contested := if hit then [(.s dst, BitVec.allOnes 32, 0xFFFFFFFF)] else [], far := none, addrs := [],
    width := 8, scalar := true, dst := some (.s dst), pc := pc, ctx := ctx, tag := none, rel := false, host := false }

/-- A wait returns if its loop ends now: its status is on its way to its destination. -/
def pollWait (s : State) (r : SplitRef) : State :=
  match s.crew? r.core r.crew, (s.group? r.core r.crew r.gid).bind fun g => g.split? r.split with
  | some w, some p =>
    (match p.waiting with
     | none => s
     | some x =>
       let s := askForWait s r w x.conds
       match waitStatus s r w x with
       | none => s
       | some v =>
         { s.modGroup r.core r.crew r.gid fun g =>
             { g.modSplit r.split fun p => { p with waiting := none } with outs := g.outs ++ [statusOut s.nextId r x.dst v x.hit (p.pc - 1) g.ctx] } with
           nextId := s.nextId + 1 })
  | _, _ => s

/-- Every split that waits. -/
def waitingSplits (s : State) : List SplitRef :=
  s.allCrews.flatMap fun (c, w) => w.groups.flatMap fun g => g.splits.filterMap fun p => if p.waiting.isSome then some ⟨c, w.slot, g.gid, p.num⟩ else none

/-- Poll every wait. -/
def pollWaits (s : State) : State := (waitingSplits s).foldl pollWait s

/-- wait (R322, R323). -/
def execWait (f : RWord) (s : State) : Out3 :=
  runWord s .plain (fun c => [dstS17 f.d, srcSReg f.a, srcVal f.b,
      codeIf (srcVal f.b == none && (match f.a with | .s i => decide (64 < i.toNat + 2 * bits (sval s c 3 f.b) 2 0) | _ => false)) 0x15]) fun c =>
    let ctl := sval s c 3 f.b
    let n := bits ctl 2 0
    let a := match f.a with | .s i => i.toNat | _ => 0
    let ws := (List.range n).map fun k => (readScalar s c 2 (.s (a + 2 * k)), readScalar s c 2 (.s (a + 2 * k + 1)))
    if n == 0 || decide (4 < n) || bits ctl 31 4 != 0 || ws.any fun w => condBad w.1 w.2 then .trap 0x82 0 0
    else if ws.any fun w => bits w.1 63 60 == 1 && bits w.1 59 57 != 0 && bits w.1 59 57 != 2 then .trap 0x83 0 0
    else if ws.any fun w => bits w.1 63 60 == 1 && condArg w.1 % 8 != 0 then .trap 0x84 0 0
    else
      let cs := ws.map fun w => condOf w.1 w.2
      let far := if ws.any fun w => bits w.1 63 60 == 1 then accessWaits c false false true else []
      if !far.isEmpty then .park (.release far)
      else match counterFault s c cs with
      | some (code, ad, none) => .trap code 0 (BitVec.ofNat 64 ad)
      | some (code, ad, some loc) => trapPoison s c code loc 0 (BitVec.ofNat 64 ad)
      | none =>
        if dieing s c then .ok (dieHere s c)
        else
          let dst := match f.d with | .s i => i.toNat | _ => 0
          let x : Waiting := { dst := dst, t0 := s.timeOf (dieOf c.r.core), tmo := ctl.extractLsb' 32 32, all := ctl.getLsbD 3, conds := cs, hit := false }
          .ok (pollWait (completeWith s c [] 0 .t1 fun p => { p.next with waiting := some x }) c.r)

/-! ## pass (R324) -/

/-- pass: ROUND advances, and the paddle goes on; past a group that has ended ROUND advances again (R109). -/
def execPass (_f : RWord) (s : State) : Out3 :=
  runWord s .commit (fun _ => []) fun c =>
    if c.crew.stage c.r.gid != 0 then .trap 0x85 0 0
    else if (s.core c.r.core).paddle != some c.r.crew then .trap 0x86 0 0
    else
      let w := accessWaits c true true false
      if !w.isEmpty then .park (.release w)
      else
        let t := (commit s c [] .t1).modCrew c.r.core c.r.crew fun w => { w with round := w.round + 1 }
        let t := t.modCore c.r.core fun k => let h := k.handOver c.r.crew; { h with passed := if h.paddle == some c.r.crew then some c.r.crew else none }
        .ok (advanceRound c.r.core c.r.crew 16 (askWaiters t c.r.core c.r.crew))

/-! ## cpost and cdrain (R325, R326) -/

/-- Offset of the copy ring (R140, R151). -/
def Crew.ringBase (w : Crew) : Nat := w.spadBytes - 2048

/-- cpost (R325). -/
def execCpost (f : RWord) (s : State) : Out3 :=
  runWord s .commit (fun _ => [dstS17 f.d, srcSReg f.a, codeIf (match f.a with | .s i => decide (60 < i.toNat) | _ => false) 0x15]) fun c =>
    if c.crew.task.spad < 2 then .trap 0x71 0 0
    else if c.crew.take.toNat + 64 ≤ c.crew.pub.toNat then .park .ring
    else
      let w := accessWaits c true true false
      if !w.isEmpty then .park (.release w)
      else
        let a := match f.a with | .s i => i.toNat | _ => 0
        let off := c.crew.ringBase + 32 * (c.crew.pub.toNat % 64)
        let t := commit s c (wrScalar f.d c.crew.pub) .t1
        let put := fun (t : State) (k : Nat) => writeAt t 8 (readScalar s c 1 (.s (a + k))).toNat (.spad c.r.core c.r.crew (off + 8 * k))
        let t := unpoison ([0, 1, 2, 3].foldl put t) 32 [(0, .spad c.r.core c.r.crew off)]
        .ok (t.modCrew c.r.core c.r.crew fun w => { w with pub := w.pub + 1 })

/-- DSP of the ring's command of a sequence number (R152). -/
def Crew.ringDsp (w : Crew) (q : Nat) : Nat := leNat (w.spadRead (w.ringBase + 32 * (q % 64)) 8) / 128 % 8

/-- A command of the crew's ring below pub to the space dsp has neither completed nor aborted (R326). -/
def Crew.drainPending (w : Crew) (pub dsp : Nat) : Bool :=
  w.started.any (fun e => decide (e.2.1 < pub) && e.2.2 == dsp)
    || (List.range (min pub w.pub.toNat - w.take.toNat)).any fun i => w.ringDsp (w.take.toNat + i) == dsp

/-- cdrain (R326). The PUB of its first issue counts. -/
def execCdrain (f : RWord) (s : State) : Out3 :=
  runWord s .plain (fun _ => [codeIf (decide (5 < bits f.c.bits 9 7)) 0x14]) fun c =>
    let dsp := bits f.c.bits 9 7
    let pub := match c.sp.parked with | some (.drain p _) => p | _ => c.crew.pub
    if 2 ≤ c.crew.task.spad ∧ c.crew.drainPending pub.toNat dsp then .park (.drain pub dsp) else .ok (complete s c [] 0 .t1)

end Sys2Proof.Machine
end

