-- ==== Sys2Proof/Machine/Task.lean ====
section
/-!
DEFINITION. Task words, major 0x25 (R327 to R331).
-/
namespace Sys2Proof.Machine

/-! ## spawn (R327) -/

/-- The record's words, checked as device loads of the split; a stale tag and poison are those of a load (R148, R192). The record is 64-byte aligned, which
is judged where R146 judges alignment. -/
def recordCheck (s : State) (c : Ctx) (a : Dword) (n : Nat) : Option Res :=
  let as := (List.range n).map fun i => ((0 : Nat), a + BitVec.ofNat 64 (8 * i))
  if a.toNat % 64 != 0 then some (.trap (if 2 ^ 57 ≤ a.toNat then 0x53 else 0x52) 0 a)
  else
    match checkLanes s c .dev 8 false as with
    | .err code l x => some (.trap code l x)
    | .stale l x => some (rejectLoad s c .dev l x)
    | .ask _ _ => none
    | .ok ls => (poisonedLane s 8 as ls).map fun (l, x, loc) => trapPoison s c 0x55 loc l x

/-- Queue a copy of the record in its scope (R327, R81). -/
def spawnInto (s : State) (c : Ctx) (t : TaskRec) (root : Option RootExt) (addr : Dword) : State × Nat :=
  let p := c.crew.part
  match (s.scope p t.scopeId).st with
  | .free => (s, 4)
  | .cancelling => (s, 1)
  | .cancelled => (s, 1)
  | .opened =>
    if s.queueRoom (dieOf c.r.core) p then
      let t' := if t.isRoot then t else { t with launch := c.crew.task.launch }
      let s := s.enqueue (dieOf c.r.core) p c.crew.pasid t' root false addr
      (if !t.isRoot && t.succ != 0 then s.nameCell p c.crew.pasid.toNat t.succ (96 + dieOf c.r.core) else s, 0)
    else (s, 2)

/-- The effect and the status of spawn; acka is given by spawn.open (R327). -/
def spawnStatus (s : State) (c : Ctx) (a : Dword) (acka : Option Dword) : State × Nat :=
  let p := c.crew.part
  let ps := c.crew.pasid.toNat
  let d := dieOf c.r.core
  let t := readTask s p ps a (96 + d)
  let root := if t.isRoot then some (readRoot s p ps a (96 + d)) else none
  let bad : Option Byte := if taskBad s p ps t (96 + d) then some 0x88 else match root with | some e => if rootBad s p e then some 0x89 else none | none => none
  match bad with
  | some code => ((s.testWords p ps t.code 8 (96 + d)).countFault p c.crew.task.launch d code a, 3)
  | none =>
    match acka with
    | none => spawnInto s c t root a
    | some k =>
      match s.openScope? p t.scopeId (some c.crew.task.scopeId) k c.crew.pasid false with
      | none => (s, 4)
      | some e =>
        let (s1, st) := spawnInto (s.setScope p t.scopeId e) c t root a
        (if st == 0 then s1 else s1.freeScopes p, st)

/-- spawn and spawn.open. -/
def spawnWord (f : RWord) (opens : Bool) (s : State) : Out3 :=
  runWord s .commit (fun c => [dstS17 f.d, srcVal f.a, if opens then srcVal f.b else none,
      codeIf (opens && srcVal f.b == none && bits (sval s c 2 f.b) 2 0 != 0) 0x14]) fun c =>
    let w := accessWaits c true true false
    if !w.isEmpty then .park (.release w)
    else
      let a := sval s c 1 f.a
      match recordCheck s c a 8 with
      | some r => r
      | none =>
        match (if (readTask s c.crew.part c.crew.pasid.toNat a (96 + dieOf c.r.core)).isRoot then recordCheck s c a 16 else none) with
        | some r => r
        | none =>
          let (s1, st) := spawnStatus s c a (if opens then some (sval s c 2 f.b) else none)
          .ok (commit s1 c (wrScalar f.d (BitVec.ofNat 64 st)) .t1)

/-- spawn (R327). -/
def execSpawn (f : RWord) (s : State) : Out3 := spawnWord f false s
/-- spawn.open (R327). -/
def execSpawnOpen (f : RWord) (s : State) : Out3 := spawnWord f true s

/-- arm: a device atomic add with release of the count on COUNT, which names the cell (R328, R76). -/
def execArm (f : RWord) (s : State) : Out3 :=
  runWord s .commit (fun _ => [dstS17 f.d, srcVal f.a, srcVal f.b]) fun c =>
    let a := sval s c 1 f.a
    let n := sval s c 2 f.b
    if a.toNat % 128 != 0 then .trap 0x8B 0 a
    else if n == 0 || decide (2 ^ 31 ≤ n.toNat) then .trap 0x8D 0 a
    else
      let w := accessWaits c true true false
      if !w.isEmpty then .park (.release w)
      else
        match checkDev s c .dev a 8 true with
        | .err code => .trap code 0 a
        | .stale => rejectLoad s c .dev 0 a
        | .ask _ => .trap 0x50 0 a
        | .ok loc =>
          if poisonedAt s 8 loc then trapPoison s c 0x55 loc 0 a
          else
            let (s1, old) := atomLane (s.nameCell c.crew.part c.crew.pasid.toNat a) c .add true 8 n.toNat 0 a loc
            .ok (commit s1 c (wrScalar f.d (BitVec.ofNat 64 old)) .t1)

/-- cancel (R329, R92): on its own die the cancel takes effect with the word, so that a crew that cancels itself dies at its next kill point (R329, R351). -/
def execCancel (f : RWord) (s : State) : Out3 :=
  runWord s .commit (fun c => [dstS17 f.d, srcVal f.a, codeIf (srcVal f.a == none && bits (sval s c 1 f.a) 63 16 != 0) 0x14]) fun c =>
    let id := bits (sval s c 1 f.a) 15 0
    let e := s.scope c.crew.part id
    if e.st == .free then .ok (commit s c (wrScalar f.d 1) .t1)
    else if e.pend == 0xFFFFFFFF then .ok (commit s c (wrScalar f.d 2) .t1)
    else .ok (cancelHere (commit (s.acceptCancel c.crew.part id none (some (dieOf c.r.core))) c (wrScalar f.d 0) .t1) (dieOf c.r.core) c.crew.part id)

/-- A of step: the inline constant 0 or 1 (R330). -/
def stepSel : Operand → Option Byte
  | .const k => codeIf (bits (constVal k) 63 1 != 0) 0x14
  | _ => some 0x10

/-- Steps of a launch that follow the one under way (R330). -/
def Launch.stepsLeft (l : Launch) : Nat := if l.last then 0 else l.ext.steps - 1 - l.step

/-- step (R330). -/
def execStep (f : RWord) (s : State) : Out3 :=
  runWord s .plain (fun _ => [dstS17 f.d, stepSel f.a]) fun c =>
    let p := c.crew.part
    let id := c.crew.task.launch
    if !c.crew.byGen then .trap 0x8C 0 0
    else if sval s c 1 f.a == 0 then
      .ok (complete s c (wrScalar f.d (BitVec.ofNat 64 (match s.launch? p id with | some l => l.stepsLeft | none => 0))) 0 .t1)
    else .ok ((complete s c (wrScalar f.d 0) 0 .t1).modLaunch p id fun l => { l with last := true })

/-- retire: every lane of the group ends (R331). -/
def execRetire (_f : RWord) (s : State) : Out3 :=
  runWord s .ender (fun _ => []) fun c => .ok { groupEnds s c.r.core c.r.crew c.r.gid false with free := s.free + 1 }

end Sys2Proof.Machine
end

