-- ==== Sys2Proof/Machine/Tun.lean ====
section
/-!
DEFINITION. What a Tun does with its accepted operations: the summation of an mma (R211, R306, R307), the other operations (R303, R308 to R313), stops and
freezes (R191, R316, R317).
-/
namespace Sys2Proof.Machine

/-! ## Tiles and grist -/

/-- The physical tile that a crew's tile names. -/
def Crew.phys (w : Crew) (t : Nat) : Nat := match w.tiles[t]? with | some m => m.phys | none => 0

/-- The crew's context owns its tile t (R190, R299). -/
def Core.owns (k : Core) (w : Crew) (t : Nat) : Bool := (k.tiles.getD (w.phys t) PhysTile.reset).owner == some w.ctxId

/-- The rows of a crew's tile, wherever they lie: in the physical tile that its context owns, else in its spill image, else zero (R190). -/
def tileAt (s : State) (core slot t : Nat) : Tile :=
  match s.crew? core slot with
  | none => zeroTile
  | some w =>
    if (s.core core).owns w t then ((s.core core).tiles.getD (w.phys t) PhysTile.reset).data
    else match w.tiles[t]? with | some m => m.saved.getD zeroTile | none => zeroTile

/-- Change a crew's tile where its rows lie: the physical tile, whose image is then no longer current, or the image. -/
def modTile (s : State) (core slot t : Nat) (onPhys : PhysTile → PhysTile) (onMap : TileMap → TileMap) : State :=
  match s.crew? core slot with
  | none => s
  | some w =>
    if (s.core core).owns w t then s.modCore core fun k => { k with tiles := vmod k.tiles (w.phys t) onPhys }
    else s.modCrew core slot fun w => { w with tiles := w.tiles.zipIdx.map fun (m, i) => if i == t then onMap m else m }

/-- Write a crew's tile. -/
def setTile (s : State) (core slot t : Nat) (d : Tile) : State :=
  modTile s core slot t (fun p => { p with data := d, current := false }) fun m => { m with saved := some d }

/-- A row of a tile. -/
def tileRow (t : Tile) (i : Nat) : Lanes := t.getD i zeroLanes

/-- Mark a crew's tile poisoned, or clear its mark (R192). -/
def markTile (s : State) (core slot t : Nat) (p : Option Nat) : State :=
  modTile s core slot t (fun x => { x with poison := p }) fun m => { m with poison := p }

/-- The number of the grist byte of a slice at an offset (R192). -/
def gristPlace (slice goff : Nat) : Nat := 32 * goff + slice

/-- A grist byte as the Tun reads it for a crew: one that a copy has written, with no xfence.cp.mx of the crew since, may still be the older one (R142, R170). -/
def Crew.mxByte (w : Crew) (k : Core) (n place : Nat) : Byte :=
  match w.gristOld.find? fun e => e.1 == place with
  | some (_, b) => if Config.freeBit n place 0 then b else k.grist.get place
  | none => k.grist.get place

/-- Flags of Tun work go to the crew (R202). -/
def crewFlags (s : State) (core slot : Nat) (f : Byte) : State := s.modCrew core slot fun w => { w with flags := w.flags ||| f }

/-! ## Formats and pairings (R194, R210) -/

/-- Width in bits of an element format; none is reserved. -/
def fmtBits (f : Fmt) : Option Nat :=
  match f.toNat with
  | 0 => some 32 | 1 => some 16 | 2 => some 16 | 3 => some 8 | 4 => some 8 | 5 => some 32 | 6 => some 16 | 7 => some 8 | 8 => some 32 | 9 => some 16
  | 10 => some 8 | 11 => some 4 | 12 => some 4 | _ => none

/-- The floating-point format of a code. -/
def fmtFloat (f : Fmt) : Option FloatFmt :=
  match f.toNat with
  | 0 => some .f32 | 1 => some .f16 | 2 => some .bf16 | 3 => some .f8e4 | 4 => some .f8e5 | _ => none

/-- A pairing: the length of a summation chunk, and whether it accumulates as I32 (R210, R211). The length is the granularity of K too. -/
def pairing (a b : Fmt) : Option (Nat × Bool) :=
  if (a == 2 && b == 2) || (a == 1 && b == 1) then some (4, false)
  else if (a == 3 || a == 4) && (b == 3 || b == 4) then some (8, false)
  else if (a == 7 || a == 10) && (b == 7 || b == 10) then some (8, true)
  else if (a == 3 || a == 4) && (b == 11 || b == 12) then some (64, false)
  else none

/-- An HQ4 or TQ4 operand. -/
def Fmt.quant (f : Fmt) : Bool := f == 11 || f == 12

/-! ## Summation (R211) -/

/-- Element k of a row of the A run, of w bits (R195). -/
def Mma.aElem (o : Mma) (w i k : Nat) : Nat := (lane (o.a.getD (k * w / 32) zeroLanes) i).toNat / 2 ^ (k * w % 32) % 2 ^ w

/-- Element k of a column of the B tile, of w bits (R205, R303); rd reads a grist byte. -/
def bElem (rd : Nat → Byte) (goff w j k : Nat) : Nat :=
  let byte := fun (i : Nat) => (rd (gristPlace j (goff + i))).toNat
  if w == 16 then byte (2 * k) + 256 * byte (2 * k + 1) else if w == 8 then byte k else byte (k / 2) / 16 ^ (k % 2) % 16

/-- B's exact value, with its scales (R204, R207), and whether it is a product of 0 and infinity. -/
def Mma.bVal (o : Mma) (rd : Nat → Byte) (j k : Nat) : FVal × Bool :=
  let q := bElem rd o.goff ((fmtBits o.bf).getD 8) j k
  if Fmt.quant o.bf then
    let l := if o.bf == 11 then hq4Val q else FloatFmt.bf16.val (o.bank.getD q 0).toNat
    let c := ((o.bscale.getD (k / 64) []).getD j 0).toNat
    let g := match FloatFmt.f32.val (o.bg.getD j 0).toNat with | .fin n m e => FVal.fin n (m * (1 + c)) (e - 8) | v => v
    l.mul g
  else match fmtFloat o.bf with
    | some f => (f.val q, false)
    | none => (.nan, false)

/-- One chunk of floating-point terms into an accumulator element. -/
def Mma.chunkF (o : Mma) (rd : Nat → Byte) (i j lo n : Nat) (acc : Word) : Word × Byte :=
  let af := (fmtFloat o.af).getD .bf16
  let ts := (List.range n).map fun d =>
    let (b, inv) := o.bVal rd j (lo + d)
    let (p, inv2) := (af.val (o.aElem af.width i (lo + d))).mul b
    (p, inv || inv2)
  let r := sumRes .f32 .rne (FloatFmt.f32.val acc.toNat :: ts.map (·.1)) (ts.any (·.2))
  (BitVec.ofNat 32 r.bits, r.flags)

/-- One chunk of integer terms. -/
def Mma.chunkI (o : Mma) (rd : Nat → Byte) (i j lo n : Nat) (acc : Word) : Word × Byte :=
  let e := fun (f : Fmt) (v : Nat) => elInt 8 (f == 7) v
  let p := (List.range n).foldl (fun (t : Int) d => t + e o.af (o.aElem 8 i (lo + d)) * e o.bf (bElem rd o.goff 8 j (lo + d))) 0
  let t := acc.toInt + p
  (BitVec.ofInt 32 t, flagIf (decide (t < intLo 32 true) || decide (intHi 32 true < t)) fIntOverflow)

/-- The chunks that end above lo and at or below hi, in ascending K: their start and length. -/
def Mma.chunks (o : Mma) (lo hi : Nat) : List (Nat × Nat) :=
  let w := match pairing o.af o.bf with | some (w, _) => w | none => 4
  ((List.range (hi / w)).map fun m => (m * w, w)).filter fun c => decide (lo < c.1 + c.2)

/-- The chunks of one element. -/
def Mma.elem (o : Mma) (rd : Nat → Byte) (i j lo hi : Nat) (acc : Word) : Word × Byte :=
  let int := match pairing o.af o.bf with | some (_, b) => b | none => false
  (o.chunks lo hi).foldl (fun (a : Word × Byte) (c : Nat × Nat) =>
    let r := if int then o.chunkI rd i j c.1 c.2 a.1 else o.chunkF rd i j c.1 c.2 a.1
    (r.1, a.2 ||| r.2)) (acc, 0)

/-- The first poisoned grist byte that a step reads (R192). -/
def Mma.poisonRead (o : Mma) (poison : List Nat) (lo hi : Nat) : Option Nat :=
  let w := (fmtBits o.bf).getD 8
  poison.find? fun p => decide (o.goff + lo * w / 8 ≤ p / 32) && decide (p / 32 < o.goff + (hi * w + 7) / 8)

/-- One step of 32 in K (R306, R307): the tile after it, and the operation with its place in K moved on and the flags that the step raised. -/
def mmaStep (s : State) (core : Nat) (w : Crew) (o : Mma) : State × Mma :=
  let k := s.core core
  let rd := w.mxByte k s.free
  let lo := o.pos
  let hi := min (o.pos + 32) o.k
  let old := tileAt s core w.slot o.tile
  let res : Nat → Nat → Word × Byte := fun i j =>
    if o.act.getLsbD i then o.elem rd i j lo hi (if o.z && lo == 0 then 0 else lane (tileRow old i) j) else (lane (tileRow old i) j, 0)
  let all : Vector (Vector (Word × Byte) 32) 32 := Vector.ofFn fun i => Vector.ofFn fun j => res i.val j.val
  let flags := all.toList.foldl (fun (a : Byte) r => r.toList.foldl (fun a e => a ||| e.2) a) 0
  let s1 := setTile s core w.slot o.tile (all.map fun r => r.map (·.1))
  let s2 := if o.z && lo == 0 && o.act == BitVec.allOnes 32 then markTile s1 core w.slot o.tile none else s1
  let s3 := match o.poisonRead k.gristPoison lo hi with | some p => State.startTest (markTile s2 core w.slot o.tile (some p)) (2 ^ 40 + core) | none => s2
  ({ s3 with free := s3.free + 1 }, { o with pos := hi, flags := o.flags ||| flags })

/-- The steps that are left. -/
def mmaRun (core : Nat) (w : Crew) : Nat → State × Mma → State × Mma
  | 0, x => x
  | f + 1, (s, o) => if o.k ≤ o.pos then (s, o) else mmaRun core w f (mmaStep s core w o)

/-! ## The other operations -/

/-- The narrowed value of a tile element under mdrain, with its flags (R310); err feedback apart. -/
def drainVal (fmt : Fmt) (i32 : Bool) (mode : RMode) (x : Word) : Nat × Byte :=
  if i32 then
    match fmtFloat fmt with
    | some f => let r := roundExact f mode x.toInt 0 false; (r.bits, r.flags)
    | none => deliver ((fmtBits fmt).getD 32) true false true x.toInt
  else
    match fmtFloat fmt with
    | some f => let r := (FloatFmt.f32.val x.toNat).to f mode; (r.bits, r.flags)
    | none => (0, 0)

/-- The bytes that a drain writes: offset and value, for one row, and the bytes of its residues (R310). A byte of both regions keeps one of the two values:
which one is a free choice for each byte. A protected word that the row covers is no longer poisoned (R192). -/
def drainRow (s : State) (core : Nat) (w : Crew) (tile dst str : Nat) (fmt : Fmt) (i32 : Bool) (rnd : BitVec 3) (res : Option Nat)
    (shared : Nat → Bool × Bool) (i : Nat) : State :=
  let row := tileRow (tileAt s core w.slot tile) i
  let e := (fmtBits fmt).getD 32 / 8
  let base := dst + i * str
  let put := fun (s : State) (fromRes : Bool) (a : Nat) (bs : List Byte) =>
    (bs.zipIdx).foldl (fun (s : State) (b, n) =>
      let (inDst, inRes) := shared (a + n)
      if inDst && inRes && Config.freeBit s.free (a + n) 0 != fromRes then s
      else s.modCrew core w.slot fun x => { x with spad := x.spad.put (a + n) b }) s
  let t := (List.range 32).foldl (fun (s : State) j =>
    let x := lane row j
    let a := base + j * e
    match res, fmtFloat fmt with
    | some r, some f =>
      let ra := r + 128 * i + 4 * j
      let rin := match s.crew? core w.slot with | some u => leNat (u.spadRead ra 4) | none => 0
      let (y, rout, fl) := efRes f x.toNat rin
      crewFlags (put (put s true ra (leBytes 4 rout)) false a (leBytes e y)) core w.slot fl
    | _, _ =>
      let (y, fl) := drainVal fmt i32 (fmaMode (rnd.setWidth 2)) x
      crewFlags (put s false a (leBytes e y)) core w.slot fl) s
  unpoison t (32 * e) [(0, .spad core w.slot base)]

/-- A drain's rows in ascending order, from row on, up to stop (R310, R317). -/
def drainRows (s : State) (core : Nat) (w : Crew) (tile : Nat) (act : Mask) (dst str : Nat) (fmt : Fmt) (i32 : Bool) (rnd : BitVec 3) (res : Option Nat)
    (row stop : Nat) : State :=
  let e := (fmtBits fmt).getD 32 / 8
  let rows := lanesOf act
  let shared := fun (a : Nat) =>
    (rows.any (fun i => let b := dst + i * str; decide (b ≤ a) && decide (a < b + 32 * e)),
     match res with | some r => rows.any (fun i => decide (r + 128 * i ≤ a) && decide (a < r + 128 * i + 128)) | none => false)
  (rows.filter fun i => decide (row ≤ i) && decide (i < stop)).foldl (fun s i => drainRow s core w tile dst str fmt i32 rnd res shared i) s

/-- Bytes of a run, lane by lane, into the grist (R303): a lane's slice from GOFF on. A byte written is no longer poisoned. -/
def gristWrite (k : Core) (goff : Nat) (act : Mask) (run : List Lanes) : Core :=
  (lanesOf act).foldl (fun (k : Core) j =>
    (List.range (4 * run.length)).foldl (fun (k : Core) b =>
      let v : Byte := BitVec.ofNat 8 ((lane (run.getD (b / 4) zeroLanes) j).toNat / 2 ^ (8 * (b % 4)))
      let p := gristPlace j (goff + b)
      { k with grist := k.grist.set p v, gristPoison := k.gristPoison.filter (fun q => q != p),
                crews := k.crews.map fun w => { w with gristOld := w.gristOld.filter fun e => e.1 != p } }) k) k

/-- The message of a peer add: the active rows of the sender's tile (R312). -/
def messageOf (s : State) (core : Nat) (w : Crew) (tile : Nat) (act : Mask) : List (Option Lanes) :=
  (List.range 32).map fun i => if act.getLsbD i then some (tileRow (tileAt s core w.slot tile) i) else none

/-- Change the entries of a tile's arming. -/
def modEntries (s : State) (core crew tile : Nat) (f : ArmEntry → ArmEntry) : State :=
  s.modCrew core crew fun w => { w with tiles := w.tiles.zipIdx.map fun (m, i) =>
    if i == tile then { m with arming := m.arming.map fun a => { a with entries := a.entries.map f } } else m }

/-- The Tun performs an operation whole, from where it stands. -/
def tunPerform (s : State) (core : Nat) (op : TunOp) : State :=
  match s.crew? core op.crew with
  | none => s
  | some w =>
    match op.kind with
    | .mma o => let (s1, o1) := mmaRun core w 16 (s, o); crewFlags s1 core w.slot o1.flags
    | .mzero t act =>
      let d := tileAt s core w.slot t
      let s1 := setTile s core w.slot t (Vector.ofFn fun i => if act.getLsbD i.val then zeroLanes else d[i])
      if act == BitVec.allOnes 32 then markTile s1 core w.slot t none else s1
    | .mdrain t act dst str fmt i32 rnd res row => { drainRows s core w t act dst str fmt i32 rnd res row 32 with free := s.free + 1 }
    | .mdrainp t act dcore dcrew dtile =>
      let m := messageOf s core w t act
      modEntries s dcore dcrew dtile fun e =>
        if e.core == core % 96 && e.crew == w.home && e.reserved == some op.id && !e.applied && e.msg.isNone then { e with msg := some m } else e
    | .marm _ => s
    | .mldb goff act run out =>
      (s.modCore core fun k => gristWrite k goff act run).modGroup core op.crew op.gid fun g => { g with outs := g.outs.filter fun o => o.id != out }

/-! ## Armings (R311 to R314) -/

/-- An entry satisfied, by its message or by a cancel. -/
def ArmEntry.satisfied (e : ArmEntry) : Bool := e.applied || e.cancelled

/-- An arming is complete (R311). -/
def Arming.complete (a : Arming) : Bool := a.entries.all ArmEntry.satisfied

/-- A crew's tile is armed and not complete. -/
def Crew.armedOpen (w : Crew) (t : Nat) : Bool :=
  match w.tiles[t]? with
  | some m => (match m.arming with | some a => !a.complete | none => false)
  | none => false

/-- What a sender finds at its destination (R312). -/
inductive Consult where
  | refuse | wait | accept
  deriving DecidableEq, Repr

/-- The destination state for a sender (R312). -/
def consult (s : State) (core slot part : Nat) (launch : Word) (tcore tcrew tile : Nat) : Consult :=
  match s.crew? (dieOf core * 96 + tcore) tcrew with
  | none => .refuse
  | some d =>
    if 95 < tcore || d.part != part || d.task.launch != launch || decide (d.task.acc ≤ tile) then .refuse
    else
      match (d.tiles[tile]?.bind fun m => m.arming).bind fun a => a.entries.find? fun e => e.core == core % 96 && e.crew == slot with
      | none => .wait
      | some e => if e.satisfied then .refuse else if e.reserved.isSome || d.halted then .wait else .accept

/-! ## Stops (R191, R317) -/

/-- An operation that a stop may keep: an mma with K left, and under a freeze a drain. All others complete (R317). -/
def TunKind.divisible (urgent : Bool) : TunKind → Bool
  | .mma o => decide (o.pos < o.k)
  | .mdrain .. => urgent
  | _ => false

/-- Run an mma in progress to its next stop boundary (R307). -/
def toBoundary (s : State) (core : Nat) (w : Crew) (o : Mma) : State × Mma :=
  let (c, _) := (pairing o.af o.bf).getD (4, false)
  if c == 64 && o.pos % 64 == 32 then mmaStep s core w o else (s, o)

/-- The operations of the core's queue that complete at a stop of a crew, and those behind them. What R317 completes, an mldb, mzero, marm or mdrainp of the crew,
comes after every earlier operation of the queue (R300, R312), so that those complete too; of what is behind the last of them the crew keeps its own, which are
mma and under a freeze drains. DEDUCED (log 56). -/
def splitOps (slot : Nat) (urgent : Bool) (ops : List TunOp) : List TunOp × List TunOp :=
  let n := (ops.reverse.takeWhile fun o => o.crew != slot || o.kind.divisible urgent).length
  (ops.take (ops.length - n), ops.drop (ops.length - n))

/-- The rows of a drain in progress up to where a freeze stops it, which is a free choice; those written are recorded (R317). -/
def freezeDrain (s : State) (core : Nat) (w : Crew) (op : TunOp) : State × TunOp :=
  match op.kind with
  | .mdrain t act dst str fmt i32 rnd res row =>
    let stop := row + (Config.freeDword s.free).toNat % (33 - row)
    ({ drainRows s core w t act dst str fmt i32 rnd res row stop with free := s.free + 1 }, { op with kind := .mdrain t act dst str fmt i32 rnd res stop })
  | _ => (s, op)

/-- The first of the operations kept, which may be in progress: an mma under an ordinary stop runs to its boundary, and a drain stops after a row (R191, R317). -/
def stopFirst (s : State) (core : Nat) (w : Crew) (urgent : Bool) : List TunOp → State × List TunOp
  | [] => (s, [])
  | op :: t =>
    match op.kind with
    | .mma o =>
      let (s1, o1) := if urgent then (s, o) else toBoundary s core w o
      if o1.k ≤ o1.pos then (crewFlags s1 core w.slot o1.flags, t) else (s1, { op with kind := .mma o1 } :: t)
    | _ => let (s1, op1) := freezeDrain s core w op; (s1, op1 :: t)

/-- A stop of a crew's operations: the state after what completes, with the queue that is left to the others, and what the crew keeps, in order. -/
def stopOps (core : Nat) (w : Crew) (urgent : Bool) (s : State) : State × List TunOp :=
  let (done, rest) := splitOps w.slot urgent (s.core core).tun
  let s1 := (done.foldl (fun s o => tunPerform s core o) s).modCore core fun k => { k with tun := rest.filter fun o => o.crew != w.slot }
  let kept := rest.filter fun o => o.crew == w.slot
  if (rest.head?.map (·.crew)) == some w.slot then stopFirst s1 core w urgent kept else (s1, kept)

/-- A stop of a crew's Tun work (R191): what is kept goes with the crew. -/
def stopTun (s : State) (core slot : Nat) (urgent : Bool) : State :=
  match s.crew? core slot with
  | none => s
  | some w =>
    let (s1, kept) := stopOps core w urgent s
    s1.modCrew core slot fun w => { w with cont := w.cont ++ kept }

/-- A resumed crew's Tun work comes before every later operation of the crew (R191), under new numbers of its core; what names the old ones follows: the
operations that an arming comes after, and those that a split's later words wait for. -/
def resumeTun (s : State) (core slot : Nat) : State :=
  match s.crew? core slot with
  | none => s
  | some w =>
    let n := (s.core core).tunNext
    let ops := w.cont.zipIdx.map fun (o, i) => { o with id := n + i, crew := slot }
    let name := fun (ids : List Nat) => (w.cont.zipIdx.filter fun x => ids.contains x.1.id).map fun x => n + x.2
    (s.modCore core fun k => { k with tun := k.tun ++ ops, tunNext := n + ops.length }).modCrew core slot fun w =>
      { w with
        cont := []
        tiles := w.tiles.map fun t => { t with arming := t.arming.map fun a => { a with after := n + (w.cont.filter fun o => decide (o.id < a.after)).length } }
        groups := w.groups.map fun g =>
          { g with splits := g.splits.map fun p => { p with tunPast := name p.tunPast }, stack := g.stack.map fun e => { e with tunPast := name e.tunPast } } }

/-! ## The Tun's events (R300, R307, R313, R315) -/

/-- A cut leaves 4 - c of every 4 chances (R63). -/
def cutLeaves (cut beat : Nat) : Bool := decide (beat % 4 < 4 - cut)

/-- CUT of a partition (R63). -/
def cutOf (s : State) (p : Nat) : Nat := bits (s.part p).pcfg0 1 0

/-- TUN_STEP: one step of the mma at the head of a core's Tun (R307), where the partition's cut leaves it this chance (R63). -/
def execTunStep (core : Nat) (s : State) : Out3 :=
  match (s.core core).tun with
  | op :: t =>
    (match op.kind, s.crew? core op.crew with
     | .mma o, some w =>
       if o.pos < o.k then
         if cutLeaves (cutOf s w.part) (s.core core).tunBeat then
           let (s1, o1) := mmaStep s core w o
           .next (s1.modCore core fun k => { k with tun := { op with kind := .mma o1 } :: t, tunBeat := k.tunBeat + 1 })
         else .next (s.modCore core fun k => { k with tunBeat := k.tunBeat + 1 })
       else .next s
     | _, _ => .next s)
  | [] => .next s

/-- TUN_OPERATION_DONE: the operation at the head is finished and leaves the queue (R300). -/
def execTunOperationDone (core : Nat) (s : State) : Out3 :=
  match (s.core core).tun with
  | op :: _ =>
    .next (killedEnds ((tunPerform s core op).modCore core fun k => { k with tun := k.tun.drop 1 }) core op.crew)
  | [] => .next s

/-- Ascending order of senders (R313). -/
def ArmEntry.le (a b : ArmEntry) : Bool := decide (a.core < b.core) || (a.core == b.core && decide (a.crew ≤ b.crew))

/-- Insert an entry in the order of senders. -/
def insertEntry (e : ArmEntry) : List ArmEntry → List ArmEntry
  | [] => [e]
  | x :: t => if e.le x then e :: x :: t else x :: insertEntry e t

/-- One element of a peer add (R313). -/
def addElem (f32 : Bool) (a b : Word) : Word × Byte :=
  if f32 then
    let r := sumRes .f32 .rne [FloatFmt.f32.val a.toNat, FloatFmt.f32.val b.toNat] false
    (BitVec.ofNat 32 r.bits, r.flags)
  else
    let t := a.toInt + b.toInt
    (BitVec.ofInt 32 t, flagIf (decide (t < intLo 32 true) || decide (intHi 32 true < t)) fIntOverflow)

/-- Add a message to a tile. -/
def addMessage (s : State) (core : Nat) (w : Crew) (tile : Nat) (f32 : Bool) (m : List (Option Lanes)) : State :=
  let old := tileAt s core w.slot tile
  let res : Nat → Nat → Word × Byte := fun i j =>
    match m.getD i none with
    | some r => addElem f32 (lane (tileRow old i) j) (lane r j)
    | none => (lane (tileRow old i) j, 0)
  let all : Vector (Vector (Word × Byte) 32) 32 := Vector.ofFn fun i => Vector.ofFn fun j => res i.val j.val
  let flags := all.toList.foldl (fun (a : Byte) r => r.toList.foldl (fun a e => a ||| e.2) a) 0
  crewFlags (setTile s core w.slot tile (all.map fun r => r.map (·.1))) core w.slot flags

/-- The splits of a sender that are parked for this tile take 0x2D when their entry is satisfied (R312). -/
def refuseParked (s : State) (core crew tile : Nat) (e : ArmEntry) : State :=
  let score := dieOf core * 96 + e.core
  match s.crew? score e.crew with
  | none => s
  | some w =>
    (w.groups.flatMap fun g => g.splits.filterMap fun p =>
        if p.parked == some (.target core crew tile) then some (g.gid, p.num) else none).foldl
      (fun s (gid, n) => takeTrap (s.modSplit ⟨score, e.crew, gid, n⟩ fun p => { p with parked := none }) score e.crew gid n 0x2D 0 0) s

/-- Apply the messages that are due, in the order of senders, until one is missing (R313). -/
def applyEntries (core crew tile : Nat) (f32 : Bool) : State → List ArmEntry → State
  | s, [] => s
  | s, e :: t =>
    if e.satisfied then applyEntries core crew tile f32 s t
    else match e.msg, s.crew? core crew with
      | some m, some w =>
        let s1 := addMessage s core w tile f32 m
        let s2 := modEntries s1 core crew tile fun x => if x.idx == e.idx then { x with applied := true, msg := none } else x
        let s3 := refuseParked s2 core crew tile e
        let s4 := match e.from_ with | some (p, _) => s3.freeScopes p | none => s3
        applyEntries core crew tile f32 s4 t
      | _, _ => s

/-- PEER_ADD_APPLY: the adds come after the operations accepted before the arming (R313). -/
def execPeerAddApply (core crew : Nat) (tile : BitVec 2) (s : State) : Out3 :=
  match s.crew? core crew with
  | none => .next s
  | some w =>
    match w.tiles[tile.toNat]?.bind fun m => m.arming with
    | none => .next s
    | some a =>
      if w.halted || (s.core core).tun.any (fun o => o.crew == crew && decide (o.id < a.after)) || !w.cont.isEmpty then .next s
      else .next (applyEntries core crew tile.toNat a.f32 s (a.entries.foldr insertEntry []))

/-- The oldest code-table load of a core completes: the idle bank is written and made current, and SEQ advances (R208, R315). -/
def ctabDone (s : State) (core : Nat) : State :=
  match (s.core core).ctabPend with
  | [] => s
  | (crew, gid, es) :: t =>
    (s.modCore core fun k =>
      { k with ctabPend := t, bankSel := !k.bankSel, bank0 := if k.bankSel then es else k.bank0, bank1 := if k.bankSel then k.bank1 else es }).modGroup
      core crew gid fun g => { g with seq := g.seq + 1 }

/-- Every load of the code table that is under way on a core completes (R315). -/
def tablesDone (s : State) (core : Nat) : State := (List.range (s.core core).ctabPend.length).foldl (fun s _ => ctabDone s core) s

/-- CTAB_DONE (R315). -/
def execCtabDone (core : Nat) (s : State) : Out3 :=
  match (s.core core).ctabPend with
  | [] => .next s
  | (crew, _, _) :: _ => .next (killedEnds (ctabDone s core) core crew)

/-- The current bank (R208). -/
def Core.bank (k : Core) : List (BitVec 16) := if k.bankSel then k.bank1 else k.bank0

/-- Grist places of a set of bands (R142). -/
def inBands (b : BitVec 64) (place : Nat) : Bool := b.getLsbD (place / 131072)

/-! ## The spill area (R57, R60, R103, R180, R189) -/

/-- Bytes of a crew's spilled scratchpad and M rows; the layout is not architected (log 27). -/
def Crew.spillBytes (w : Crew) : Nat := w.task.spad * 1024 + w.task.units * 4096

/-- Bytes of its storage that others have claimed, and that lie spilled (R60). -/
def Crew.lostBytes (w : Crew) : Nat := 4096 * (w.task.units - w.rows.length) + if w.blocks.length < w.task.spad then w.task.spad * 1024 else 0

/-- Some of its storage has been claimed. -/
def Crew.lacking (w : Crew) : Bool := decide (w.rows.length < w.task.units) || decide (w.blocks.length < w.task.spad)

/-- Bytes of the grist bands that a crew has written (R142). -/
def Crew.bandBytes (w : Crew) : Nat := 131072 * popcount w.bands

/-- Bytes of the spill images of a crew's tiles (R190). -/
def Crew.tileBytes (w : Crew) : Nat := 4096 * (w.tiles.filter fun t => t.saved.isSome).length

/-- Bytes of a partition's spill area in use: images of tiles, claimed storage, spilled bands, saved crews. -/
def spillUse (s : State) (p : Nat) : Nat :=
  (s.allCrews.filter fun x => x.2.part == p).foldl (fun n (_, w) =>
    n + w.tileBytes + (if w.halted then w.lostBytes else 0) + if w.savedGrist.isSome then w.bandBytes else 0) 0
  + (List.range 8).foldl (fun n d => ((s.die d).queue.filter fun q => q.part == p).foldl (fun n q =>
      match q.saved with | some w => n + w.tileBytes + w.spillBytes + w.bandBytes | none => n) n) 0

/-- The system frame of a partition (R57). -/
def sysFrame (s : State) (p : Nat) : Nat := bits (s.part p).pcfg1 63 54

/-- Why n more bytes cannot be spilled: 0x99 where the area is not owned, 0x98 where it is full (R57, R180). -/
def spillCause (s : State) (p n : Nat) : Option Byte :=
  if !s.ownsFrame p (sysFrame s p * 2 ^ 30) then some 0x99
  else if 2 ^ 30 - 2 ^ 26 - 1024 < spillUse s p + n then some 0x98 else none

/-- A crew that cannot be spilled takes the save-and-resume cause, by its first live group (R180). -/
def refuseSpill (s : State) (core slot : Nat) (cause : Byte) : State :=
  match (s.crew? core slot).bind fun w => w.groups.find? fun g => g.live with
  | some g => unhandled s core slot g.gid cause 0
  | none => s

/-- n bytes of a crew are spilled, where its partition's area takes them. -/
def spillCrew (s : State) (core slot n : Nat) (f : Crew → Crew) : State :=
  match s.crew? core slot with
  | none => s
  | some w =>
    match spillCause s w.part n with
    | none => s.modCrew core slot f
    | some c => refuseSpill s core slot c

/-! ## Change of partition (R59, R208) -/

/-- The bytes of a crew's bands, and their poisoned places. -/
def Core.bandsOfCrew (k : Core) (w : Crew) : Memory × List Nat := (k.grist.filter fun c => inBands w.bands c.1, k.gristPoison.filter (inBands w.bands))

/-- The grist is zeroed for a crew of another partition; the bands that crews of the old one have written are spilled first (R57, R59). -/
def claimGrist (s : State) (core part : Nat) : State :=
  let k := s.core core
  if k.gristPart == part then s
  else
    ((k.crews.filter fun w => w.part == k.gristPart && w.bands != 0 && w.savedGrist.isNone).foldl
      (fun s w => spillCrew s core w.slot w.bandBytes fun x => { x with savedGrist := some (k.bandsOfCrew x) }) s).modCore core
      fun k => { k with gristPart := part, gristPoison := [], grist := [], crews := k.crews.map fun w => { w with gristOld := [] } }

/-- Both banks are zeroed for a crew of another partition, and bank 0 is current; those that crews of the old one have used are kept with them (R208, R189).
Loads of the table that are under way complete before. -/
def claimBanks (s : State) (core part : Nat) : State :=
  if (s.core core).bankPart == part then s
  else (tablesDone s core).modCore core fun k =>
    { k with
      bankPart := part, bank0 := zeroBank, bank1 := zeroBank, bankSel := false,
      crews := k.crews.map fun w =>
        if w.usedCtab && w.part == k.bankPart && w.savedBanks.isNone then { w with savedBanks := some (k.bank0, k.bank1, k.bankSel) } else w }

end Sys2Proof.Machine
end

