-- ==== Sys2Proof/Machine/Matrix.lean ====
section
/-!
DEFINITION. Matrix words: majors 0x22, 0x23, 0x24 and functions 0 to 2 of major 0x26 (16; format blocks 11 R209, R210).
-/
namespace Sys2Proof.Machine

/-! ## Operands (R299, R301, R304, R309) -/

/-- An accumulator. -/
def accCode : Operand → Option Byte
  | .acc _ => none
  | _ => some 0x10

/-- The index of an accumulator. -/
def accIdx : Operand → Nat
  | .acc i => i.toNat
  | _ => 0

/-- The first register of an M run; another level takes 0x10. -/
def runCode (c : Ctx) : Operand → Option Byte
  | .m i => codeIf (!opPresent c.l c.regs (.m i)) 0x10
  | _ => some 0x10

/-- The index of an M register. -/
def mIdx : Operand → Nat
  | .m i => i.toNat
  | _ => 0

/-- s0 to s63 or an inline constant; any other operand takes 0x10. -/
def srcSC : Operand → Option Byte
  | .s _ => none
  | .const _ => none
  | _ => some 0x10

/-- s0 to s63, a special or an inline constant; a reserved index of that class takes 0x11 (R217, R228), any other operand 0x10. -/
def srcSPC : Operand → Option Byte
  | .s _ => none
  | .special _ => none
  | .const _ => none
  | .resLow _ => some 0x11
  | .resHigh _ => some 0x11
  | _ => some 0x10

/-- act of a matrix word: the split's mask and the mask of MOD[11:9] (R299). -/
def rowMask (s : State) (c : Ctx) (mod : BitVec 12) : Mask := actOf s c (mod.extractLsb' 9 3)

/-! ## Scratchpad ranges -/

/-- The fault of the bytes a to a+n-1 of the crew's scratchpad, an access of an alignment having been judged before (R140): bounds, then protection. -/
def spadRange (w : Crew) (a n : Nat) : Option Byte :=
  if w.spadBytes < a + n then some 0x43 else if 2 ≤ w.task.spad ∧ w.spadBytes < a + n + 2048 then some 0x41 else none

/-- A poisoned word of the crew's scratchpad in a range. -/
def spadPoisoned (w : Crew) (a n : Nat) : Bool := w.spadPoison.any fun p => decide (a < 4 * p + 4) && decide (4 * p < a + n)

/-! ## mlda and mldb (R301 to R303) -/

/-- STRIDE and LEN of a shape word. -/
def shapeStride (v : Dword) : Nat := bits v 35 16
def shapeLen (v : Dword) : Nat := bits v 8 0

/-- A shape word that takes 0x14: bytes is e of mlda, and none is mldb. -/
def shapeBad (v : Dword) (e : Option Nat) : Bool :=
  bits v 63 36 != 0 || bits v 15 9 != 0 || shapeLen v == 0 || decide (256 < shapeLen v)
    || (match e with | none => shapeStride v != 0 | some e => shapeLen v * e % 4 != 0)

/-- The bytes of an element of mlda. -/
def mldaSize (f : MWord) : Nat := if f.size == .b16 then 2 else 1

/-- Codes of the matrix loads. n is the number of registers of the run. -/
def mloadCodes (s : State) (c : Ctx) (f : MWord) (e : Option Nat) : List (Option Byte) :=
  let v := sval s c 2 f.idx
  let n := match e with | some e => shapeLen v * e / 4 | none => shapeLen v
  let ok := (srcSReg f.idx).isNone
  [runCode c f.d, srcSPC f.base, srcSReg f.idx, codeIf (f.size == .b32 || f.size == .b64) 0x14, codeIf (ok && shapeBad v e) 0x14,
   codeIf (ok && (runCode c f.d).isNone && decide (32 * c.regs < mIdx f.d + n)) 0x15]

/-- The address of element k of a lane, an unbounded number (R6, R302). -/
def mldaAddr (t : Bool) (a0 e str l k : Nat) : Nat := if t then a0 + k * str + l * e else a0 + l * str + k * e

/-- The first fault of mlda (R302): lane by lane, and in a lane bounds, misalignment, the copy ring. -/
def mldaFault (c : Ctx) (t : Bool) (a0 e str len : Nat) : Option (Byte × Nat × Nat) :=
  (lanesOf c.sp.mask).findSome? fun l =>
    let as := (List.range len).map fun k => mldaAddr t a0 e str l k
    match as.find? fun a => spadRange c.crew a e == some 0x43 with
    | some a => some (0x43, l, a)
    | none =>
      if a0 % e != 0 || str % e != 0 then some (0x42, l, as.headD 0)
      else (as.find? fun a => spadRange c.crew a e == some 0x41).map fun a => (0x41, l, a)

/-- mlda and mlda.t. -/
def mldaWord (t : Bool) (f : MWord) (s : State) : Out3 :=
  let e := mldaSize f
  runWord s .plain (fun c => mloadCodes s c f (some e)) fun c =>
    let w := accessWaits c false false false
    if !w.isEmpty then .park (.release w)
    else
      let v := sval s c 2 f.idx
      let a0 := (sval s c 1 f.base + f.off.signExtend 64).toNat
      let str := shapeStride v
      let len := shapeLen v
      match mldaFault c t a0 e str len with
      | some (code, l, a) => .trap code l (BitVec.ofNat 64 a)
      | none =>
        let poisoned := (lanesOf c.sp.mask).findSome? fun l =>
          ((List.range len).map fun k => mldaAddr t a0 e str l k).findSome? fun a => if spadPoisoned c.crew a e then some (l, a) else none
        match poisoned with
        | some (l, a) => trapPoison s c 0x45 (.spad c.r.core c.r.crew a) l (BitVec.ofNat 64 a)
        | none =>
          let per := 4 / e
          let reg := fun (r : Nat) => ofLanes fun l =>
            BitVec.ofNat 32 ((List.range per).foldl (fun n q =>
              n + leNat (c.crew.spadRead (mldaAddr t a0 e str l (r * per + q)) e) * 2 ^ (8 * e * q)) 0)
          let dests := (List.range (len * e / 4)).map fun r => (Reg.m (mIdx f.d + r), Val.vec (reg r))
          .ok (addOut (complete s c [] 0 .t2) c (newOut c .load c.sp.mask dests none [] e false (dstReg f.d)))

/-- mlda (R302). -/
def execMlda (f : MWord) (s : State) : Out3 := mldaWord false f s
/-- mlda.t (R302). -/
def execMldaT (f : MWord) (s : State) : Out3 := mldaWord true f s

/-- Accept an operation into the core's Tun (R300). -/
def accept (s : State) (c : Ctx) (k : TunKind) : State :=
  s.modCore c.r.core fun x => { x with tun := x.tun ++ [⟨x.tunNext, c.r.crew, c.r.gid, c.r.split, k⟩], tunNext := x.tunNext + 1 }

/-- The bands of grist that bytes GOFF on lie in (R142). -/
def bandsOf (goff n : Nat) : BitVec 64 :=
  BitVec.ofNat 64 ((List.range 64).foldl (fun a b => a + bit (decide (goff < 4096 * b + 4096) && decide (4096 * b < goff + n)) * 2 ^ b) 0)

/-- mldb: the run is read now, and written to the grist in the order of acceptance (R303). -/
def execMldb (f : MWord) (s : State) : Out3 :=
  runWord s .plain (fun c => mloadCodes s c f none) fun c =>
    let n := shapeLen (sval s c 2 f.idx)
    let goff := (sval s c 1 f.base + f.off.signExtend 64).toNat
    let waits := accessWaits c true false false
    if goff % 4 != 0 || decide (0x40000 < goff + 4 * n) then .trap 0x2E 0 0
    else if !waits.isEmpty then .park (.release waits)
    else if gristBusy s c.r.core c.crew.part then .park .grist
    else
      let run := (List.range n).map fun r => readLanes s c 0 (.m (mIdx f.d + r))
      let t := accept (claimGrist (complete s c [] 0 .t2) c.r.core c.crew.part) c (.mldb goff c.sp.mask run s.nextId)
      let t := t.modCrew c.r.core c.r.crew fun w => { w with bands := w.bands ||| bandsOf goff (4 * n) }
      .ok (addOut t c (newOut c .mx c.sp.mask [] none [] 4 false none))

/-! ## What the words of majors 0x23 and 0x24 share -/

/-- A group of non-zero STAGE takes 0x28; a stage-0 group whose crew does not own the paddle asks for it and is parked until the grant (R108). What comes
after is judged with the paddle held. -/
def withPaddle (s : State) (c : Ctx) (k : State → Res) : Res :=
  if c.crew.stage c.r.gid != 0 then .trap 0x28 0 0
  else
    let s1 := s.modCore c.r.core fun x => x.askPaddle c.r.crew
    if (s1.core c.r.core).paddle != some c.r.crew then .ok (s1.modSplit c.r fun p => { p with parked := some .paddle })
    else match k s1 with
      | .trap code l a => .ok (takeTrap s1 c.r.core c.r.crew c.r.gid c.r.split code l a)
      | .park p => .ok (endIfWaits (s1.modSplit c.r fun q => { q with parked := some p }) c.r.core c.r.crew c.r.gid)
      | .ok t => .ok t

/-- The Tun holds four accepted words (R300). -/
def tunFull (k : Core) : Bool := decide (4 ≤ (k.tun.filter fun o => match o.kind with | .mldb .. => false | _ => true).length)

/-- The crew's context owns the tile (R190, R299). -/
def ownsTile (s : State) (c : Ctx) (t : Nat) : Bool := (s.core c.r.core).owns c.crew t

/-- The poison of a tile's contents, wherever they lie (R192). -/
def tilePoison (s : State) (c : Ctx) (t : Nat) : Option Nat :=
  if ownsTile s c t then ((s.core c.r.core).tiles.getD (c.crew.phys t) PhysTile.reset).poison
  else match c.crew.tiles[t]? with | some m => m.poison | none => none

/-- After a word's own causes: poison for a word that reads the tile, the owner, an arming that is open, room in the Tun (R192, R299, R300, R311). -/
def onTile (s : State) (c : Ctx) (t : Nat) (reads : Bool) (k : Res) : Res :=
  match (if reads then tilePoison s c t else none) with
  | some p => .trap 0x93 0 (BitVec.ofNat 64 p)
  | none =>
    if !ownsTile s c t then .trap 0x38 t 0
    else if c.crew.armedOpen t then .park (.arming t)
    else if tunFull (s.core c.r.core) then .park .tunFull
    else k

/-! ## mma (R304 to R306) -/

/-- Fields of a descriptor word (R209). -/
def descEf (d : Dword) : Fmt := d.setWidth 4
def descBlk (d : Dword) : Nat := bits d 7 4
def descSuper (d : Dword) : Nat := bits d 31 13
def descScale (d : Dword) : Nat := bits d 50 32

/-- A descriptor that takes 0x2A (R210); quant says whether the operand may be HQ4 or TQ4. DESIGN CHOICE (log 82): operand A with one of those takes 0x2A, as a format
that the operand may not have, and not 0x2B; R210 leaves it open. -/
def descBad (d0 d1 : Dword) (quant : Bool) : Bool :=
  let f := descEf d0
  bits d0 63 51 != 0 || bits d0 12 8 != 0 || d1 != 0
    || (if Fmt.quant f then !quant || descBlk d0 != 6
        else !(f == 1 || f == 2 || f == 3 || f == 4 || f == 7 || f == 10) || descBlk d0 != 0 || descSuper d0 != 0 || descScale d0 != 0)

/-- The format block: its four words, or what the read of it comes to (R209). -/
inductive BlockRes where
  | ok (ws : List Dword) (s : State)
  | stop (r : Res)
  deriving DecidableEq, Repr

/-- Read the format block through the constant cache; its faults are those of constant space (R209, R305). -/
def readBlock (s : State) (c : Ctx) (a : Dword) : BlockRes :=
  let as := (List.range 4).map fun i => ((0 : Nat), a + BitVec.ofNat 64 (8 * i))
  if bits a 63 57 != 0 then .stop (.trap 0x6B 0 a)
  else if a.toNat % 32 != 0 then .stop (.trap 0x6A 0 a)
  else match checkLanes s c .const 8 false as with
    | .err code l x => .stop (.trap code l x)
    | .stale l x => .stop (rejectLoad s c .const l x)
    | .ask _ _ => .stop (.trap 0x68 0 a)
    | .ok ls =>
      match poisonedLane s 8 as ls with
      | some (l, x, loc) => .stop (trapPoison s c 0x6D loc l x)
      | none => .ok ((as.zip ls).map fun ((_, x), (_, loc)) => match loc with | .dev pa => BitVec.ofNat 64 (constRead s c 8 x pa) | _ => 0) (constFill s c as ls)

/-- The fault of the scale arrays (R210): bounds, misalignment, the copy ring, poison. -/
def scaleFault (w : Crew) (d0 : Dword) (k : Nat) : Option (Byte × Nat) :=
  let sc := descScale d0
  let su := descSuper d0
  let n := 32 * (k / 64)
  if spadRange w sc n == some 0x43 then some (0x43, sc) else if spadRange w su 128 == some 0x43 then some (0x43, su)
  else if su % 4 != 0 then some (0x42, su)
  else if spadRange w sc n == some 0x41 then some (0x41, sc) else if spadRange w su 128 == some 0x41 then some (0x41, su)
  else if spadPoisoned w sc n then some (0x45, sc) else if spadPoisoned w su 128 then some (0x45, su) else none

/-- The checks that depend on the format block, in R305's order from step 5 on. -/
def blockChecks (s : State) (c : Ctx) (f : RWord) (k : Nat) (ws : List Dword) : Option (Byte × Nat) :=
  let a0 := ws.getD 0 0
  let b0 := ws.getD 2 0
  let ea := descEf a0
  let eb := descEf b0
  let goff := (sval s c 3 f.c).toNat
  if (ea == 12 || eb == 12) && !(capOf s c.crew.part 2).getLsbD 2 then some (0x0E, 0)
  else if (match fmtBits ea with | some w => decide (1024 * c.regs + 32 ≤ 32 * mIdx f.a + k * w) | none => false) then some (0x15, 0)
  else if descBad a0 (ws.getD 1 0) false || descBad b0 (ws.getD 3 0) true then some (0x2A, 0)
  else match pairing ea eb with
    | none => some (0x2B, 0)
    | some (w, _) =>
      if k % w != 0 then some (0x2C, 0)
      else if goff % 4 != 0 || decide (0x40000 < goff + k * (fmtBits eb).getD 8 / 8) then some (0x2E, 0)
      else if Fmt.quant eb then scaleFault c.crew b0 k else none

/-- The operation with its copies (R306). -/
def mmaOp (s : State) (c : Ctx) (f : RWord) (z : Bool) (k : Nat) (ws : List Dword) : Mma :=
  let b0 := ws.getD 2 0
  let q := Fmt.quant (descEf b0)
  { z := z, tile := accIdx f.d, act := rowMask s c f.mod, k := k, af := descEf (ws.getD 0 0), bf := descEf b0,
    a := (List.range (ceilDiv (k * (fmtBits (descEf (ws.getD 0 0))).getD 8) 32)).map fun r => readLanes s c 1 (.m (mIdx f.a + r)),
    bscale := if q then (List.range (k / 64)).map fun b => c.crew.spadRead (descScale b0 + 32 * b) 32 else [],
    bg := if q then (List.range 32).map fun j => BitVec.ofNat 32 (leNat (c.crew.spadRead (descSuper b0 + 4 * j) 4)) else [],
    bank := if descEf b0 == 12 then (s.core c.r.core).bank else [], goff := (sval s c 3 f.c).toNat, pos := 0, flags := 0 }

/-- A tile's accumulator index at or above ACC takes 0x29 (R299). -/
def accBad (c : Ctx) (o : Operand) : Bool := decide (c.crew.task.acc ≤ accIdx o)

/-- mma and mma.z. -/
def mmaWord (z : Bool) (f : RWord) (s : State) : Out3 :=
  runWord s .commit (fun c => [accCode f.d, runCode c f.a, srcSReg f.b, srcSC f.c]) fun c =>
    let w := accessWaits c false false false
    if !w.isEmpty then .park (.release w)
    else withPaddle s c fun s1 =>
      let k := bits f.mod 8 0
      if accBad c f.d then .trap 0x29 0 0
      else if k == 0 || decide (256 < k) then .trap 0x2C 0 0
      else match readBlock s1 c (sval s1 c 2 f.b) with
        | .stop r => r
        | .ok ws s2 =>
          match blockChecks s2 c f k ws with
          | some (code, a) =>
            if code == 0x45 then trapPoison s2 c 0x45 (.spad c.r.core c.r.crew a) 0 (BitVec.ofNat 64 a) else .trap code 0 (BitVec.ofNat 64 a)
          | none =>
            let t := accIdx f.d
            let reads := !(z && rowMask s2 c f.mod == BitVec.allOnes 32)
            onTile s2 c t reads
              (if gristBusy s2 c.r.core c.crew.part then .park .grist else
               let s3 := claimGrist (if descEf (ws.getD 2 0) == 12 then claimBanks s2 c.r.core c.crew.part else s2) c.r.core c.crew.part
               .ok (accept (commit s3 c [] .t2) c (.mma (mmaOp s3 c f z k ws))))

/-- mma (R304 to R306). -/
def execMma (f : RWord) (s : State) : Out3 := mmaWord false f s
/-- mma.z (R304 to R306). -/
def execMmaZ (f : RWord) (s : State) : Out3 := mmaWord true f s

/-! ## Accumulator words (R308 to R314) -/

/-- mzero (R308). -/
def execMzero (f : RWord) (s : State) : Out3 :=
  runWord s .commit (fun _ => [accCode f.d]) fun c => withPaddle s c fun s1 =>
    if accBad c f.d then .trap 0x29 0 0
    else onTile s1 c (accIdx f.d) false (.ok (accept (commit s1 c [] .t2) c (.mzero (accIdx f.d) (rowMask s1 c f.mod))))

/-- The combinations of mdrain (R309). -/
def drainOk (i32 : Bool) (fmt : Fmt) (rnd : Nat) : Bool :=
  if i32 then
    (match fmt.toNat with | 5 => rnd == 0 | 6 => rnd == 0 | 7 => rnd == 0 | 0 => decide (rnd ≤ 3) | _ => false)
  else
    (match fmt.toNat with | 0 => rnd == 0 | 1 => decide (rnd ≤ 4) | 2 => decide (rnd ≤ 4) | 3 => decide (rnd ≤ 4) | 4 => decide (rnd ≤ 4) | _ => false)

/-- The first fault of a drain's addresses (R310): row by row, and in a row bounds, misalignment, the copy ring, element by element. The addresses are unbounded
numbers (R6). DST, STR and R are judged for their alignment with no row active too. -/
def drainFault (w : Crew) (act : Mask) (dst str e : Nat) (res : Option Nat) : Option (Byte × Nat × Nat) :=
  let odd := fun (i : Nat) =>
    if dst % e != 0 || str % e != 0 then some ((0x42 : Byte), i, dst + i * str)
    else match res with | some r => if r % 4 != 0 then some (0x42, i, r + 128 * i) else none | none => none
  if act == 0 then odd 0
  else (lanesOf act).findSome? fun i =>
    let rs := (List.range 32).map (fun j => (dst + i * str + j * e, e))
      ++ (match res with | some r => (List.range 32).map fun j => (r + 128 * i + 4 * j, 4) | none => [])
    match rs.find? fun x => spadRange w x.1 x.2 == some 0x43 with
    | some x => some (0x43, i, x.1)
    | none => (odd i).or ((rs.find? fun x => spadRange w x.1 x.2 == some 0x41).map fun x => (0x41, i, x.1))

/-- The lowest row whose residue is poisoned (R192). -/
def residuePoison (w : Crew) (act : Mask) : Option Nat → Option (Nat × Nat)
  | none => none
  | some r => (lanesOf act).findSome? fun i => if spadPoisoned w (r + 128 * i) 128 then some (i, r + 128 * i) else none

/-- mdrain, a commit only with .ef (R309, R310). -/
def execMdrain (f : RWord) (s : State) : Out3 :=
  let rnd := f.mod.extractLsb' 6 3
  let ef := rnd == 4
  let fmt : Fmt := f.mod.extractLsb' 2 4
  let i32 := f.mod.getLsbD 1
  runWord s (if ef then .commit else .plain)
    (fun _ => [if ef then srcSReg f.d else none, accCode f.a, srcSPC f.b, srcSC f.c, codeIf (!drainOk i32 fmt rnd.toNat) 0x14]) fun c =>
    let w := accessWaits c true false false
    if !w.isEmpty then .park (.release w)
    else withPaddle s c fun s1 =>
      if accBad c f.a then .trap 0x29 0 0
      else
        let act := rowMask s1 c f.mod
        let dst := (sval s1 c 2 f.b).toNat
        let str := (sval s1 c 3 f.c).toNat
        let res := if ef then some (sval s1 c 0 f.d).toNat else none
        match drainFault c.crew act dst str ((fmtBits fmt).getD 32 / 8) res with
        | some (code, i, a) => .trap code i (BitVec.ofNat 64 a)
        | none =>
          match residuePoison c.crew act res with
          | some (i, a) => trapPoison s1 c 0x45 (.spad c.r.core c.r.crew a) i (BitVec.ofNat 64 a)
          | none =>
            onTile s1 c (accIdx f.a) true
              (.ok (accept (if ef then commit s1 c [] .t2 else complete s1 c [] 0 .t2) c (.mdrain (accIdx f.a) act dst str fmt i32 rnd res 0)))

/-- A sender list that takes 0x14 (R311). -/
def senderBad (core : Nat) (v : Dword) : Bool :=
  let e := fun (n : Nat) => bits v (16 * n + 15) (16 * n)
  let on := fun (n : Nat) => decide (32768 ≤ e n)
  let us := (List.range 4).filter on
  us.isEmpty || (List.range 4).any (fun n => !on n && e n != 0) || us.any (fun n => bits v (16 * n + 14) (16 * n + 12) != 0)
    || us.any (fun n => decide (95 < e n % 128) || e n % 128 == core % 96) || (us.map e).eraseDups.length != us.length

/-- The entries of a sender list (R311). -/
def sendersOf (v : Dword) : List ArmEntry :=
  ((List.range 4).filter fun n => v.getLsbD (16 * n + 15)).map fun n =>
    { core := bits v (16 * n + 6) (16 * n), crew := bits v (16 * n + 11) (16 * n + 7), idx := n, reserved := none, from_ := none, msg := none,
      applied := false, cancelled := false }

/-- marm (R311). -/
def execMarm (f : RWord) (s : State) : Out3 :=
  runWord s .commit (fun c => [accCode f.d, srcSReg f.a, codeIf ((srcSReg f.a).isNone && senderBad c.r.core (sval s c 1 f.a)) 0x14]) fun c =>
    withPaddle s c fun s1 =>
      let t := accIdx f.d
      if accBad c f.d then .trap 0x29 0 0
      else onTile s1 c t false
        (let n := (s1.core c.r.core).tunNext
         let a : Arming := { f32 := !f.mod.getLsbD 1, entries := sendersOf (sval s1 c 1 f.a), after := n }
         .ok ((accept (commit s1 c [] .t2) c (.marm t)).modCrew c.r.core c.r.crew fun w =>
           { w with tiles := w.tiles.zipIdx.map fun (m, i) => if i == t then { m with arming := some a } else m }))

/-- mdrainp: its destination is consulted before it is accepted (R312). -/
def execMdrainp (f : RWord) (s : State) : Out3 :=
  runWord s .commit (fun c => [accCode f.a, srcSReg f.b, codeIf ((srcSReg f.b).isNone && bits (sval s c 2 f.b) 63 14 != 0) 0x14]) fun c =>
    withPaddle s c fun s1 =>
      let v := sval s1 c 2 f.b
      let tcore := bits v 6 0
      let tcrew := bits v 11 7
      let tile := bits v 13 12
      let dcore := dieOf c.r.core * 96 + tcore
      if accBad c f.a then .trap 0x29 0 0
      else match consult s1 c.r.core c.r.crew c.crew.part c.crew.task.launch tcore tcrew tile with
        | .refuse => .trap 0x2D 0 0
        | .wait => .park (.target dcore tcrew tile)
        | .accept =>
          let w := accessWaits c true false false
          if !w.isEmpty then .park (.release w)
          else onTile s1 c (accIdx f.a) true
            (let n := (s1.core c.r.core).tunNext
             let t := accept (commit s1 c [] .t2) c (.mdrainp (accIdx f.a) (rowMask s1 c f.mod) dcore tcrew tile)
             .ok (modEntries t dcore tcrew tile fun e =>
               if e.core == c.r.core % 96 && e.crew == c.r.crew && !e.satisfied then
                 { e with reserved := some n, from_ := some (c.crew.part, c.crew.task.scopeId) } else e))

/-- The arming status (R314). -/
def armStatus (w : Crew) (t : Nat) : Dword :=
  match w.tiles[t]?.bind fun m => m.arming with
  | none => 0
  | some a =>
    let sum := fun (p : ArmEntry → Bool) => a.entries.foldl (fun n e => n + bit (p e) * 2 ^ e.idx) 0
    BitVec.ofNat 64 (sum (fun e => e.cancelled) * 2 ^ 16 + sum (fun e => e.applied) * 2 ^ 12 + sum (fun _ => true) * 2 ^ 8 + bit (!a.complete))

/-- mstat (R314). -/
def execMstat (f : RWord) (s : State) : Out3 :=
  runWord s .plain (fun c => [dstMstat c f.d, accCode f.a]) fun c =>
    if accBad c f.a then .trap 0x29 0 0 else .ok (complete s c (wrScalar f.d (armStatus c.crew (accIdx f.a))) 0 .t2)

/-! ## ctab, msave and mrest (R315, R316) -/

/-- The fault of a range of the scratchpad that starts at an aligned address (R315). -/
def alignedRange (w : Crew) (a : Dword) (al n : Nat) : Option Byte :=
  if w.spadBytes < a.toNat + n then some 0x43 else if a.toNat % al != 0 then some 0x42 else spadRange w a.toNat n

/-- ctab: the entries are read now; the bank is made current later (R315, R208). -/
def execCtab (f : RWord) (s : State) : Out3 :=
  runWord s ⟨some 2, true, false⟩ (fun _ => [srcSReg f.a]) fun c =>
    let a := sval s c 1 f.a
    match alignedRange c.crew a 32 32 with
    | some code => .trap code 0 a
    | none =>
      if spadPoisoned c.crew a.toNat 32 then trapPoison s c 0x45 (.spad c.r.core c.r.crew a.toNat) 0 a
      else
        let w := accessWaits c false false false
        if !w.isEmpty then .park (.release w)
        else
          let es := (List.range 16).map fun q => (BitVec.ofNat 16 (leNat (c.crew.spadRead (a.toNat + 2 * q) 2)) : BitVec 16)
          let s1 := claimBanks s c.r.core c.crew.part
          let t := completeWith s1 c [] 0 .t1 fun p => { p.next with closed := true }
          .ok ((t.modCore c.r.core fun k => { k with ctabPend := k.ctabPend ++ [(c.r.crew, c.r.gid, es)] }).modCrew c.r.core c.r.crew fun w =>
            { w with usedCtab := true })

/-- The body of a freeze image, bytes 0x40 to the end: opaque, named by a number (R191). -/
def imageBody (n : Nat) : List Byte := (List.range (24576 - 64)).map fun i => Config.freezeByte n i

/-- A freeze image (R191). -/
def freezeImage (part n : Nat) : List Byte :=
  leBytes 2 1 ++ leBytes 2 384 ++ leBytes 4 0 ++ leBytes 1 part ++ leBytes 7 0 ++ leBytes 4 (Config.freezeCrc (imageBody n)).toNat ++ leBytes 44 0 ++ imageBody n

/-- msave: the crew's unfinished operations are frozen, and their work exists in the image alone (R316). -/
def execMsave (f : RWord) (s : State) : Out3 :=
  runWord s .commit (fun _ => [srcSReg f.a]) fun c => withPaddle s c fun s1 =>
    let a := sval s1 c 1 f.a
    match alignedRange c.crew a 64 24576 with
    | some code => .trap code 0 a
    | none =>
      let w := accessWaits c true false false
      if !w.isEmpty then .park (.release w)
      else if tunFull (s1.core c.r.core) then .park .tunFull
      else
        let n := s1.nextId
        let (s2, kept) := stopOps c.r.core c.crew true (commit s1 c [] .t1)
        let s4 := unpoison (s2.modCrew c.r.core c.r.crew fun w => { w with spad := w.spad.putBytes a.toNat (freezeImage c.crew.part n) }) 24576
          [(0, .spad c.r.core c.r.crew a.toNat)]
        .ok { s4 with frozen := s4.frozen ++ [(n, kept)], nextId := n + 1 }

/-- The tile that an operation names. -/
def TunKind.tile : TunKind → Option Nat
  | .mma o => some o.tile
  | .mzero t _ => some t
  | .mdrain t .. => some t
  | .mdrainp t .. => some t
  | .marm t => some t
  | .mldb .. => none

/-- The work that an image's body records: that of the msave that wrote it; another body's work is not architected, and none is taken (log 17). -/
def imageWork (s : State) (body : List Byte) : List TunOp :=
  match s.frozen.find? fun e => imageBody e.1 == body with
  | some e => e.2
  | none => []

/-- The check of an image's header (R191, R316): 0x2F. A reserved byte that is not zero refuses the image too. DESIGN CHOICE (log 77): R5 lets it not be
ignored, and R191 states no consequence. -/
def imageBad (part : Nat) (h body : List Byte) : Bool :=
  leNat (h.take 2) != 1 || leNat ((h.drop 4).take 4) != 0 || leNat ((h.drop 9).take 7) != 0 || leNat ((h.drop 20).take 44) != 0 || leNat ((h.drop 8).take 1) != part || BitVec.ofNat 32 (leNat ((h.drop 16).take 4)) != Config.freezeCrc body

/-- mrest: read once the crew's earlier operations are done; its operations go before every later one of the crew (R316). -/
def execMrest (f : RWord) (s : State) : Out3 :=
  runWord s .commit (fun _ => [srcSReg f.a]) fun c => withPaddle s c fun s1 =>
    let a := sval s1 c 1 f.a
    match alignedRange c.crew a 64 24576 with
    | some code => .trap code 0 a
    | none =>
      match ((s1.core c.r.core).tun.filter fun o => o.crew == c.r.crew).getLast? with
      | some o => .park (.tun (o.id + 1))
      | none =>
        let w := accessWaits c false false false
        if !w.isEmpty then .park (.release w)
        else if spadPoisoned c.crew a.toNat 24576 then trapPoison s1 c 0x45 (.spad c.r.core c.r.crew a.toNat) 0 a
        else
          let img := c.crew.spadRead a.toNat 24576
          if imageBad c.crew.part (img.take 64) (img.drop 64) then .trap 0x2F 0 0
          else
            let work := imageWork s1 (img.drop 64)
            if work.any fun o => match o.kind.tile with | some t => decide (c.crew.task.acc ≤ t) | none => false then .trap 0x29 0 0
            else if tunFull (s1.core c.r.core) then .park .tunFull
            else .ok (work.foldl (fun t o => accept t c o.kind) (commit s1 c [] .t1))

end Sys2Proof.Machine
end

