-- ==== Sys2Proof/Machine/Cancel.lean ====
section
/-!
DEFINITION. What becomes of cancelled work (R93 to R97, R100), the retirement of crews (R75), and released cells that wait for room (R81).
-/
namespace Sys2Proof.Machine

/-! ## The broadcast reaches a die (R92, R93) -/

/-- CANCEL_APPLY (R93): the broadcast of a cancel reaches a die. -/
def execCancelApply (die : BitVec 3) (p : BitVec 6) (scope : BitVec 16) (s : State) : Out3 :=
  let d := die.toNat
  .next (cancelHere s d p.toNat scope.toNat)

/-- 65,536 cycles of a core have gone by since a moment that was noted (R94, R121, R137). -/
def cyclesGone (s : State) (core : Nat) (since : Option Dword) : Bool :=
  match since with
  | some t => decide (65536 ≤ ((catchUp s core (s.core core)).cyc - t).toNat)
  | none => false

/-- A group that must die has reached no kill point within 65,536 cycles, and stands at an instruction boundary. -/
def killDue (s : State) (core : Nat) (w : Crew) (g : Group) : Bool :=
  g.live && groupDoomed s core w g && cyclesGone s core w.killAt && atBoundary s core w.slot g.gid g

/-- KILL_TIMEOUT (R94): the group dies at an instruction boundary. -/
def execKillTimeout (core crew gid : Nat) (s : State) : Out3 :=
  match s.crew? core crew with
  | none => .next s
  | some w =>
    match w.group? gid with
    | none => .next s
    | some g => if killDue s core w g then .next (groupEnds s core crew gid true) else .next s

/-! ## Acknowledgement (R97) -/

/-- A scope may be acknowledged: cancels are counted and its subtree is empty. -/
def ackReady (s : State) (p id : Nat) : Bool := (s.scope p id).pend != 0 && s.subtreeEmpty p id

/-- The records of an acknowledgement of the partition are not all written yet: the next one waits for them (R97). -/
def ackOpen (s : State) (p : Nat) : Bool := s.packets.any fun k => k.fn == p && k.acked

/-- A scope whose acknowledgement comes before that of another: the deeper, then the lower id (R97). -/
def ackBefore (s : State) (p x y : Nat) : Bool :=
  decide ((s.scope p y).depth.toNat < (s.scope p x).depth.toNat) || ((s.scope p x).depth == (s.scope p y).depth && decide (x < y))

/-- CANCEL_ACKNOWLEDGE (R97). -/
def execCancelAcknowledge (p : BitVec 6) (scope : BitVec 16) (s : State) : Out3 :=
  let q := p.toNat
  let id := scope.toNat
  let others := s.scopes.filterMap fun (k, _) => if k / 65536 == q then some (k % 65536) else none
  if ackReady s q id && !ackOpen s q && !others.any (fun x => ackReady s q x && ackBefore s q x id) then .next ((s.ackScope q id).freeScopes q) else .next s

/-! ## Retirement (R75) and the retry of releases (R81) -/

/-- CREW_RETIRE (R75): the last group has ended and every access has been performed. A killed crew ends as R95 says. DESIGN CHOICE (log
82): commands of its ring that have not been started go with it, and their counters do not advance; R75 says only that they are not waited for. -/
def execCrewRetire (core crew : Nat) (s : State) : Out3 :=
  match s.crew? core crew with
  | none => .next s
  | some w => if w.ended && crewQuiet s core w w.killed then .next (crewEnds s core w) else .next s

/-- QUEUE_RETRY (R81): the dispatcher tries again to queue the records of released cells. -/
def execQueueRetry (die : BitVec 3) (s : State) : Out3 :=
  let d := die.toNat
  let s1 := discardCells s d fun c => s.cancelledOn c.part d 15 c.task.scopeId
  .next ((s1.die d).cells.foldl (fun s c => s.queueReleased d c) (s1.modDie d fun x => { x with cells := [] }))

end Sys2Proof.Machine
end

