-- ==== Sys2Proof/Machine/Pipe.lean ====
section
/-!
DEFINITION. What the issue selector must know of a word: its class (R225), its pipe (R115), its switch marker (R118), the M registers it reads (R116) and the
cycles that it spends in E2 and E3 (R120, R288).
-/
namespace Sys2Proof.Machine

/-- The pipes that a word may issue on (R115). -/
inductive PipeUse where
  | p | q | either | both
  deriving DecidableEq, Repr

/-- What the selector knows of a word. -/
structure IssueInfo where
  cls : TClass
  pipe : PipeUse
  w : Bool
  /-- M registers read, each once -/
  reads : List Nat
  /-- cycles in E2 and E3 -/
  e23 : Nat
  deriving DecidableEq, Repr

/-- A word that reads no M register. -/
def plainInfo (w : Bool) (u : PipeUse) (t : TClass) : IssueInfo := ⟨t, u, w, [], 2⟩

/-- The M register of an operand. -/
def mOf : Operand → List Nat
  | .m i => [i.toNat]
  | _ => []

/-- The M registers of an operand that may be an even pair. -/
def mPairOf (pair : Bool) : Operand → List Nat
  | .m i => if pair then [i.toNat, i.toNat + 1] else [i.toNat]
  | _ => []

/-- An immediate vector word; movi.b32 (FN 0x07) has no source register. -/
def immInfo (f : IWord) (fn : Nat) : IssueInfo := ⟨.t1, .either, f.w, if fn == 0x07 then [] else mOf f.a, 2⟩

/-- The M registers of B, or of the residue source. -/
def tailReads (two : Bool) : VTail → List Nat
  | .src _ b _ => if two then mOf b else []
  | .ef r _ => mOf r

/-- A word of the MR form. -/
def mrInfo (f : MRWord) (t : TClass) (two : Bool) (u : PipeUse) : IssueInfo :=
  ⟨tailClass t f.tail, u, f.w, (mOf f.a ++ tailReads two f.tail).eraseDups, 2⟩

/-- A reduction or scan. -/
def holdInfo (f : MRWord) (hold : Nat) : IssueInfo := ⟨.t3, .either, f.w, mOf f.a, hold⟩

/-- A fused multiply-add. -/
def fmaInfo (f : FmaWord) : IssueInfo := ⟨modClass f.mod .t2, .either, f.w, (mOf f.a ++ mOf f.b ++ mOf f.c).eraseDups, 2⟩

/-- A load or store. -/
def memInfo (f : MWord) (store : Bool) : IssueInfo :=
  ⟨.t1, .p, f.w, (mOf f.base ++ mOf f.idx ++ if store then mPairOf (f.size == .b64) f.d else []).eraseDups, 2⟩

/-- An atomic. -/
def atomInfo (f : AWord) (wide cas : Bool) : IssueInfo :=
  ⟨.t1, .p, f.w, (mPairOf wide f.a ++ mPairOf (f.asz == 3) f.b ++ if cas then mPairOf (f.asz == 3) f.c else []).eraseDups, 2⟩

/-- A pair word. -/
def pairInfo (f : PairWord) : IssueInfo :=
  ⟨if f.op1.op.isT2 then .t2 else .t1, .both, f.w, ((f.op1.mSources ++ f.op2.mSources).map fun i => i.toNat).eraseDups, 2⟩

/-- Cycles of a reduction or scan in E2 and E3, by FN (R288). -/
def holdOf (fn : Nat) : Nat := [6, 8, 6, 6, 6, 6, 8, 8, 6, 6, 6, 10, 16, 10, 12].getD fn 6

/-- What the selector reads in a word's MAJ and FN (R225). A word that takes a decode code is selected as the words of its major are (log 30). -/
def issueOf (w : Dword) : IssueInfo :=
  let fn := (fnOf w).toNat
  let maj := (majOf w).toNat
  match maj with
  | 0x02 => plainInfo (wOf w) .either (if fn == 0x03 || fn == 0x04 then .t4 else .t1)
  | 0x07 =>
    mrInfo (.ofBits w) (if fn == 0x0F then .t2 else if 0x10 ≤ fn && fn ≤ 0x13 then .t4 else .t1) (fn != 0x12 && decide (fn < 0x1C)) .either
  | 0x08 => immInfo (.ofBits w) fn
  | 0x09 => mrInfo (.ofBits w) .t2 (decide (fn < 0x0F)) .either
  | 0x0A => fmaInfo (.ofBits w)
  | 0x0B => mrInfo (.ofBits w) (if fn < 0x10 then .t2 else .t1) (decide (fn < 0x14)) .either
  | 0x0C => mrInfo (.ofBits w) .t3 (fn == 2 || fn == 3) .either
  | 0x0D => holdInfo (.ofBits w) (holdOf fn)
  | 0x0E => mrInfo (.ofBits w) .t3 (decide (0x1C ≤ fn)) .either
  | 0x0F => mrInfo (.ofBits w) .t4 (fn == 8) .q
  | 0x1B => atomInfo (.ofBits w) false (fn == 9)
  | 0x1C => atomInfo (.ofBits w) false (fn == 9)
  | 0x1D => atomInfo (.ofBits w) true (fn == 9)
  | 0x1E => atomInfo (.ofBits w) true (fn % 16 == 9)
  | 0x1F => plainInfo (wOf w) .p .t1
  | 0x20 => plainInfo (wOf w) .p .t1
  | 0x21 => plainInfo (wOf w) .p .t1
  | 0x22 => plainInfo (wOf w) .p .t2
  | 0x23 => plainInfo (wOf w) .p .t2
  | 0x24 => plainInfo (wOf w) .p .t2
  | 0x25 => plainInfo (wOf w) .p .t1
  | 0x26 => plainInfo (wOf w) .p .t1
  | n =>
    if 0x10 ≤ n ∧ n ≤ 0x1A then memInfo (.ofBits w) (decide (n % 2 = 1))
    else if 0x38 ≤ n then
      (match ShortOp.ofBits (w.extractLsb' 30 30), ShortOp.ofBits (w.extractLsb' 0 30) with
       | some a, some b => pairInfo ⟨w.getLsbD 60, a, b⟩
       | _, _ => plainInfo false .either .t1)
    else plainInfo (wOf w) .either .t1

end Sys2Proof.Machine
end

