-- ==== Sys2Proof/Machine/Issue.lean ====
section
/-!
DEFINITION. Issue: fetching a word (R178), which splits are candidates, one pipe cycle of a core (R115, R116, R120 to R122), and what ends an outstanding
access (R118, R148, R179, R262, R323).
-/
namespace Sys2Proof.Machine

/-! ## Fetch -/

/-- What a fetch comes to. -/
inductive FetchRes where
  | word (w : Dword) (s : State)
  | stop (r : Res)
  deriving DecidableEq, Repr

/-- The line of the instruction cache that holds an address, for the crew's address space (R143, R171). -/
def icacheHit? (k : Core) (part pasid va : Nat) : Option Dword :=
  (k.icache.find? fun e => e.1 == part && e.2.1 == pasid && e.2.2.1 == va).map (·.2.2.2)

/-- Words of the instruction cache, 128 KiB (R105). -/
def icacheWords : Nat := 16384

/-- Fetch the word at a split's PC: a line held is used, another is filled (R143, R171); its faults are those of domain 0 of class 00 (R178). -/
def fetch (s : State) (c : Ctx) : FetchRes :=
  let a := c.crew.addrOf c.r.core c.sp.pc
  let p := c.crew.part
  let ps := c.crew.pasid.toNat
  match icacheHit? (s.core c.r.core) p ps a.toNat with
  | some w => .word w s
  | none =>
    match s.devCheck (clusterOf c.r.core) p ps a 8 .fetch true (c.g.walkOut == some c.r.split) with
    | .err e => .stop (.trap (e.code 0) 0 a)
    | .ok pa =>
      if s.devPoisoned pa 8 then .stop (trapPoison s c 0x05 (.dev pa) 0 a)
      else .word (s.dev64 pa) (s.modCore c.r.core fun k => { k with icache := lastOf icacheWords (k.icache ++ [(p, ps, a.toNat, s.dev64 pa)]) })

/-- The run of M registers that mldb or an mma reads at issue (R116, R303, R306): as long as its shape word, or its K and its format block, say. -/
def runReads (s : State) (c : Ctx) (w : Dword) : List Nat :=
  match (majOf w).toNat with
  | 0x22 =>
    let f := MWord.ofLoadBits w
    if bits w 56 54 == 2 then (List.range (min 256 (shapeLen (sval s c 2 f.idx)))).map fun r => mIdx f.d + r else []
  | 0x23 =>
    let f := RWord.ofBits w
    (match readBlock s c (sval s c 2 f.b) with
     | .ok ws _ => (List.range (ceilDiv (bits f.mod 8 0 * (fmtBits (descEf (ws.getD 0 0))).getD 0) 32)).map fun r => mIdx f.a + r
     | .stop _ => [])
  | _ => []

/-- What the selector sees of a split's next word. One that cannot be fetched takes its trap in either pipe. -/
def peek (s : State) (c : Ctx) : IssueInfo :=
  match fetch s c with
  | .word w _ => let i := issueOf w; { i with reads := i.reads ++ runReads s c w }
  | .stop _ => plainInfo false .either .t1

/-! ## Candidates (R115) -/

/-- The condition that ends a wait at issue. -/
def parkOver (s : State) (core : Nat) (w : Crew) (g : Group) : Park → Bool
  | .paddle => (s.core core).paddle == some w.slot || w.stage g.gid != 0
  | .tunFull => !tunFull (s.core core)
  | .arming t => !w.armedOpen t
  | .phase b ph => (w.bars.getD b ⟨0, [], none⟩).bph == ph
  | .ring => decide (w.pub.toNat < w.take.toNat + 64)
  | .grist => !gristBusy s core w.part
  | .target tc tw t => consult s core w.slot w.part w.task.launch (tc % 96) tw t != .wait
  | .access ids => !ids.any fun i => g.outs.any fun o => o.id == i
  | .tun n => !(s.core core).tun.any fun o => o.crew == w.slot && decide (o.id < n)
  | .drain pub dsp => !w.drainPending pub.toNat dsp
  | .ats page _ _ wr => !(s.fn w.part).atsReq.contains (w.pasid.toNat, page, wr)
  | .release ids => !ids.any fun i => g.outs.any fun o => o.id == i

/-- The crew's partition may issue in this cycle: its cut and the core's take cycles away from it (R63, R66), and so does a throttled rail, at a rate that is
not stated (R27). -/
def offered (s : State) (core : Nat) (k : Core) (part : Nat) : Bool :=
  !k.hot && decide (k.cyc.toNat % 4 < 4 - max (bits (s.part part).pcfg0 1 0) k.cut)
    && !((s.rail (railOf s core)).throttled && Config.freeBit k.cyc.toNat core 0)

/-- A group runs (R115, R183 to R187). -/
def groupRuns (g : Group) : Bool := g.live && g.fwait.isNone && !g.stopped && g.pendTrap.isNone && (g.heldTraps.isEmpty || g.handler.isSome)

/-- No cycle of the core keeps a group from issuing (R116, R290). -/
def groupInCycle (k : Core) (w : Crew) (g : Group) : Bool := decide (g.holdUntil ≤ k.cyc.toNat) && !k.holdG.contains (w.slot, g.gid)

/-- A fence that one of its splits has met still parks the group (R273). A far atomic parks its split alone, by Park.release. -/
def fenceParks (s : State) (core : Nat) (w : Crew) (g : Group) : Bool :=
  g.splits.any fun p =>
    match p.parked with
    | some (.access ids) => !parkOver s core w g (.access ids)
    | some (.tun n) => !parkOver s core w g (.tun n)
    | _ => false

/-- A split is neither parked nor waiting nor stopped, nor is its crew about to stop (R60, R115, R187, R321). -/
def splitReady (s : State) (core : Nat) (w : Crew) (g : Group) (p : Split) : Bool :=
  !w.halting && (g.handler.isNone || p.hnd) && p.waiting.isNone
    && (match p.barWait with | some (b, n) => decide (n.toNat ≤ (w.bars.getD b ⟨0, [], none⟩).bph.toNat) | none => true)
    && (match p.parked with | some q => parkOver s core w g q | none => true)

/-- A ready split with what its next word is. -/
structure Ready where
  ctx : Ctx
  info : IssueInfo

/-- The splits of a core that are ready but for their switch markers. -/
def readySplits (s : State) (core : Nat) : List Ctx :=
  (s.core core).crews.flatMap fun w =>
    if w.halted then []
    else w.groups.flatMap fun g =>
      if !groupRuns g || fenceParks s core w g then []
      else g.splits.filterMap fun p => if splitReady s core w g p then some ⟨⟨core, w.slot, g.gid, p.num⟩, false, none, w, g, p⟩ else none

/-- A word with a switch marker waits for its group's outstanding results and stores, that of a wait among them (R118, R262). -/
def atMarker (x : Ready) : Bool := x.info.w && (!x.ctx.g.outs.isEmpty || x.ctx.g.splits.any fun p => p.waiting.isSome)

/-- The candidates of a core (R115): while a word waits at its switch marker, its group yields its issue (R118). -/
def candidates (s : State) (core : Nat) : List Ready :=
  let rs := (readySplits s core).map fun c => (⟨c, peek s c⟩ : Ready)
  rs.filter fun x => !rs.any fun y => atMarker y && y.ctx.r.crew == x.ctx.r.crew && y.ctx.r.gid == x.ctx.r.gid

/-- A candidate may issue in this cycle, as far as its partition's cut and its own group go; another is passed over in it (R116, R122, R290). -/
def Ready.inCycle (s : State) (core : Nat) (x : Ready) : Bool :=
  offered s core (s.core core) x.ctx.crew.part && groupInCycle (s.core core) x.ctx.crew x.ctx.g

/-- A core has a word that this cycle or a later one can issue. -/
def hasWord (s : State) (core : Nat) : Bool := !(s.core core).hot && !(candidates s core).isEmpty

/-! ## Selection (R122) -/

/-- The slices that hold a lane of a mask (R107, R110). -/
def slicesOf (m : Mask) : Nat → Bool := fun j => (m.toNat / 16 ^ j) % 16 != 0

/-- Two masks share a slice. -/
def sharesSlice (a b : Mask) : Bool := (List.range 8).any fun j => slicesOf a j && slicesOf b j

/-- Reads of a bank of the main file (R116). -/
def bankReads (l : List Nat) (b : Nat) : Nat := (l.filter fun i => i % 4 == b).length

/-- A word needs three reads of one bank, or more (R116). -/
def IssueInfo.long (i : IssueInfo) : Bool := (List.range 4).any fun b => decide (2 < bankReads i.reads b)

/-- The reads that a word issued over two cycles leaves to its second. -/
def IssueInfo.rest (i : IssueInfo) : List Nat := (List.range 4).flatMap fun b => (i.reads.filter fun r => r % 4 == b).drop 2

/-- A word's reads find no room beside those left over from the last cycle: a bank serves two in a cycle (R116). -/
def holdClash (left : List Nat) (i : IssueInfo) : Bool :=
  (List.range 4).any fun b => bankReads left b != 0 && bankReads i.reads b != 0 && decide (2 < bankReads left b + bankReads i.reads b)

/-- Two words whose reads exceed two in some bank (R116). -/
def readsClash (a b : IssueInfo) : Bool := (List.range 4).any fun k => decide (2 < bankReads a.reads k + bankReads b.reads k)

/-- The record that the selector keeps of a split. -/
def candOf? (k : Core) (r : SplitRef) : Option Cand := k.cands.find? fun c => c.crew == r.crew && c.gid == r.gid && c.split == r.split

/-- A candidate with its tier, and since when it is ready. -/
structure Ranked where
  r : Ready
  tier : Nat
  since : Nat
  passed : Nat

/-- Rank order (R122). -/
def Ranked.before (a b : Ranked) : Bool :=
  let ka := [a.tier, a.since, a.r.ctx.r.crew, a.r.ctx.r.gid, a.r.ctx.r.split]
  let kb := [b.tier, b.since, b.r.ctx.r.crew, b.r.ctx.r.gid, b.r.ctx.r.split]
  decide (ka < kb)

/-- Insert in rank order. -/
def insertRanked (a : Ranked) : List Ranked → List Ranked
  | [] => [a]
  | b :: t => if a.before b then a :: b :: t else b :: insertRanked a t

/-- Tiers: starved, preferred, deferred (R122). -/
def rank (k : Core) (l : TClass) (x : Ready) : Ranked :=
  match candOf? k x.ctx.r with
  | some c => ⟨x, if 16 ≤ c.passed then 1 else if x.info.cls.num ≤ l.num then 2 else 3, c.since, c.passed⟩
  | none => ⟨x, if x.info.cls.num ≤ l.num then 2 else 3, k.cyc.toNat, 0⟩

/-- May a candidate join those taken (R115 to R117, R122)? -/
def compatible (k : Core) (taken : List Ranked) (x : Ranked) : Bool :=
  !holdClash k.holdReads x.r.info && match taken with
  | [] =>
    (match x.r.info.pipe with
     | .p => !k.holdP | .q => !k.holdQ | .either => !k.holdP || !k.holdQ | .both => !k.holdP && !k.holdQ)
  | [y] =>
    let a := y.r.info.pipe
    let b := x.r.info.pipe
    !k.holdP && !k.holdQ && a != .both && b != .both && !(a == .p && b == .p) && !(a == .q && b == .q)
      && !(x.tier == 3 && y.tier != 3) && !readsClash x.r.info y.r.info
      && (y.r.ctx.r.crew != x.r.ctx.r.crew || y.r.ctx.r.gid != x.r.ctx.r.gid || !sharesSlice y.r.ctx.sp.mask x.r.ctx.sp.mask)
  | _ => false

/-- Take candidates in rank order. -/
def takeAll (k : Core) : List Ranked → List Ranked → List Ranked
  | taken, [] => taken
  | taken, x :: t => if compatible k taken x then takeAll k (taken ++ [x]) t else takeAll k taken t

/-- The words for P and Q, in that order, with whether each is on Q (R122). -/
def assign (k : Core) : List Ranked → List (Ranked × Bool)
  | [x] => [(x, match x.r.info.pipe with | .q => true | .either => k.holdP | _ => false)]
  | [x, y] =>
    (match x.r.info.pipe, y.r.info.pipe with
     | .q, _ => [(y, false), (x, true)]
     | .p, _ => [(x, false), (y, true)]
     | _, .p => [(y, false), (x, true)]
     | _, _ => [(x, false), (y, true)])
  | _ => []

/-- The records of the candidates that were not taken (R122). -/
def keepCands (ranked taken : List Ranked) : List Cand :=
  (ranked.filter fun x => !taken.any fun y => y.r.ctx.r == x.r.ctx.r).map fun x =>
    ⟨x.r.ctx.r.crew, x.r.ctx.r.gid, x.r.ctx.r.split, x.since, x.passed + 1⟩

/-- ISSUE_CYCLE: one pipe cycle of a core (R115 to R122). The traps that waited for its holds are taken first. The words selected execute next, the one on P
first. A core whose words have not executed yet issues no further cycle. -/
def execIssueCycle (core : Nat) (s : State) : Out3 :=
  if !s.issueQ.isEmpty then .next s
  else
    let k0 := catchUp s core (s.core core)
    let s1 := settleTraps (s.setCore core { k0 with cyc := k0.cyc + 1, passed := none }) core
    let k := s1.core core
    let next := advancePipe k.pipe
    let ranked := ((candidates s1 core).map (rank k (longest next))).foldr insertRanked []
    let taken := takeAll k [] (ranked.filter fun x => x.r.inCycle s1 core)
    let slots := assign k taken
    let fly := slots.map fun (x, _) => (⟨x.r.info.cls, if x.r.info.long then 2 else 1, x.r.info.e23, 1⟩ : InFlight)
    let long := slots.filter fun (x, _) => x.r.info.long
    .next { s1.setCore core
        { k with elapsed := k.elapsed + cycleLength s core (longest k.pipe), pipe := next ++ fly, cands := keepCands ranked taken,
                 holdP := long.any fun (x, q) => !q || x.r.info.pipe == .both, holdQ := long.any fun (x, q) => q || x.r.info.pipe == .both,
                 holdG := long.map fun (x, _) => (x.r.ctx.r.crew, x.r.ctx.r.gid), holdReads := long.flatMap fun (x, _) => x.r.info.rest } with
      issueQ := slots.map fun (x, q) => ⟨x.r.ctx.r, q, none⟩ }

/-! ## Results and stores that end (R118, R119, R262) -/

/-- The ATS invalidations of a function whose earlier host accesses have all ended are completed (R46, step 4). -/
def settleInval (s : State) (f : Nat) : State :=
  if (s.fn f).inval.isEmpty then s
  else
    let open_ := fun (id : Nat) => s.allCrews.any fun (_, w) => w.groups.any fun g => g.outs.any fun o => o.id == id
    s.modFn f fun x =>
      let left := x.inval.filter fun e => e.2.any open_
      { x with inval := left, invalDone := x.invalDone + (x.inval.length - left.length) }

/-- An outstanding access is over: it goes from its group and from the ports that it waited for. -/
def dropOut (s : State) (r : SplitRef) (o : Out) : State :=
  let s1 := s.modGroup r.core r.crew r.gid fun g => { g with outs := g.outs.filter fun x => x.id != o.id }
  o.ports.foldl (fun s i => s.setPort i ((s.port i).forget o.id)) s1

/-- A trap that waited for far accesses is taken; a crew that waited for its stores may end (R75, R95, R112). -/
def afterOut (s : State) (r : SplitRef) : State :=
  let f := match s.crew? r.core r.crew with | some w => w.part | none => 0
  settleInval (killedEnds (pendingTrap s r.core r.crew r.gid) r.core r.crew) f

/-- The commit of a far atomic completes with its answer, and its slot counts (R125, R130, R271). -/
def farCommit (s : State) (r : SplitRef) (o : Out) : State :=
  s.modGroup r.core r.crew r.gid fun g =>
    if g.live then
      { g.modSplit o.split fun p => { p.next with parked := none, closed := true, oldSpec := none, barWait := none, stale := 0, view := tickView p.view } with
        seq := g.seq + 1 }
    else g

/-- An access ends with its value (R118, R269); a host atomic makes its write (R270). -/
def endOut (s : State) (r : SplitRef) (o : Out) (dests : List (Reg × Val)) : State :=
  let n := s.free
  let s0 := (s.hostRmw.filter fun x => x.id == o.id).foldl State.hostRmwWrite s
  let s1 := { (dropOut s0 r o).modGroup r.core r.crew r.gid fun g => if g.live then dests.foldl (fun g d => writeOut n g o d) g else g with free := n + 1 }
  afterOut (if o.kind == .atomic && o.far.isSome then farCommit s1 r o else s1) r

/-- The split that what an access comes to concerns: its own; else one whose words come after it; else any of the group. -/
def Group.bearer (g : Group) (o : Out) : Nat :=
  match g.splits.find? (fun p => p.num == o.split) <|> g.splits.find? (fun p => p.past.contains o.id) <|> g.splits.head? with
  | some p => p.num
  | none => 0

/-- The lane that a far answer names, with its address: which one the far device found is not known here, a free choice. -/
def Out.someLane (o : Out) (n : Nat) : Nat × Dword := o.addrs.getD ((Config.freeDword n).toNat % o.addrs.length) (0, 0)

/-- An access ends in a fault (R179, R263): the word that made it takes the code, at its own place. -/
def farFault (s : State) (r : SplitRef) (o : Out) (code : Byte) (la : Nat × Dword) : State :=
  match s.group? r.core r.crew r.gid with
  | none => s
  | some g =>
    let s0 := { s with hostRmw := s.hostRmw.filter fun x => x.id != o.id, free := s.free + 1 }
    let n := g.bearer o
    let s1 := (dropOut s0 r o).modGroup r.core r.crew r.gid fun g =>
      g.modSplit n fun p => { p with parked := match p.parked with | some (.release ids) => if ids.contains o.id then none else p.parked | q => q }
    afterOut (if g.live then raise s1 r.core r.crew r.gid ⟨n, code, la.1, la.2, some o.pc, o.ctx⟩ else s1) r

/-- A load that a checker rejects: the group re-runs its strand, or takes its space's stale code at the 256th rejection (R148, R179). -/
def rejectOut (s : State) (r : SplitRef) (o : Out) (stale : Byte) : State :=
  match s.group? r.core r.crew r.gid with
  | none => s
  | some g =>
    let n := g.bearer o
    let last := match g.split? n with | some p => decide (255 ≤ p.stale) | none => false
    let s1 := s.modSplit ⟨r.core, r.crew, r.gid, n⟩ fun p => { p with stale := if last then 0 else p.stale + 1 }
    if last then farFault s1 r o stale (o.someLane s.free) else farFault s1 r o reRun (0, 0)

/-- The outstanding access of a group by its number. -/
def out? (s : State) (r : SplitRef) (id : Nat) : Option Out := (s.group? r.core r.crew r.gid).bind fun g => g.outs.find? fun o => o.id == id

/-- A far device's answer to an access: a value; a stale tag, after which a load re-runs its strand and any other access is sent again in its place; or another
fault of the peer domain (R148, R179, R263). -/
def peerAnswer (s : State) (r : SplitRef) (o : Out) : FarAnswer → State
  | .ok data => endOut s r o (answerDests o data)
  | .fault k =>
    if k == 4 then (if o.kind == .load then rejectOut s r o 0x5C else s)
    else farFault s r o (BitVec.ofNat 8 (0x58 + k.toNat)) (o.someLane s.free)

/-- An access is answered: with what it read or did here, or with what the far device says once the port has carried its request and its answer (R266). A failing
host link ends an access in the time-out of the host domain (R263, R274), unless it has been performed already for a later access. -/
def answer (s : State) (r : SplitRef) (o : Out) (ans : FarAnswer) : State :=
  if o.peer then
    if o.ports.any fun i => (s.port i).carries o.id then s else peerAnswer s r o ans
  else match ans with
    | .fault k =>
      if o.host && k == 7 && (o.kind == .load || s.hostRmw.any fun x => x.id == o.id) then farFault s r o 0x67 (o.someLane s.free)
      else if o.host && k != 7 then s else endOut s r o o.dests
    | .ok _ => endOut s r o o.dests

/-- RESULT_RETURN: a variable-latency result is written (R118). -/
def execResultReturn (r : SplitRef) (id : Nat) (ans : FarAnswer) (s : State) : Out3 :=
  match out? s r id with
  | some o => if o.kind == .load || o.kind == .special || o.kind == .atomic then .next (answer s r o ans) else .next s
  | none => .next s

/-- An earlier host store of the same PASID has not been transmitted (R266). -/
def behindStore (s : State) (r : SplitRef) (o : Out) : Bool :=
  match s.crew? r.core r.crew with
  | none => false
  | some w => s.allCrews.any fun (_, v) => v.part == w.part && v.pasid == w.pasid && v.groups.any fun g =>
      g.outs.any fun x => x.host && x.kind == .store && decide (x.id < o.id)

/-- STORE_ACKNOWLEDGE: the point that performs a store has acknowledged it (R262); a host store is transmitted behind the earlier ones of its PASID (R266). -/
def execStoreAcknowledge (r : SplitRef) (id : Nat) (ans : FarAnswer) (s : State) : Out3 :=
  match out? s r id with
  | some o =>
    if (o.kind == .store || o.kind == .atomic) && !(o.host && o.kind == .store && behindStore s r o) then .next (answer s r o ans) else .next s
  | none => .next s

/-- WAIT_TIMEOUT: the wait is evaluated, and ends by its time-out if TIME has come (R323). -/
def execWaitTimeout (r : SplitRef) (s : State) : Out3 := .next (pollWait s r)

/-- WALK_TIMEOUT: the walk of the split's next access has not ended within 1 ms; that access takes 0x7F (R179). -/
def execWalkTimeout (r : SplitRef) (s : State) : Out3 :=
  match (s.group? r.core r.crew r.gid).bind fun g => g.split? r.split with
  | some _ => .next (s.modGroup r.core r.crew r.gid fun g => { g with walkOut := some r.split })
  | none => .next s

/-- The generation under which an outstanding load of the crew went is no longer that of its address space; only the far device knows that of its own (R46, R147,
R264). -/
def Tag.differs (t : Tag) (s : State) (w : Crew) (host : Bool) : Bool :=
  match t.gen with
  | none => true
  | some n => n != if host then ((s.fn w.part).hostGen.get w.pasid.toNat 0).toNat else s.genOf w.part w.pasid.toNat

/-- STALE_REJECTION: a load whose tag differs makes its group re-run; a store and a copy's transfer are sent again in place, which changes nothing (R148). -/
def execStaleRejection (x : StaleRef) (s : State) : Out3 :=
  match x with
  | .load r =>
    (match s.crew? r.core r.crew with
     | none => .next s
     | some w =>
       match (w.group? r.gid).bind fun g => if g.live then g.outs.find? fun o => o.split == r.split && (match o.tag with | some t => t.differs s w o.host | none => false) else none with
       | some o => .next (rejectOut s r o (match o.tag with | some t => t.code | none => 0))
       | none => .next s)
  | .store _ => .next s
  | .copy _ => .next s

end Sys2Proof.Machine
end

