-- ==== Sys2Proof/Machine/Place.lean ====
section
/-!
DEFINITION. Where a crew may stand: storage and its claims (R59, R60, R70, R86, R105), the spill area (R57, R180), admission (R85), and the cores that serve
a partition (R60, R102).
-/
namespace Sys2Proof.Machine

/-! ## The storage of a core (R70, R105) -/

/-- Resident groups; as many crew slots (R105, R107). -/
def groupSlots (l : Bool) : Nat := if l then 8 else 32
/-- KiB of main file (R105). -/
def mainKiB (l : Bool) : Nat := if l then 256 else 512
/-- KiB of scratchpad (R105). -/
def spadKiB (l : Bool) : Nat := if l then 256 else 384

/-- Crews that leave a partition nothing of what they hold: its own, and those of others that are not halted in place (R60). -/
def inTheWay (p : Nat) (w : Crew) : Bool := w.part == p || !w.halted

/-! ## Commands that a save waits for (R157) -/

/-- No such command of the crew is in progress. -/
def cmdsClear (s : State) (core : Nat) (w : Crew) : Bool := (s.cluster (clusterOf core)).cmds.all fun m => m.uid != w.uid || !m.holds

/-! ## Claims (R60) -/

/-- The halted crews of other partitions, the oldest-halted first. -/
def claimable (p : Nat) (k : Core) : List Crew :=
  let insert := fun (w : Crew) (l : List Crew) => l.takeWhile (fun x => decide (x.haltNo < w.haltNo)) ++ [w] ++ l.dropWhile fun x => decide (x.haltNo < w.haltNo)
  (k.crews.filter fun w => w.part != p && w.halted).foldr insert []

/-- What is claimed of a halted crew: units of M rows, and its allocation of the scratchpad whole (R59, R60). -/
structure Claim where
  slot : Nat
  units : Nat
  spad : Bool
  deriving DecidableEq, Repr

/-- Claims of r units and of b KiB from crews in order, and how much is still missing after them. -/
def claimFrom : Nat → Nat → List Crew → List Claim × Nat × Nat
  | r, b, [] => ([], r, b)
  | r, b, w :: t =>
    let u := min r w.rows.length
    let sp := decide (0 < b) && !w.blocks.isEmpty
    let rest := claimFrom (r - u) (if sp then b - w.blocks.length else b) t
    (if u == 0 && !sp then rest.1 else ⟨w.slot, u, sp⟩ :: rest.1, rest.2)

/-- The claims so that a crew of the partition, which is to get rows and blocks more than it holds, has room: none where even all of them are too few, or where
one must wait (R60, R70, R86, R157). Groups and tiles of halted crews of other partitions are out of the way (R60, R190). -/
def claimsFor (s : State) (core p : Nat) (t : TaskRec) (rows blocks : Nat) (own : Nat → Bool) : Option (List Claim) :=
  let k := s.core core
  let stay := k.crews.filter fun w => !own w.slot && inTheWay p w
  let sum := fun (ws : List Crew) (f : Crew → Nat) => ws.foldl (fun n w => n + f w) 0
  let missR := rows - (mainKiB (isL core) / 4 - sum k.crews fun w => w.rows.length)
  let missB := blocks - (spadKiB (isL core) - sum k.crews fun w => w.blocks.length)
  let cs := claimFrom missR missB (claimable p k)
  if decide (sum stay (fun w => w.task.grp) + t.grp ≤ groupSlots (isL core)) && decide (sum stay (fun w => w.task.acc) + t.acc ≤ 4) && cs.2 == (0, 0)
      && cs.1.all fun c => !c.spad || match s.crew? core c.slot with | some w => cmdsClear s core w | none => true then
    some cs.1
  else none

/-- Claim from a crew: what is claimed is spilled (R60); where it does not fit, the crew takes the save-and-resume cause (R180). -/
def claimCrew (s : State) (core : Nat) (c : Claim) : State :=
  match s.crew? core c.slot with
  | none => s
  | some w =>
    spillCrew s core c.slot (4096 * c.units + if c.spad then w.task.spad * 1024 else 0) fun w =>
      { w with rows := w.rows.drop c.units, blocks := if c.spad then [] else w.blocks }

/-- n of the free units of a kind of storage; which is a free choice (R59; log 3). -/
def pickUnits (seed n total : Nat) (held : List Nat) : List Nat :=
  let free := (List.range total).filter fun u => !held.contains u
  let r := (Config.freeDword seed).toNat % max 1 free.length
  (free.drop r ++ free.take r).take n

/-- n free units of M rows of a core, and n free KiB of its scratchpad. -/
def pickRows (s : State) (core n : Nat) : List Nat := pickUnits s.free n (mainKiB (isL core) / 4) ((s.core core).crews.flatMap fun w => w.rows)
def pickBlocks (s : State) (core n : Nat) : List Nat := pickUnits (s.free + 1) n (spadKiB (isL core)) ((s.core core).crews.flatMap fun w => w.blocks)

/-- Units are in use by a partition from now on. -/
def usedBy (m : SMap Nat) (us : List Nat) (p : Nat) : SMap Nat := us.foldl (fun m u => m.put u (p + 1)) m

/-- A crew of a core takes the storage that it lacks. -/
def takeStorage (s : State) (core slot : Nat) : State :=
  match s.crew? core slot with
  | none => s
  | some w =>
    let rs := pickRows s core (w.task.units - w.rows.length)
    let bs := pickBlocks s core (w.task.spad - w.blocks.length)
    { (s.modCrew core slot fun w => { w with rows := w.rows ++ rs, blocks := w.blocks ++ bs }).modCore core fun k =>
        { k with rowLast := usedBy k.rowLast rs w.part, blockLast := usedBy k.blockLast bs w.part } with free := s.free + 2 }

/-! ## Crew slots (R107) -/

/-- A slot that a crew of the partition may take: no running crew holds it, and no crew of the partition holds it or returns to it. -/
def slotFree (k : Core) (p n : Nat) : Bool := !k.crews.any fun w => (w.slot == n && inTheWay p w) || (w.part == p && w.home == n)

/-- A halted crew of another partition that stands in a slot leaves it for a number of its own until it resumes; what names the crew follows it. -/
def evict (s : State) (core slot : Nat) : State :=
  match s.crew? core slot with
  | none => s
  | some w =>
    let n := 64 + w.haltNo
    let ren := fun (c x : Nat) => if c == core && x == slot then n else x
    { (s.modCrew core slot fun w => { w with slot := n }).modCluster (clusterOf core) fun c =>
        { c with cmds := c.cmds.map fun m => { m with crew := ren m.core m.crew } } with
      fns := s.fns.map fun (f, x) => (f, { x with posts := x.posts.map fun (c, y, g, r) => (c, ren c y, g, r) }) }

/-- The lowest slot for a crew of the partition, free slots first. -/
def pickSlot (k : Core) (p : Nat) (l : Bool) : Option Nat :=
  let ok := (List.range (groupSlots l)).filter fun n => slotFree k p n
  match ok.find? fun n => !k.crews.any fun w => w.slot == n with
  | some n => some n
  | none => ok.head?

/-- Accumulator tiles for a crew of the partition, unclaimed ones first; a tile that is armed and not complete is given to no other (R190, R314). -/
def pickTiles (k : Core) (p n : Nat) : List Nat :=
  let used := fun (q : Crew → Bool) (t : Nat) => k.crews.any fun w => q w && w.tiles.any fun m => m.phys == t
  let armed := fun (t : Nat) => k.crews.any fun w => (List.range w.tiles.length).any fun i => (w.tiles.map (·.phys))[i]? == some t && w.armedOpen i
  let ok := (List.range 4).filter fun t => !used (inTheWay p) t && !armed t
  (ok.filter (fun t => !used (fun _ => true) t) ++ ok.filter fun t => used (fun _ => true) t).take n

/-- The context id of a crew that is bound: the next one that no crew of the core bears and no tile names (R190). -/
def Core.freshCtx (k : Core) : BitVec 14 :=
  (((List.range (k.crews.length + 5)).map fun i => k.ctxNext + BitVec.ofNat 14 i).find? fun c =>
    !(k.crews.any fun w => w.ctxId == c) && !(k.tiles.any fun t => t.owner == some c)).getD k.ctxNext

/-! ## Cores that serve a partition (R60, R65, R68, R102) -/

/-- The request that holds a core (R102). -/
def heldBy? (s : State) (core : Nat) : Option HeldCore := (s.die (dieOf core)).held.find? fun h => h.core == core

/-- SLICE of a partition (R57). -/
def sliceOf (s : State) (p : Nat) : Nat := bits (s.part p).pcfg0 47 32

/-- The partition whose records bind to a core: that of the slice, or that for which the core is held once it is vacated. One of SLICE 0 is never scheduled
(R57; log 50). -/
def serves (s : State) (core : Nat) : Option Nat :=
  let p := match heldBy? s core with
    | some h => if h.vacated then h.forPart else none
    | none => match s.slice.get (fenceOfDie s (dieOf core)) 0 with | 0 => none | n + 1 => some n
  match p with
  | some p => if sliceOf s p == 0 then none else some p
  | none => none

/-- A change of the cluster's rail connection, or of its rail's voltage, is under way (R65). -/
def changePending (s : State) (core : Nat) : Bool :=
  (s.die (dieOf core)).rsw.getLsbD (24 + clusterInDie core) || s.changes.any fun c => c.target == .rail (railOf s core)

/-! ## Admission (R85) -/

/-- fE and fI in hundredths, at the highest table voltage at or below CUR. -/
def admitFactors (cur : Nat) : Nat × Nat :=
  if 850 ≤ cur then (139, 118) else if 780 ≤ cur then (117, 108) else if 720 ≤ cur then (100, 100) else if 660 ≤ cur then (84, 92) else (70, 83)

/-- ENERGY′ and PEAK′ of a record at a CUR. -/
def chargeAt (cur : Nat) (t : TaskRec) : Nat × Nat :=
  let f := admitFactors cur
  (ceilDiv (t.energy.toNat * f.1) 100, ceilDiv (t.peak.toNat * f.2) 100)

/-- CUR of the rail that a core stands on. -/
def curOf (s : State) (core : Nat) : Nat := bits (s.rail (railOf s core)).rvolt 31 16

/-- The clusters that RSW connects to a rail. -/
def railClusters (s : State) (r : Nat) : Nat := ((List.range 96).filter fun c => railOf s (8 * c) == r).length

/-- A record is admitted to the core's cluster (R85). DESIGN CHOICE (log 82): an ENERGY of zero skips the check of energy and a PEAK of zero that of peak, each alone;
R85 leaves open whether both must be zero. -/
def admitted (s : State) (core : Nat) (t : TaskRec) : Bool :=
  let n := railClusters s (railOf s core)
  let be := 80000 / n
  let bp := 48000 / n
  let (e, p) := chargeAt (curOf s core) t
  let c := s.cluster (clusterOf core)
  (t.energy == 0 || (if be < e then c.energy == 0 else decide (c.energy + e ≤ be)))
    && (t.peak == 0 || (if bp < p then c.peak == 0 else decide (c.peak + p ≤ bp)))

/-- Charge the cluster of a crew that is bound or resumes, at the factors of its rail's CUR, in place of what it is charged already in this interval (R65, R85). -/
def chargeCrew (s : State) (core slot : Nat) : State :=
  match s.crew? core slot with
  | none => s
  | some w =>
    let cur := curOf s core
    let (e, p) := chargeAt cur w.task
    let (e0, p0) := match w.charged with | some c => chargeAt c w.task | none => (0, 0)
    (s.modCluster (clusterOf core) fun c => { c with energy := c.energy - e0 + e, peak := c.peak - p0 + p }).modCrew core slot fun w => { w with charged := some cur }

/-! ## Binding (R86) -/

/-- The conditions of R86 on a core, with the crews to claim. -/
def bindable (s : State) (core p : Nat) (t : TaskRec) (c : CodeDesc) : Option (List Claim) :=
  if typeOk t c (isL core) && !(s.core core).withdrawn && !changePending s core && serves s core == some p && admitted s core t
      && (pickTiles (s.core core) p t.acc).length == t.acc && (pickSlot (s.core core) p (isL core)).isSome then
    claimsFor s core p t t.units t.spad fun _ => false
  else none

end Sys2Proof.Machine
end

