-- ==== Sys2Proof/Machine/Preempt.lean ====
section
/-!
DEFINITION. Stops and resumptions: halt in place and slices (R60, R61), spatial pre-emption (R101 to R104), migration (R137, R138), what is saved (R189), and
the context sequencer of the accumulator tiles (R190).
-/
namespace Sys2Proof.Machine

/-! ## Stopping a crew (R60, R119, R189) -/

/-- Every group of a crew can stop at this moment: its words and far accesses have ended, and so has each message accepted towards the crew (R60, R119,
R314). -/
def stoppable (s : State) (core : Nat) (w : Crew) : Bool :=
  w.groups.all (fun g => !g.live || (atBoundary s core w.slot g.gid g && g.pendTrap.isNone && g.outs.all fun o => o.far.isNone))
    && w.tiles.all fun t => match t.arming with | some a => a.entries.all fun e => e.reserved.isNone || e.satisfied | none => true

/-- Stop a crew's groups and its Tun work (R60, R127, R191); it gives the paddle up (R108). A crew that a cancel or a kill dooms dies instead (R61). -/
def stopCrew (s0 : State) (core slot : Nat) (urgent : Bool) (inPlace : Bool := false) : State :=
  let s := killDoomed s0 core slot
  match s.crew? core slot with
  | none => s
  | some w =>
    if w.ended then s
    else
    let k := s.core core
    let want := w.wantPaddle || k.paddle == some slot || k.paddleReq.contains slot
    let s1 := stopTun (tablesDone s core) core slot urgent
    let s2 := (w.groups.filter fun g => g.live && !g.stopped).foldl (fun s g => interruptGroup s core slot g.gid inPlace) s1
    (s2.modCrew core slot fun w =>
      { w with wantPaddle := want, groups := w.groups.map fun g => if g.live then { g with stopped := true, migStop := false } else { g with outs := [] } }).modCore
      core fun k => { k.dropPaddle slot with cands := k.cands.filter fun c => c.crew != slot }

/-- Halt a crew in place (R60). A migration that has begun begins anew when the crew runs again (R138). -/
def haltCrew (s : State) (core slot : Nat) : State :=
  { (stopCrew s core slot false true).modCrew core slot fun w =>
      if w.ended then w
      else { w with halted := true, halting := false, haltNo := s.nextId, moving := false, moveAt := none } with nextId := s.nextId + 1 }

/-! ## Grist bands and banks of a crew that stands again (R103, R142, R189, R208) -/

/-- Write a crew's saved bands back, with their poison (R192). -/
def restoreBands (s : State) (core slot : Nat) : State :=
  match s.crew? core slot with
  | none => s
  | some w =>
    match w.savedGrist with
    | none => s
    | some (m, ps) =>
      ((claimGrist s core w.part).modCore core fun k =>
        { k with grist := m.foldl (fun m (c : Host.Cell) => Memory.set m c.1 c.2) (k.grist.filter fun c => !inBands w.bands c.1),
                 gristPoison := k.gristPoison.filter (fun p => !inBands w.bands p) ++ ps }).modCrew
        core slot fun w => { w with savedGrist := none }

/-- Write a crew's saved banks back. -/
def restoreBanks (s : State) (core slot : Nat) : State :=
  match s.crew? core slot with
  | none => s
  | some w =>
    match w.savedBanks with
    | none => s
    | some (a, b, sel) =>
      ((claimBanks s core w.part).modCore core fun k => { k with bank0 := a, bank1 := b, bankSel := sel }).modCrew core slot fun w => { w with savedBanks := none }

/-- A crew runs again: paddle, bands, banks, Tun work and charge (R65, R85, R108, R189, R191). -/
def standAgain (s : State) (core slot : Nat) : State :=
  match s.crew? core slot with
  | none => s
  | some w =>
    let s1 := restoreBanks (restoreBands s core slot) core slot
    let s2 := if w.wantPaddle then s1.modCore core fun k => k.askPaddle slot else s1
    let s3 := resumeTun s2 core slot
    (if w.charged == some (curOf s3 core) then s3 else chargeCrew s3 core slot).modCrew core slot fun w =>
      { w with halted := false, halting := false, wantPaddle := false }

/-- A group runs again after a stop: one that was parked on a fault or waited on a page request re-runs its strand, under the same TOKEN unless it has been
retried (R185). -/
def Group.wake (g : Group) : Group :=
  let unparked := { g.frec with fstat := setBits g.frec.fstat 30 30 0 }
  let on := { g with stopped := false, migStop := false }
  match g.fwait with
  | some (.queue t retried) => { on with fwait := none, openToken := if retried then none else some t, frec := unparked }
  | some (.pri _ _ _) => { on with fwait := none, frec := unparked }
  | _ => on

/-! ## Resumption after a halt (R60, R65, R66) -/

/-- A halted crew takes its slot again, whatever halted crew of another partition stands there. -/
def takeHome (s : State) (core slot : Nat) : State × Nat :=
  match s.crew? core slot with
  | none => (s, slot)
  | some w =>
    if w.slot == w.home then (s, slot)
    else
      let s1 := evict s core w.home
      ({ (s1.modCrew core slot fun w => { w with slot := w.home }).modCluster (clusterOf core) fun c =>
          { c with cmds := c.cmds.map fun m => if m.core == core && m.crew == slot then { m with crew := w.home } else m } with
        fns := s1.fns.map fun (f, x) => (f, { x with posts := x.posts.map fun (c, y, g, r) => if c == core && y == slot then (c, w.home, g, r) else (c, y, g, r) }) },
       w.home)

/-- A crew may run on its core now: the core serves its partition, which is enabled, and neither heat nor a change of rail or voltage forbids it. -/
def mayRun (s : State) (core : Nat) (w : Crew) : Bool :=
  serves s core == some w.part && partOn s w.part && !(s.core core).hot && !changePending s core && !w.moving

/-- A halted crew has its slot and its storage again: the state, and the slot. What was claimed of it is refilled (R60). -/
def regain (s : State) (core slot : Nat) (w : Crew) : Option (State × Nat) :=
  if !w.halted then some (s, slot)
  else match (if w.lacking then claimsFor s core w.part w.task (w.task.units - w.rows.length) (w.task.spad - w.blocks.length) (fun n => n == slot) else some []) with
    | none => none
    | some cs =>
      let (s1, n) := takeHome (cs.foldl (fun s c => claimCrew s core c) s) core slot
      some (standAgain (if w.lacking then takeStorage s1 core n else s1) core n, n)

/-- GROUP_RESUME (R60): a halted group re-enters its strand (R185). -/
def execGroupResume (core crew gid : Nat) (s : State) : Out3 :=
  match s.crew? core crew with
  | none => .next s
  | some w =>
    match w.group? gid with
    | none => .next s
    | some g =>
      if !(g.live && g.stopped && mayRun s core w) then .next s
      else match regain s core crew w with
        | none => .next s
        | some (s1, slot) =>
          .next (pendingTrap (s1.modGroup core slot gid Group.wake) core slot gid)

/-! ## Slices (R60) -/

/-- A partition has work in a fence that does not all wait. -/
def hasReady (s : State) (p f : Nat) : Bool :=
  (fenceDies s f).any (fun d => (s.die d).queue.any fun q => q.part == p)
    || s.allCrews.any (fun (c, w) => w.part == p && fenceOfDie s (dieOf c) == f && w.groups.any fun g => g.live && g.fwait.isNone && !g.splits.all w.splitWaits)
    || s.launches.any fun l => l.part == p && l.slots.any fun x => decide (x.next < x.stop)

/-- The partition that takes a fence's cores after the n-th, in round-robin order. -/
def nextSlice (s : State) (f n : Nat) : Option Nat :=
  ((List.range 64).map fun i => (n + i) % 64).find? fun p => partOn s p && fenceOf s p == f && sliceOf s p != 0 && hasReady s p f

/-- The crews that a change of slice halts: all that run on the fence's cores for another partition than the next, but for cores that a request has vacated,
which stand outside the slices (R60, R102). -/
def outgoing (s : State) (f : Nat) (next : Option Nat) : List (Nat × Crew) :=
  s.allCrews.filter fun (c, w) => fenceOfDie s (dieOf c) == f && (match heldBy? s c with | some h => !h.vacated | none => true) && !w.halted && !w.ended && next != some w.part

/-- TIME of a fence's lowest die. -/
def fenceTime (s : State) (f : Nat) : Nat := match (fenceDies s f).head? with | some d => (s.timeOf d).toNat | none => 0

/-- The slice of a fence is over: it is ending already, no partition has it, SLICE × 1,024 ticks have passed, or its partition yields the rest (R60). -/
def sliceOver (s : State) (f : Nat) : Bool :=
  s.ending.contains f || match s.slice.get f 0 with
  | 0 => true
  | n + 1 => !partOn s n || !hasReady s n f || decide (s.sliceAt.get f 0 + 1024 * sliceOf s n ≤ fenceTime s f)

/-- The crews that must leave the cores of a fence whose slice is over. -/
def leaving (s : State) (f : Nat) : List (Nat × Crew) := if sliceOver s f then outgoing s f (nextSlice s f (s.slice.get f 0)) else []

/-- A slice end does something now: it is over, and every crew that must leave can stop, or some of them has not begun to. -/
def sliceDue (s : State) (f : Nat) : Bool :=
  sliceOver s f && ((leaving s f).all (fun (c, w) => stoppable s c w) || (leaving s f).any fun (_, w) => !w.halting)

/-- A slice end is due for a core, which comes before a spatial pre-emption, a quiesce and a migration (R61). -/
def sliceFirst (s : State) (core : Nat) : Bool := (leaving s (fenceOfDie s (dieOf core))).any fun x => x.1 == core

/-- A crew begins to stop: its groups issue nothing beyond their next instruction boundary, each at its own (R60). -/
def beginHalt (s : State) (core slot : Nat) : State := s.modCrew core slot fun w => if w.halted || w.ended then w else { w with halting := true }

/-- The crews of the partition that takes a fence run on, where nothing else stops them. -/
def keepRunning (s : State) (f : Nat) (next : Option Nat) : State :=
  (s.allCrews.filter fun (c, w) => fenceOfDie s (dieOf c) == f && (heldBy? s c).isNone && next == some w.part && !w.moving).foldl
    (fun s (c, w) => s.modCrew c w.slot fun w => { w with halting := false }) s

/-- SLICE_END (R60, R61): every group of the outgoing partition stops at its next instruction boundary; when all have, they halt in place, and the next partition
with ready work takes the cores. -/
def execSliceEnd (fence : BitVec 3) (s : State) : Out3 :=
  let f := fence.toNat
  let next := nextSlice s f (s.slice.get f 0)
  let out := leaving s f
  if !sliceOver s f then .next s
  else if !out.all fun (c, w) => stoppable s c w then
    .next { out.foldl (fun s (c, w) => beginHalt s c w.slot) s with ending := if s.ending.contains f then s.ending else f :: s.ending }
  else
    let s1 := keepRunning (out.foldl (fun s (c, w) => haltCrew s c w.slot) s) f next
    .next { s1 with ending := s1.ending.filter (fun x => x != f), slice := s1.slice.put f (match next with | some p => p + 1 | none => 0), sliceAt := s1.sliceAt.put f (fenceTime s f) }

/-! ## Saving a crew (R103, R189) -/

/-- The tiles whose contents are the crew's go to its images (R103). -/
def saveTiles (s : State) (core slot : Nat) : State :=
  match s.crew? core slot with
  | none => s
  | some w =>
    let mine := fun (ph : Nat) => ((s.core core).tiles.getD ph PhysTile.reset).owner == some w.ctxId
    let at_ := fun (ph : Nat) => (s.core core).tiles.getD ph PhysTile.reset
    (s.modCrew core slot fun w =>
      { w with tiles := w.tiles.map fun t => if mine t.phys then { t with saved := some (at_ t.phys).data, poison := (at_ t.phys).poison } else t }).modCore
      core fun k => { k with tiles := k.tiles.map fun t => if t.owner == some w.ctxId then { t with owner := none, current := false } else t }

/-- The groups of a crew that was halted in place keep the survivors of their lanes' points alone once it leaves its core (R103). -/
def keepForSave (s : State) (core slot : Nat) : State :=
  match s.crew? core slot with
  | none => s
  | some w =>
    if !w.halted then s
    else { s.modCrew core slot fun w => { w with groups := w.groups.map fun g => if g.live then { g with m := keepSurvivors s core w g 0, mseed := s.free, mzero := [] } else g } with
           free := s.free + 1 }

/-- A stopped crew with all that it keeps leaves its core; its started commands go on with its scratchpad (R103). -/
def liftCrew (s : State) (core slot : Nat) : State × Option Crew :=
  let s1 := saveTiles (keepForSave s core slot) core slot
  match s1.crew? core slot with
  | none => (s1, none)
  | some w =>
    let k := s1.core core
    let w1 :=
      { w with
        savedGrist := if w.bands != 0 && k.gristPart == w.part && w.savedGrist.isNone then some (k.bandsOfCrew w) else w.savedGrist
        savedBanks := if w.usedCtab && k.bankPart == w.part && w.savedBanks.isNone then some (k.bank0, k.bank1, k.bankSel) else w.savedBanks
        halted := false, halting := false, rows := [], blocks := [], fromL := isL core, lastCore := core, gristOld := [],
        groups := w.groups.map fun g => { g with fwait := match g.fwait with | some (.context _) => none | x => x } }
    ((s1.modCore core fun k => { k with crews := k.crews.filter fun x => x.slot != slot }).modCluster (clusterOf core) fun c =>
      { c with cmds := c.cmds.map fun m => if m.uid == w.uid then { m with image := m.image.or (some { w with groups := [] }) } else m }, some w1)

/-- Queue a resumable record ahead of every fresh record of its queue and bin (R103). -/
def queueSaved (s : State) (d : Nat) (w : Crew) : State :=
  let q : QRec := { part := w.part, pasid := w.pasid, prio := w.prio, bin := binOf w.task.key, task := w.task, root := none, saved := some w, byGen := w.byGen,
                    spilled := false, addr := 0, pkt := none, reset := w.reset }
  let fresh := fun (x : QRec) => x.part == q.part && x.pasid == q.pasid && x.prio == q.prio && x.bin == q.bin && x.saved.isNone
  s.modDie d fun x => { x with queue := x.queue.takeWhile (fun r => !fresh r) ++ [q] ++ x.queue.dropWhile fun r => !fresh r }

/-- A crew can be saved at this moment (R103, R157). -/
def savable (s : State) (core : Nat) (w : Crew) : Bool := stoppable s core w && !w.ended && cmdsClear s core w

/-- Bytes that the save of a crew still has to spill: what a claim or a change of the grist's partition has spilled already is there (R103, R189). -/
def Crew.saveBytes (w : Crew) : Nat :=
  (w.spillBytes - w.lostBytes) + (if w.savedGrist.isSome then 0 else w.bandBytes) + 4096 * (w.tiles.filter fun t => t.saved.isNone).length

/-- Stop a crew and lift it with all that it keeps; where the spill area cannot take it, it takes the save-and-resume cause and stays (R103, R180). -/
def stopAndLift (s : State) (core slot : Nat) (urgent : Bool) : State × Option Crew :=
  let s1 := stopCrew s core slot urgent
  match s1.crew? core slot with
  | none => (s1, none)
  | some w =>
    if w.ended then (s1, none)
    else match spillCause s1 w.part w.saveBytes with
      | some c => (refuseSpill s1 core slot c, none)
      | none => liftCrew s1 core slot

/-- Save a crew (R103). -/
def saveCrew (s : State) (core slot : Nat) (urgent : Bool) : State :=
  match stopAndLift s core slot urgent with
  | (s1, some w) => queueSaved s1 (dieOf core) w
  | (s1, none) => s1

/-! ## Putting a crew on a core (R86, R104, R137) -/

/-- The tiles of a crew on the physical tiles chosen (R86, R190). -/
def placeTiles (w : Crew) (phys : List Nat) : List TileMap := w.tiles.zipIdx.map fun (t, i) => { t with phys := phys.getD i 0 }

/-- Put a saved crew on a core: claims, slot, tiles, context id; its groups run again (R104). -/
def placeCrew (s : State) (core : Nat) (w : Crew) (claims : List Claim) : State :=
  let s1 := claims.foldl (fun s c => claimCrew s core c) s
  let slot := (pickSlot (s1.core core) w.part (isL core)).getD 0
  let s2 := evict s1 core slot
  let k := s2.core core
  let w1 :=
    { w with
      slot := slot, home := slot, tiles := placeTiles w (pickTiles k w.part w.task.acc), ctxId := k.freshCtx, moving := false, moveAt := none, resid := 0, charged := none,
      fromL := isL core, lastCore := core, groups := w.groups.map Group.wake }
  let s3 := s2.modCore core fun k => { k with crews := k.crews ++ [w1], ctxNext := k.freshCtx + 1 }
  let s4 := standAgain (takeStorage s3 core slot) core slot
  w1.groups.foldl (fun s g => pendingTrap s core slot g.gid) s4

/-! ## Mapping to the other core type (R134, R137) -/

/-- The word at an offset of an encoding is an se that names a point, read through the IF path of the core that the crew leaves. -/
def seAt (s : State) (w : Crew) (base : Dword) (off e : Nat) : Bool :=
  match s.devCheck (clusterOf w.lastCore) w.part w.pasid.toNat (base + BitVec.ofNat 64 (8 * off)) 8 .fetch true false with
  | .ok pa => (match seIdOf (s.dev64 pa) with | some i => i.toNat == e | none => false)
  | .err _ => false

/-- The check of one equivalence point before any survivor moves (R137, step 3). -/
def pointGood (s : State) (w : Crew) (e : Nat) : Bool :=
  match eqPoint? s w.part w.pasid.toNat w.code w.task.regs e (clusterOf w.lastCore) with
  | none => false
  | some p => seAt s w w.code.dbase p.off e && seAt s w w.code.lbase p.off e

/-- Every point that the map step uses passes. The core tells which encoding the crew has left. -/
def pointsGood (s : State) (core : Nat) (w : Crew) : Bool :=
  w.groups.all fun g => !g.live || (lanePoints s core w g).all fun (m, e) => m == 0 || match e with | some e => pointGood s w e | none => false

/-- The M registers of a group moved to the other encoding's indices; the rest hold free values (R137, step 3). -/
def mapGroup (s : State) (core : Nat) (w : Crew) (g : Group) : Group :=
  let toD := isL core
  let moves := (lanePoints s core w g).flatMap fun (m, e) =>
    match e.bind (fun e => eqPoint? s w.part w.pasid.toNat w.code w.task.regs e (clusterOf w.lastCore)) with
    | some p => p.pairs.map fun (d, l) => if toD then (m, l, d) else (m, d, l)
    | none => []
  let m := (List.range (32 * w.task.regs)).filterMap fun i =>
    let mine := moves.filter fun (_, _, dst) => dst == i
    if mine.isEmpty then none
    else some (i, mine.foldl (fun v (mk, src, _) => mergeLanes mk (g.readM src) v) (ofLanes fun x => Config.freeWord s.free i x))
  { g with m := m, mseed := s.free }

/-- A crew that has left a core, mapped to the other type. -/
def mapCrew (s : State) (core : Nat) (w : Crew) : Crew :=
  { w with groups := w.groups.map fun g => if g.live then mapGroup s core w g else g }

/-! ## Spatial pre-emption (R101 to R104) -/

/-- The registers of a request that a write sets. -/
def spreFields (val : Dword) : Dword := maskNat val 0x11FE00000000007F

/-- SPRE.GO. -/
def spreGo (x : Die) : Bool := x.spre.getLsbD 63

/-- The cores of a die that a request may take (R102). -/
def spreEligible (s : State) (d : Nat) (l : Bool) : List Nat :=
  ((List.range 96).map fun i => 96 * d + i).filter fun c => isL c == l && !(s.core c).withdrawn && (heldBy? s c).isNone

/-- Rank of a core: no resident crew, then resident groups that have not ended, then the core number of its type (R102). -/
def spreBefore (s : State) (a b : Nat) : Bool :=
  let key := fun (c : Nat) =>
    let ws := (s.core c).crews
    [bit !ws.isEmpty, ws.foldl (fun n w => n + (w.groups.filter fun g => g.live).length) 0, typeNum c]
  decide (key a < key b)

/-- Insert a core by rank. -/
def insertCore (s : State) (c : Nat) : List Nat → List Nat
  | [] => [c]
  | x :: t => if spreBefore s c x then c :: x :: t else x :: insertCore s c t

/-- SPRE_REQUEST (R102): a write with GO = 1 is refused, or chooses its cores. DESIGN CHOICE (log 82): a refusal sets ERR and leaves DONE and the fields of the
request before as they are, since R101 says that nothing was changed and R102 clears DONE on a write with GO = 0 alone. -/
def execSpreRequest (die : BitVec 3) (val : Dword) (s : State) : Out3 :=
  let d := die.toNat
  if spreGo (s.die d) || !val.getLsbD 63 then .next s
  else
    let n := bits val 6 0
    let l := val.getLsbD 56
    let p := bits val 55 50
    let v := val.getLsbD 49
    let el := spreEligible s d l
    let f := spreFields val
    if n == 0 || decide ((if l then 24 else 72) < n) || decide (el.length < n) || (v && !(partOn s p && fenceOf s p == fenceOfDie s d)) then
      .next (s.modDie d fun x => { x with spre := setBits x.spre 61 61 1 })
    else
      let chosen := (el.foldr (insertCore s) []).take n
      let s1 := s.modDie d fun x =>
        { x with spre := setBits f 63 63 1, sprc0 := 0, sprc1 := 0,
                 held := x.held ++ chosen.map fun c => ⟨c, if v then some p else none, false⟩ }
      .next ((s1.allCrews.filter fun (c, _) => chosen.contains c).foldl (fun s (c, w) => beginHalt s c w.slot) s1)

/-- SPRE_DONE (R102, R103): the cores of the request are vacated, after a slice end that is due (R61). -/
def execSpreDone (die : BitVec 3) (s : State) : Out3 :=
  let d := die.toNat
  let x := s.die d
  let cores := (x.held.filter fun h => !h.vacated).map (·.core)
  let on := fun (s : State) => s.allCrews.filter fun (c, _) => cores.contains c
  let s0 := if spreGo x then ((on s).filter fun (c, w) => stoppable s c w).foldl (fun s (c, w) => killDoomed s c w.slot) s else s
  let crews := on s0
  if !spreGo x || cores.any (sliceFirst s0) || !crews.all fun (c, w) => savable s0 c w then .next s0
  else
    let s1 := crews.foldl (fun s (c, w) => saveCrew s c w.slot (x.spre.getLsbD 60)) s0
    let vac := cores.foldl (fun a c => a + 2 ^ typeNum c) 0
    .next (s1.modDie d fun x =>
      { x with spre := setBits (setBits x.spre 63 63 0) 62 62 1, sprc0 := BitVec.ofNat 64 vac, sprc1 := BitVec.ofNat 64 (vac / 2 ^ 64),
               held := x.held.map fun h => { h with vacated := true } })

/-- SPRE_RELEASE (R102): a write with GO = 0 releases every core that a request holds on the die. -/
def execSpreRelease (die : BitVec 3) (val : Dword) (s : State) : Out3 :=
  let d := die.toNat
  if spreGo (s.die d) || val.getLsbD 63 then .next s
  else .next (s.modDie d fun x => { x with spre := setBits x.spre 62 61 0, held := [] })

/-! ## Migration (R66, R68, R137) -/

/-- A group that waits, is parked at a barrier or on a fault, and so stops at once (R137, step 1). In handler mode only the handler's splits count. -/
def stopsAtOnce (w : Crew) (g : Group) : Bool :=
  g.fwait.isSome || (g.splits.filter fun p => g.handler.isNone || p.hnd).all fun p => w.splitWaits p || p.parked.isSome

/-- A core that heat allows a crew to move to (R66). -/
def coolFor (s : State) (core target : Nat) (w : Crew) : Bool :=
  decide ((s.core target).temp + 4 ≤ (s.core core).temp) && (bindable s target w.part w.task w.code).isSome

/-- The cores of a core's die. -/
def dieCores (core : Nat) : List Nat := (List.range 96).map fun i => 96 * dieOf core + i

/-- A core that a crew may move to: one of the other type on a pending request, or one that heat allows, of the same type if one qualifies (R66, R137). hot says
that heat is a reason to move the crew. -/
def goodTarget (s : State) (core target : Nat) (w : Crew) (hot : Bool) : Bool :=
  let other := isL target != isL core
  core != target && dieOf core == dieOf target && (bindable s target w.part w.task w.code).isSome
    && ((w.migr && other)
        || (hot && coolFor s core target w
            && (!other || (w.pinned.isNone && !(dieCores core).any fun c => c != core && isL c == isL core && coolFor s core c w))))

/-- The core is above THOT, and the crew has run on it for 1 ms (R66). -/
def heatMoves (s : State) (core : Nat) (w : Crew) : Bool :=
  decide (bits (s.die (dieOf core)).therm 7 0 < (s.core core).temp) && decide (250000 ≤ w.resid)

/-- A migration from a core to another may begin (R66, R137). -/
def mayMigrate (s : State) (core target : Nat) (w : Crew) : Bool := goodTarget s core target w (heatMoves s core w)

/-- The groups that stop at once for a move do so (R137, step 1). -/
def stopWaiters (s : State) (core slot : Nat) : State :=
  match s.crew? core slot with
  | none => s
  | some w =>
    (w.groups.filter fun g => g.live && !g.stopped && stopsAtOnce w g && mayInterrupt s core slot g.gid g && g.pendTrap.isNone).foldl
      (fun s g => stopForMove s core slot g.gid none) s

/-- Begin to stop a crew's groups for a move within its type, each at its next instruction boundary, as spatial pre-emption does (R66). -/
def beginShift (s : State) (core slot : Nat) : State := beginHalt (s.modCrew core slot fun w => { w with moving := true }) core slot

/-- Begin to stop a crew's groups for a move to the other type (R137, step 1). -/
def beginMove (s : State) (core slot : Nat) : State :=
  let cyc := (catchUp s core (s.core core)).cyc
  stopWaiters (s.modCrew core slot fun w =>
    { w with moving := true, moveAt := some cyc, groups := w.groups.map fun g => if g.live && !g.stopped then { g with migStop := true } else g }) core slot

/-- A stopped crew runs on where it stands, after a migration that is not made. -/
def runOn (s : State) (core slot : Nat) : State :=
  standAgain (s.modCrew core slot fun w =>
    { w with moving := false, moveAt := none,
             groups := w.groups.map fun g => { g.wake with fwait := match g.wake.fwait with | some (.context _) => none | x => x } }) core slot

/-- The groups run on where they stand, after a migration that has begun and found no core: the crew's Tun work has not been stopped. -/
def stayHere (s : State) (core slot : Nat) : State :=
  s.modCrew core slot fun w =>
    { w with moving := false, halting := false, moveAt := none,
             groups := w.groups.map fun g =>
               if g.stopped then { g.wake with fwait := match g.wake.fwait with | some (.context _) => none | x => x } else { g with migStop := false } }

/-- A migration is undone, since a point is not good (R137, step 3). -/
def undoMove (s : State) (core slot : Nat) : State :=
  runOn (s.modCrew core slot fun w => { w with migr := false, pinned := some (isL core) }) core slot

/-- Move a stopped crew: save, map where the type differs, bind to the target (R137). A move to the other type has met a request for it. -/
def moveCrew (s : State) (core slot target : Nat) (claims : List Claim) : State :=
  let s1 := stopCrew s core slot false
  let other := isL target != isL core
  match s1.crew? core slot with
  | none => s1
  | some w =>
    if other && !pointsGood s1 core w then undoMove s1 core slot
    else
      match stopAndLift s1 core slot false with
      | (s2, some v) =>
        placeCrew { s2 with free := s2.free + 1 } target (if other then { mapCrew s1 core v with migr := false } else v) claims
      | (s2, none) => s2

/-- The crew of a move that has begun can leave its core: for the other type all its groups have stopped. -/
def canLeave (s : State) (core : Nat) (w : Crew) : Bool := savable s core w && (w.halting || w.groups.all fun g => !g.live || g.stopped)

/-- MIGRATION (R137, R66, R68): a crew of a withdrawn core is saved; a move stops the groups, for the other type at their next se, else at their next instruction
boundary, and is made when all have stopped. Where no core is left to move to, the crew runs on. A slice end, a spatial pre-emption and a quiesce that are due
come first (R61). -/
def execMigration (core crew target : Nat) (s : State) : Out3 :=
  match s.crew? core crew with
  | none => .next s
  | some w =>
    if w.halted || w.killed || w.ended || sliceFirst s core || (w.groups.any fun g => g.live && groupDoomed s core w g) then .next s
    else if (s.core core).withdrawn then
      if savable s core w then .next (saveCrew s core crew false) else .next (beginHalt s core crew)
    else if (heldBy? s core).isSome || changePending s core then .next s
    else if w.moving then
      let s1 := if w.halting then s else stopWaiters s core crew
      let w1 := (s1.crew? core crew).getD w
      let hot := heatMoves s core w1
      if !canLeave s1 core w1 then .next s1
      else if goodTarget s1 core target w1 hot && !(w1.halting && isL target != isL core) then
        .next (moveCrew s1 core crew target ((bindable s1 target w1.part w1.task w1.code).getD []))
      else if (dieCores core).any fun c => goodTarget s1 core c w1 hot && !(w1.halting && isL c != isL core) then .next s1
      else .next (stayHere s1 core crew)
    else if !mayMigrate s core target w then .next s
    else if isL target != isL core then .next (beginMove s core crew)
    else if savable s core w then .next (moveCrew s core crew target ((bindable s target w.part w.task w.code).getD []))
    else .next (beginShift s core crew)

/-- A group that is to stop for a migration has reached no se within 65,536 cycles, and may stop. -/
def moveDue (s : State) (core : Nat) (w : Crew) (g : Group) : Bool :=
  g.live && g.migStop && cyclesGone s core w.moveAt && mayInterrupt s core w.slot g.gid g && g.pendTrap.isNone

/-- MIGRATION_STOP_TIMEOUT (R137): a group that has reached no se within 65,536 cycles stops at an instruction boundary. -/
def execMigrationStopTimeout (core crew gid : Nat) (s : State) : Out3 :=
  match s.crew? core crew with
  | none => .next s
  | some w =>
    match w.group? gid with
    | none => .next s
    | some g => if moveDue s core w g then .next (stopForMove s core crew gid none) else .next s

/-! ## The context sequencer (R190) -/

/-- The groups of a crew that wait for a tile. -/
def tileWaiters (w : Crew) (t : Nat) : List Nat := (w.groups.filter fun g => g.live && g.fwait == some (.context [t])).map (·.gid)

/-- The crew whose context a tile holds, with the place of the tile among its own. -/
def tileOwner (k : Core) (ph : Nat) : Option (Crew × Nat) :=
  match (k.tiles.getD ph PhysTile.reset).owner with
  | none => none
  | some o => (k.crews.find? fun w => w.ctxId == o).bind fun w =>
      ((List.range w.tiles.length).find? fun i => (w.tiles.map (·.phys))[i]? == some ph).map fun i => (w, i)

/-- The owner's rows go to its spill image, unless that is current (R190). -/
def spillTile (s : State) (core ph : Nat) : State :=
  let t := (s.core core).tiles.getD ph PhysTile.reset
  match tileOwner (s.core core) ph with
  | none => s
  | some (o, i) =>
    if t.current then s
    else s.modCrew core o.slot fun w =>
      { w with tiles := w.tiles.zipIdx.map fun (m, j) => if j == i then { m with saved := some t.data, poison := t.poison } else m }

/-- Why the tile's present context cannot be spilled: its area is not owned, or has no room for a first image (R190). -/
def switchOut (s : State) (core crew ph : Nat) : Option Byte :=
  match tileOwner (s.core core) ph with
  | none => none
  | some (o, i) =>
    if o.slot == crew || ((s.core core).tiles.getD ph PhysTile.reset).current then none
    else spillCause s o.part (match o.tiles[i]? with | some m => if m.saved.isSome then 0 else 4096 | none => 0)

/-- Why a tile cannot be filled from its image: the area that holds it is not owned (R190). -/
def switchIn (s : State) (w : Crew) (t : Nat) : Option Byte :=
  match w.tiles[t]? with
  | some m => if m.saved.isSome && !s.ownsFrame w.part (sysFrame s w.part * 2 ^ 30) then some 0x99 else none
  | none => none

/-- ACCUMULATOR_SWITCH (R190): spill, zero or fill, ownership; the strands that waited re-run. A tile that is armed and not complete stays. -/
def execAccumulatorSwitch (core crew : Nat) (tile : BitVec 2) (s : State) : Out3 :=
  let t := tile.toNat
  match s.crew? core crew with
  | none => .next s
  | some w =>
    let ph := w.phys t
    let k := s.core core
    let busy := match tileOwner k ph with | some (o, i) => o.slot != crew && o.armedOpen i | none => false
    if (tileWaiters w t).isEmpty || busy || w.halted then .next s
    else
      match (switchOut s core crew ph).or (switchIn s w t) with
      | some _ => .next ((tileWaiters w t).foldl (fun s g => unhandled s core crew g 0x39 0) s)
      | none =>
        let m := w.tiles[t]?
        let s1 := if (k.tiles.getD ph PhysTile.reset).owner == some w.ctxId then s
          else (spillTile s core ph).modCore core fun k =>
            { k with tiles := vmod k.tiles ph fun _ =>
                { data := ((m.bind fun m => m.saved).getD zeroTile), owner := some w.ctxId, poison := m.bind fun m => m.poison,
                  current := (m.bind fun m => m.saved).isSome } }
        .next ((tileWaiters w t).foldl (fun s g => s.modGroup core crew g fun g => { g with fwait := none }) s1)

end Sys2Proof.Machine
end

