-- ==== Sys2Proof/Machine/Sched.lean ====
section
/-!
DEFINITION. Launches and their tile generators (R78 to R80), the choice of a record (R60, R83), its binding (R73, R86, R104), and work stealing (R84).
-/
namespace Sys2Proof.Machine

/-! ## Placement of steps (R80) -/

/-- A core that is idle for a partition (R80). -/
def idleCore (s : State) (p core : Nat) : Bool :=
  (s.core core).crews.isEmpty && !(s.core core).withdrawn && !(s.die (dieOf core)).rsw.getLsbD (24 + clusterInDie core)
    && (match heldBy? s core with | some h => h.forPart.isNone || h.forPart == some p | none => true)

/-- The cores of a die. -/
def coresOf (d : Nat) : List Nat := (List.range 96).map fun i => 96 * d + i

/-- The fence's dies in the order in which a launch uses them. -/
def rankDies (s : State) (p home : Nat) : List Nat :=
  (List.range 5).flatMap fun n => (fenceDies s (fenceOf s p)).filter fun d => links home d == n

/-- The dies of a fence that have an idle core for a template; the home die always counts. -/
def idleDies (s : State) (l : Launch) : Nat :=
  ((fenceDies s (fenceOf s l.part)).filter fun d => d == l.home || (coresOf d).any fun c => typeOk l.task l.code (isL c) && idleCore s l.part c).length

/-- The shares of a step by die (R79, R80). -/
def stepSlots (s : State) (l : Launch) (step : Nat) : List Slot :=
  let len := l.ext.steplen.toNat
  let t := min ((step + 1) * len) l.ext.tiles - step * len
  let n := min l.ext.dmax.toNat (max l.ext.dmin.toNat (idleDies s l))
  ((rankDies s l.part l.home).take n).zipIdx.map fun (d, j) => ⟨d, step * len + j * t / n, step * len + (j + 1) * t / n⟩

/-! ## Launch ids and starts (R78, R79) -/

/-- The next launch id, from a count on: not 0, and not that of a live launch of the partition. -/
def launchId (s : State) (p : Nat) : Nat → Word → Word
  | 0, n => n
  | f + 1, n => if n == 0 || (s.launch? p n).isSome then launchId s p f (n + 1) else n

/-- Start a launch on its home die. -/
def startLaunch (s : State) (p : Nat) (pasid : BitVec 20) (task : TaskRec) (ext : RootExt) (home : Nat) (pkt : Option Nat) : State :=
  let id := launchId s p (s.launches.length + 2) (s.part p).nextLaunch
  let l : Launch :=
    { part := p, id := id, pasid := pasid, task := task, ext := ext, code := readCode s p pasid.toNat task.code (96 + home), home := home, step := 0, slots := [], alive := 0,
      stopped := false, last := false, retired := 0, exc := 0, energy := 0, ran := false, trap := none, pkt := pkt }
  { s.modPart p fun q => { q with nextLaunch := id + 1 } with launches := s.launches ++ [{ l with slots := stepSlots s l 0 }] }

/-! ## Generated records (R79) -/

/-- The record of tile i of a launch. -/
def tileRec (l : Launch) (i : Nat) : TaskRec :=
  let nx := l.ext.nxm.toNat + 1
  let ny := l.ext.nym.toNat + 1
  let x := i % nx
  let y := i / nx % ny
  let z := i / nx / ny
  { code := l.task.code, args := l.task.args, tile := BitVec.ofNat 64 (l.step * 2 ^ 48 + z * 2 ^ 32 + y * 2 ^ 16 + x), succ := 0,
    scope := setBits l.task.scope 20 20 0, energy := l.code.genergy, peak := l.code.gpeak,
    key := l.ext.keybase + BitVec.ofNat 64 x * l.ext.ksx + BitVec.ofNat 64 y * l.ext.ksy + BitVec.ofNat 64 z * l.ext.ksz, shape := l.task.shape,
    launch := l.id, rsvd := 0 }

/-- Records of a launch that are generated and not yet bound on a die. -/
def unbound (s : State) (d p : Nat) (id : Word) : Nat :=
  ((s.die d).queue.filter fun q => q.part == p && q.byGen && q.saved.isNone && q.task.launch == id).length

/-- GENERATE_RECORD (R71, R79): the next tile of a slot becomes a record on the slot's die. A record whose descriptor has become malformed is counted and not
queued; it has no address, so FADDR is zero (log 53). The record crosses the fabric from the home die (log 76). -/
def execGenerateRecord (p : BitVec 6) (launch : Word) (slot : Nat) (s : State) : Out3 :=
  let q := p.toNat
  match s.launch? q launch with
  | none => .next s
  | some l =>
    match l.slots[slot]? with
    | none => .next s
    | some x =>
      let made := fun (l : Launch) => { l with slots := l.slots.zipIdx.map fun (y, j) => if j == slot then { y with next := y.next + 1 } else y }
      if l.stopped || !dieRoute s l.home x.die || x.stop ≤ x.next || 64 ≤ unbound s x.die q launch || !s.queueRoom x.die q then .next s
      else if taskBad s q l.pasid.toNat (tileRec l x.next) (96 + x.die) then .next ((s.modLaunch q launch made).countFault q launch x.die 0x88 0)
      else .next ((s.enqueue x.die q l.pasid (tileRec l x.next) none true 0).modLaunch q launch fun l => { made l with alive := l.alive + 1 })

/-- The add at STEPCTR, with what its fault leaves (R79, R99). A reset of the partition has taken the counter from its launches (R58). -/
def stepAdd (s : State) (l : Launch) : State :=
  if l.ext.stepctr == 0 then s
  else match s.devAdd l.part l.pasid l.ext.stepctr 1 none none (96 + l.home) with
    | (s1, none) => s1
    | (s1, some e) => s1.countFault l.part l.id l.home (e.code 0x50) l.ext.stepctr

/-- STEP_BOUNDARY (R79): every crew of the step has retired or been killed. -/
def execStepBoundary (p : BitVec 6) (launch : Word) (s : State) : Out3 :=
  let q := p.toNat
  match s.launch? q launch with
  | none => .next s
  | some l =>
    if l.stopped || l.alive != 0 || l.slots.any fun x => decide (x.next < x.stop) then .next s
    else
      let s1 := stepAdd s l
      if l.last || l.ext.steps ≤ l.step + 1 then .next ((s1.modLaunch q launch fun l => { l with stopped := true }).freeScopes q)
      else .next (s1.modLaunch q launch fun l => { l with step := l.step + 1, slots := stepSlots s1 l (l.step + 1) })

/-! ## The order of a queue (R60, R83) -/

/-- A ready queue: partition, PASID and priority. -/
abbrev QKey := Nat × BitVec 20 × Nat

/-- The queue of a record. -/
def QRec.key (q : QRec) : QKey := (q.part, q.pasid, q.prio)

/-- The records of a queue, oldest first. -/
def queueOf (x : Die) (k : QKey) : List QRec := x.queue.filter fun q => q.key == k

/-- The place of a queue: that of its first use is the bin of its oldest record. -/
def qstateOf (x : Die) (k : QKey) : QState :=
  match x.qstate.find? fun y => (y.part, y.pasid, y.prio) == k with
  | some y => y
  | none => { part := k.1, pasid := k.2.1, prio := k.2.2, bin := ((queueOf x k).head?.map (·.bin)).getD 0, run := 0, last := [] }

/-- The bins of a queue that hold records, ascending from a bin, wrapping. -/
def binsFrom (x : Die) (k : QKey) (b : Nat) : List Nat := ((List.range 64).map fun i => (b + i) % 64).filter fun c => (queueOf x k).any fun q => q.bin == c

/-- A queue's place with its current bin: the next non-empty one when the bin is empty or 4,096 records in a row have come from it. -/
def currentBin (x : Die) (k : QKey) : QState :=
  let y := qstateOf x k
  if 4096 ≤ y.run then { y with bin := (binsFrom x k (y.bin + 1)).headD y.bin, run := 0 }
  else match (binsFrom x k y.bin).head? with
    | some b => if b == y.bin then y else { y with bin := b, run := 0 }
    | none => y

/-- The oldest record of each bin of a queue, from the current bin on. -/
def heads (x : Die) (k : QKey) : List QRec := (binsFrom x k (currentBin x k).bin).filterMap fun b => (queueOf x k).find? fun q => q.bin == b

/-- The priorities of a PASID's queues, highest first. -/
def prios (x : Die) (p : Nat) (pasid : BitVec 20) : List Nat :=
  (((List.range 16).map fun i => 15 - i).filter fun n => x.queue.any fun q => q.key == (p, pasid, n))

/-- The weight of a PASID in its partition's table (R57, R60); 1 where the table has no entry for it. An entry whose reserved bits are not zero, or that is
poisoned, counts as empty (log 77). -/
def weightOf (s : State) (p : Nat) (pasid : BitVec 20) : Nat :=
  let base := sysFrame s p * 2 ^ 30
  if !s.ownsFrame p base then 1
  else
    let es := ((List.range 256).filter fun i => !s.devPoisoned (base + 4 * i) 4).map fun i => s.devRead (base + 4 * i) 4
    match es.find? fun e => e % 256 != 0 && e / 256 == pasid.toNat with
    | some e => e % 256
    | none => 1

/-- The round of a die over the partitions and PASIDs that have records, the one served first: those that join it go last, with their weight as their deficit;
those without a record leave it (R60; log 52). -/
def roundOf (s : State) (d : Nat) : List (Nat × BitVec 20 × Nat) :=
  let x := s.die d
  let keys := (x.queue.map fun q => (q.part, q.pasid)).eraseDups
  let here := x.drr.filter fun e => keys.contains (e.1, e.2.1)
  here ++ (keys.filter fun k => !here.any fun e => (e.1, e.2.1) == k).map fun k => (k.1, k.2, weightOf s k.1 k.2)

/-- The round after a record of a PASID has been taken: each costs one of its deficit, and one whose deficit is used up goes last, with its weight again. -/
def roundAfter (s : State) (d p : Nat) (pasid : BitVec 20) : List (Nat × BitVec 20 × Nat) :=
  let r := roundOf s d
  match r.find? fun e => e.1 == p && e.2.1 == pasid with
  | none => r
  | some (_, _, n) =>
    if n ≤ 1 then r.filter (fun e => !(e.1 == p && e.2.1 == pasid)) ++ [(p, pasid, weightOf s p pasid)]
    else r.map fun e => if e.1 == p && e.2.1 == pasid then (p, pasid, n - 1) else e

/-- The records that the dispatcher tries, in order. -/
def tries (s : State) (d : Nat) : List QRec :=
  (roundOf s d).flatMap fun (p, ps, _) => (prios (s.die d) p ps).flatMap fun r => heads (s.die d) (p, ps, r)

/-! ## The choice of a core (R86) -/

/-- The class with the largest MIX share; ties go to the shorter class. -/
def dominant (c : CodeDesc) : Nat :=
  let m := fun (i : Nat) => bits c.mix (8 * i + 7) (8 * i)
  (List.range 4).foldl (fun b i => if m b < m i then i else b) 0

/-- The criteria of R86 for a core, the smaller the better. -/
def coreKey (s : State) (y : QState) (q : QRec) (c : CodeDesc) (core : Nat) : List Nat :=
  let pref := decide (128 ≤ bits c.mix 23 16 + bits c.mix 31 24)
  let ws := (s.core core).crews
  [if q.task.aff == 0 then bit (isL core != pref) else 0,
   match y.last.find? fun e => e.1 == q.bin with | some (_, cl) => bit (cl != clusterOf core) | none => 0,
   bit (!ws.all fun w => dominant w.code == dominant c),
   ws.foldl (fun n w => n + (w.groups.filter fun g => g.live).length) 0,
   typeNum core]

/-- The core with the smallest key. -/
def bestCore (s : State) (y : QState) (q : QRec) (c : CodeDesc) : List (Nat × List Claim) → Option (Nat × List Claim)
  | [] => none
  | x :: t =>
    match bestCore s y q c t with
    | none => some x
    | some z => if decide (coreKey s y q c z.1 < coreKey s y q c x.1) then some z else some x

/-- The core to which a record binds now, with the crews to claim. -/
def chooseCore (s : State) (d : Nat) (q : QRec) : Option (Nat × List Claim) :=
  let c := match q.saved with | some w => w.code | none => readCode s q.part q.pasid.toNat q.task.code (96 + d)
  let pin := match q.saved with | some w => w.pinned | none => none
  bestCore s (currentBin (s.die d) q.key) q c ((coresOf d).filterMap fun core =>
    if (match pin with | some l => l == isL core | none => true) then (bindable s core q.part q.task c).map fun cs => (core, cs) else none)

/-! ## A fresh crew (R73, R110) -/

/-- A group of a fresh crew. Its M registers are zero in the units that another partition has used last, and hold free values in the others (R59; log 3). -/
def freshGroup (seed : Nat) (args : Dword) (off : Pcoff) (zero : List Nat) (g : Nat) : Group :=
  { gid := g, live := true, s := Vector.ofFn fun i => if i.val = 0 then args else 0, k := Vector.replicate 8 0, m := [], mseed := seed, mzero := zero,
    o := Vector.replicate 16 zeroLanes, x := Vector.replicate 4 zeroLanes, seq := 0, flags := 0, ctx := 0, frec := FaultRec.zero, handler := none,
    pendTrap := none, heldTraps := [], trapAt := 0,
    splits := [{ num := 0, pc := off, mask := BitVec.allOnes 32, ent := off, ep := 0, closed := false, fused := false, barWait := none, waiting := none,
                 parked := none, relIds := [], acqIds := [], view := [], oldSpec := none, hnd := false, atSe := none, stale := 0, rerun := false, past := [],
                 tunPast := [] }],
    stack := [], outs := [], fwait := none, openToken := none, arrived := Vector.replicate 8 0, doomed := false, migStop := false, stopped := false, walkOut := none,
    holdUntil := 0 }

/-- DOFF of equivalence point 0 (R73). -/
def entryOff (s : State) (core p pasid : Nat) (c : CodeDesc) (regs : Nat) : Pcoff :=
  match eqPoint? s p pasid c regs 0 (clusterOf core) with
  | some e => BitVec.ofNat 54 e.off
  | none => 0

/-- The storage of a fresh crew: the units and KiB that it takes, which of the units are zeroed, and whether its scratchpad is (R59). -/
structure Storage where
  rows : List Nat
  blocks : List Nat
  zero : List Nat
  spad : Bool

/-- Another partition than p has used a unit last (R59); one that nobody has used since module reset is not zeroed. -/
def otherUsed (m : SMap Nat) (p u : Nat) : Bool := m.get u 0 != 0 && m.get u 0 != p + 1

/-- The storage that a fresh crew takes on a core after the claims. -/
def storageOf (s : State) (core p : Nat) (t : TaskRec) : Storage :=
  let rs := pickRows s core t.units
  let bs := pickBlocks s core t.spad
  { rows := rs, blocks := bs, zero := rs.filter (otherUsed (s.core core).rowLast p), spad := bs.any (otherUsed (s.core core).blockLast p) }

/-- The units of a group that are zero. -/
def Storage.zeroUnits (z : Storage) (t : TaskRec) (g : Nat) : List Nat :=
  (List.range t.regs).filter fun j => match z.rows[g * t.regs + j]? with | some u => z.zero.contains u | none => false

/-- A crew as it is bound (R73). Names from n on are free for its groups' values. -/
def freshCrew (n uid core slot : Nat) (ctx : BitVec 14) (phys : List Nat) (z : Storage) (q : QRec) (c : CodeDesc) (off : Pcoff) : Crew :=
  { slot := slot, part := q.part, pasid := q.pasid, task := q.task, code := c, prio := q.prio, home := slot, round := 0,
    groups := (List.range q.task.grp).map fun g => freshGroup (n + g) q.task.args off (z.zeroUnits q.task g) g,
    bars := Vector.replicate 8 ⟨0, [], none⟩, spad := [], spadSeed := n, spadZero := z.spad, spadPoison := [], pub := 0, take := 0, started := [], flags := 0,
    migr := false, tiles := phys.map fun t => ⟨t, none, none, none⟩, bands := 0, gristOld := [], savedGrist := none, usedCtab := false, savedBanks := none, byGen := q.byGen,
    rows := z.rows, blocks := z.blocks, halted := false, halting := false, haltNo := 0, killed := false, reset := q.reset, killAt := none, moveAt := none, moving := false, resid := 0, charged := none,
    fromL := isL core, wantPaddle := false, cont := [], ctxId := ctx, uid := uid, lastCore := core, pinned := none }

/-- A crew of a partition, and of a launch, has been bound (R62). -/
def State.ranFor (s : State) (q : QRec) : State := (s.workOf q.part).modLaunch q.part q.task.launch fun l => { l with ran := true }

/-- Put a fresh crew on a core (R73, R86). -/
def bindFresh (s : State) (core : Nat) (q : QRec) (claims : List Claim) : State :=
  let s1 := claims.foldl (fun s c => claimCrew s core c) s
  let slot := (pickSlot (s1.core core) q.part (isL core)).getD 0
  let s2 := evict s1 core slot
  let k := s2.core core
  let c := readCode s q.part q.pasid.toNat q.task.code (96 + dieOf core)
  let z := storageOf s2 core q.part q.task
  let w := freshCrew s2.free s2.nextId core slot k.freshCtx (pickTiles k q.part q.task.acc) z q c (entryOff s core q.part q.pasid.toNat c q.task.regs)
  chargeCrew ({ s2.setCore core { k with crews := k.crews ++ [w], ctxNext := k.freshCtx + 1, rowLast := usedBy k.rowLast z.rows q.part,
                                           blockLast := usedBy k.blockLast z.blocks q.part } with free := s2.free + q.task.grp + 2, nextId := s2.nextId + 1 }.ranFor q) core slot

/-! ## DISPATCH_BIND (R83, R86, R104) -/

/-- Remove the first record of a queue's bin. -/
def dropRec : List QRec → QRec → List QRec
  | [], _ => []
  | x :: t, q => if x.key == q.key && x.bin == q.bin then t else x :: dropRec t q

/-- A poisoned word of a partition's weight table, which the dispatcher reads, starts its row test (R68, R192). -/
def testWeights (s : State) (p : Nat) : State :=
  let base := sysFrame s p * 2 ^ 30
  if s.ownsFrame p base && s.devPoisoned base 1024 then s.startTest (base / 4096) else s

/-- A record leaves its queue for a core, or starts its launch: the queue's place moves on (R83, R86). -/
def tookRec (s : State) (d : Nat) (q : QRec) (cluster : Option Nat) : State :=
  (testWeights s q.part).modDie d fun x =>
    let y := currentBin x q.key
    let y1 := { y with
      run := if q.bin == y.bin then y.run + 1 else y.run
      last := match cluster with | some c => (q.bin, c) :: y.last.filter (fun e => e.1 != q.bin) | none => y.last }
    { x with queue := dropRec x.queue q, drr := roundAfter s d q.part q.pasid, qstate := y1 :: x.qstate.filter fun z => (z.part, z.pasid, z.prio) != q.key }

/-- Bind a saved crew: to the other type only through its equivalence points, and not at all where one of them fails (R104, R137). -/
def bindSaved (s : State) (d core : Nat) (q : QRec) (w : Crew) (claims : List Claim) : State :=
  let left := 96 * d + (if w.fromL then 6 else 0)
  if isL core == w.fromL then placeCrew (tookRec s d q (some (clusterOf core))) core w claims
  else if pointsGood s left w then
    placeCrew { tookRec s d q (some (clusterOf core)) with free := s.free + 1 } core (mapCrew s left w) claims
  else s.modDie d fun x =>
    { x with queue := modFirst x.queue (fun y => y.key == q.key && y.bin == q.bin) fun y =>
        { y with saved := some { w with pinned := some w.fromL, migr := false } } }

/-- What becomes of one record, if it can leave its queue now; one whose scope is cancelled on the die is discarded (R87). -/
def tryRec (s : State) (d : Nat) (q : QRec) : Option State :=
  if s.cancelledOn q.part d 15 q.task.scopeId then
    some ((discardRec (s.modDie d fun x => { x with queue := dropRec x.queue q }) d q).freeScopes q.part)
  else match q.root, q.saved with
  | some e, _ => some (startLaunch (tookRec s d q none) q.part q.pasid q.task e d q.pkt)
  | none, sv =>
    match chooseCore s d q with
    | none => none
    | some (core, cs) =>
      match sv with
      | some w => some (bindSaved s d core q w cs)
      | none => some (bindFresh (tookRec s d q (some (clusterOf core))) core q cs)

/-- DISPATCH_BIND (R83, R86): the first record in the dispatcher's order that can leave its queue does. -/
def execDispatchBind (die : BitVec 3) (s : State) : Out3 :=
  let d := die.toNat
  match (tries s d).findSome? fun q => tryRec s d q with
  | some s1 => .next { s1 with free := s1.free + 1 }
  | none => .next s

/-! ## Work stealing (R84) -/

/-- Some core of the die is idle for a partition, and no queued record fits it (R80, R84). -/
def wantsWork (s : State) (d p : Nat) : Bool :=
  (coresOf d).any fun c =>
    idleCore s p c && (s.die d).queue.all fun q => !(idleCore s q.part c && typeOk q.task (readCode s q.part q.pasid.toNat q.task.code (96 + d)) (isL c))

/-- The adjacent die of the same fence with the most records; ties go to the lower number. -/
def lender (s : State) (d : Nat) : Option Nat :=
  ((fenceDies s (fenceOfDie s d)).filter fun e => links d e == 1 && dieRoute s e d).foldl (fun b e =>
    let n := (s.die e).queue.length
    match b with
    | none => if n == 0 then none else some e
    | some x => if (s.die x).queue.length < n then some e else some x) none

/-- A record that may be moved: not LOCAL, and no launch root, whose home die is fixed (R84, R80). -/
def movable (q : QRec) : Bool := !q.task.isLocal && q.root.isNone

/-- The bin that a queue would drain last. -/
def lastBin (x : Die) (k : QKey) : Nat := (binsFrom x k (currentBin x k).bin).getLastD 0

/-- The records taken: up to 16, of one queue that a free value names, from the bin that it would drain last. -/
def loot (x : Die) (n : Dword) : List QRec :=
  let ks := ((x.queue.map QRec.key).eraseDups).filter fun k => (queueOf x k).any fun q => q.bin == lastBin x k && movable q
  match ks[n.toNat % ks.length]? with
  | none => []
  | some k => ((queueOf x k).filter fun q => q.bin == lastBin x k && movable q).take 16

/-- Take the records named out of a list, the oldest first. -/
def takeOut : Nat → (QRec → Bool) → List QRec → List QRec
  | 0, _, l => l
  | _ + 1, _, [] => []
  | n + 1, f, x :: t => if f x then takeOut n f t else x :: takeOut (n + 1) f t

/-- WORK_STEAL (R84). A record whose scope is cancelled on the taking die is discarded there (R93). -/
def execWorkSteal (die : BitVec 3) (s : State) : Out3 :=
  let d := die.toNat
  match lender s d with
  | none => .next s
  | some e =>
    let got := loot (s.die e) (Config.freeDword s.free)
    match got with
    | [] => .next s
    | q :: _ =>
      if !wantsWork s d q.part then .next s
      else
        let s1 := s.modDie e fun x => { x with queue := takeOut got.length (fun r => r.key == q.key && r.bin == q.bin && movable r) x.queue }
        let s2 := got.foldl (fun s r => if s.cancelledOn r.part d 15 r.task.scopeId then discardRec s d r else s.putRec d r) s1
        .next { s2.freeScopes q.part with free := s.free + 1 }

end Sys2Proof.Machine
end

