-- ==== Sys2Proof/Machine/Copy.lean ====
section
/-!
DEFINITION. Copy engines: rings and commands (R150 to R153), the kinds (R154 to R156), and the pages of a snapshot (R52, R158).
-/
namespace Sys2Proof.Machine

/-! ## Form of a command (R152) -/

namespace Cmd

/-- The zero bits of R152's table of ROWL. -/
def rowlOk (m : Cmd) : Bool := !(m.srcPeer && !m.dstPeer && bits m.w1 63 62 != 0) && !(m.dstPeer && !m.srcPeer && bits m.w2 63 62 != 0)

/-- The requirements of each kind (R154). -/
def kindOk (m : Cmd) : Bool :=
  match m.kind with
  | 0 => decide (m.ssp ≤ 4) && decide (m.dsp ≤ 4)
  | 1 => decide (m.ssp ≤ 4) && decide (m.dsp ≤ 4) && decide (m.es ≤ 4)
  | 2 => m.ssp == 0 && m.sstr == 0 && decide (m.dsp ≤ 4) && decide (m.src < 2 ^ (8 * m.es))
  | 3 => decide (m.ssp ≤ 4) && decide (m.dsp ≤ 2) && (m.es == 2 || m.es == 4)
  | 4 => decide (m.ssp ≤ 2) && decide (m.dsp ≤ 4) && (m.es == 2 || m.es == 4)
  | 5 => decide (m.ssp ≤ 4) && m.dsp == 5 && m.len == 32 && m.dstr == 0 && m.dst % m.es == 0 && decide (m.dst + m.rows * m.es ≤ 0x40000)
  | 6 => (m.dsp == 2 || m.dsp == 4) && m.dst % 4096 == 0 && m.rowl == 0 && m.sstr == 0 && m.dstr == 0 && m.es == 1
  | _ => false

/-- A command that is not well formed: the copy-engine bounds fault (R152, R154). -/
def formBad (m : Cmd) : Bool := bits m.w3 63 60 != 0 || !m.rowlOk || !m.kindOk

end Cmd

namespace State

def cmd? (s : State) (id : Nat) : Option Cmd := s.clusters.findSome? fun (_, c) => c.cmds.find? fun m => m.id == id
def modCmd (s : State) (id : Nat) (f : Cmd → Cmd) : State :=
  { s with clusters := s.clusters.map fun (k, c) => (k, { c with cmds := modFirst c.cmds (fun m => m.id == id) f }) }

/-- The crew that posted a command, while it stands where it stood. -/
def poster? (s : State) (m : Cmd) : Option Crew := (s.crew? m.core m.crew).bind fun w => if w.uid == m.uid then some w else none

end State

/-! ## Starting (R151) -/

/-- A ring whose next command may start: fewer than 16 in progress. A crew halted in place keeps its ring (R60, R150); one whose scratchpad has been claimed has it
in the spill area, so that, as a saved crew's, it is not read until the crew resumes. DESIGN CHOICE (log 49). -/
def ringReady (w : Crew) : Bool := decide (w.take.toNat < w.pub.toNat) && decide (w.task.spad ≤ w.blocks.length) && decide (w.started.length < 16)

/-- The rings of a cluster in the engine's order from its place on. -/
def ringOrder (s : State) (cl : Nat) : List (Nat × Nat) :=
  let all := (List.range 8).flatMap fun i => (s.core (8 * cl + i)).crews.filterMap fun w => if ringReady w then some (8 * cl + i, w.slot) else none
  let key := fun (x : Nat × Nat) => (x.1 % 8) * 32 + x.2 % 32
  let r := (s.cluster cl).robin
  let sorted := (List.range 256).flatMap fun i => all.filter fun x => key x == (r + i) % 256
  sorted

/-- What a command comes to as it starts: the abort of its form, of a space that R256 masks, or of its ring slot; or none. -/
def startErr (s : State) (w : Crew) (m : Cmd) (slot : Nat) : Option Dword :=
  let mask := fun (b : Nat) => !(capOf s w.part 2).getLsbD b
  let names := fun (sp : Nat) => (m.ssp == sp && m.kind != 6) || m.dsp == sp
  if spadPoisoned w slot 32 then some (errAt 0x75 slot)
  else if m.formBad then some (errAt 0x73 0)
  else if (mask 0 && names 3) || (mask 1 && names 4) then some (errAt 0x71 0)
  else none

/-- A started command's traffic on the peer ports: a read's request on VC 0 and its data on VC 2, a write's data on VC 2 (R16). -/
def bulkAsked (s : State) (m : Cmd) : State :=
  let s1 := m.srcPorts.foldl (fun s i => s.setPort i { s.port i with reqs := (s.port i).reqs ++ [m.id], bulk := (s.port i).bulk ++ [(m.id, false)] }) s
  m.dstPorts.foldl (fun s i => s.setPort i { s.port i with bulk := (s.port i).bulk ++ [(m.id, true)] }) s1

/-- Some flit that a command needs has not come or gone yet. -/
def bulkWaits (s : State) (m : Cmd) : Bool := (m.srcPorts ++ m.dstPorts).any fun i => (s.port i).carries m.id

/-- COPY_START (R151): the next command of a ring starts, where the partition's cut leaves this chance (R63); the ring of a cancelled crew is emptied (R93). -/
def execCopyStart (core crew : Nat) (s : State) : Out3 :=
  match s.crew? core crew with
  | none => .next s
  | some w =>
    let cl := clusterOf core
    if s.cancelledOn w.part (dieOf core) 15 w.task.scopeId then .next (s.modCrew core crew fun w => { w with take := w.pub })
    else if (ringOrder s cl).head? != some (core, crew) || decide (64 ≤ (s.cluster cl).cmds.length) then .next s
    else if !cutLeaves (cutOf s w.part) (s.cluster cl).beat then .next (s.modCluster cl fun c => { c with beat := c.beat + 1 })
    else
      let q := w.take.toNat
      let slot := w.ringBase + 32 * (q % 64)
      let rd := fun (i : Nat) => (BitVec.ofNat 64 (leNat (w.spadRead (slot + 8 * i) 8)) : Dword)
      let m : Cmd := { id := s.nextId, core := core, crew := crew, w0 := rd 0, w1 := rd 1, w2 := rd 2, w3 := rd 3, part := w.part, pasid := w.pasid,
                       launch := w.task.launch, scope := w.task.scopeId, uid := w.uid, image := none, done := false, err := none }
      let m := { m with err := startErr s w m slot }
      let s := if spadPoisoned w slot 32 then s.startTest (2 ^ 40 + core) else s
      let s := if m.err.isNone then bulkAsked s m else s
      .next { (s.modCrew core crew fun w => { w with take := w.take + 1, started := w.started ++ [(m.id, q, m.dsp)] }).modCluster cl fun c =>
          { c with cmds := c.cmds ++ [m], robin := ((core % 8) * 32 + crew % 32 + 1) % 256, beat := c.beat + 1 } with
        nextId := s.nextId + 1 }

/-! ## Operands (R139, R140, R154) -/

/-- A byte of the scratchpad of a crew that has left its core. -/
def imageByte (m : Cmd) (w : Crew) (a : Dword) : LaneRes :=
  match checkSpad m.core w a 1 with
  | .ok _ => .ok (.image (w.spadByte a.toNat) (spadPoisoned w a.toNat 1))
  | r => r

/-- The check of one byte of an operand. The scratchpad of a crew that has left its core is that of its image; through the cluster its slot holds no crew (R154). -/
def copyByte (s : State) (m : Cmd) (sp addr : Nat) (write : Bool) : LaneRes :=
  let a : Dword := BitVec.ofNat 64 addr
  match (if sp == 0 then m.image else none) with
  | some w => imageByte m w a
  | none =>
  match sp with
  | 0 => (match s.poster? m with | some w => checkSpad m.core w a 1 | none => badLane 0x40 3)
  | 1 => checkCluster s m.core m.part m.launch a 1
  | 2 =>
    (match s.devCheck (clusterOf m.core) m.part m.pasid.toNat a 1 (if write then .write else .read) true false with
     | .ok pa => .ok (.dev pa)
     | .err e => .err (e.code 0x50))
  | 3 => (match checkPeer s m.core m.part a 1 with | .err 0x5F => .err 0x5D | r => r)
  | 4 => (match checkHost s m.core m.part m.pasid.toNat a 1 write with | .stale => .ask addr | r => r)
  | _ => badLane 0x70 3

/-- Bytes of source element k (R154, R155, R156): for a settle, those of the header and of its cell. -/
def Cmd.srcOf (m : Cmd) (k : Nat) : List Nat :=
  match m.kind with
  | 2 => []
  | 4 => (List.range 16).map (m.src + ·) ++ (List.range 16).map fun b => m.src + 16 * (m.sstr + k + 1) + b
  | _ => (List.range m.es).map fun b => m.src + k / m.len * m.srcRow + k % m.len * m.es + b

/-- Bytes of destination element k: for a cask-add, those of the header and of its cell; a grist load's lie in no space that is checked. -/
def Cmd.dstOf (m : Cmd) (k : Nat) : List Nat :=
  match m.kind with
  | 1 => (List.range m.es).map fun b => m.dst + k % m.len * m.dstRow + k / m.len * m.es + b
  | 3 => (List.range 16).map (m.dst + ·) ++ (List.range 16).map fun b => m.dst + 16 * (m.dstr + k + 1) + b
  | 5 => []
  | _ => (List.range m.es).map fun b => m.dst + k / m.len * m.dstRow + k % m.len * m.es + b

/-- What the checks of a list of bytes come to. -/
inductive BytesRes where
  | ok (ls : List Loc)
  | err (code : Byte) (addr : Nat)
  | ask (iova : Nat) (write : Bool)
  deriving DecidableEq, Repr

/-- The checks of bytes, and for a read their poison (R192). -/
def copyBytes (s : State) (m : Cmd) (sp : Nat) (write read : Bool) : List Nat → BytesRes
  | [] => .ok []
  | a :: t =>
    match copyByte s m sp a write with
    | .err c => .err c a
    | .stale => .err 0x54 a
    | .ask v => .ask v write
    | .ok loc =>
      if read && poisonedAt s 1 loc then .err (BitVec.ofNat 8 (0x40 + 8 * sp + 5)) a
      else match copyBytes s m sp write read t with
        | .ok ls => .ok (loc :: ls)
        | r => r

/-- The locations of one element. -/
structure Elem where
  k : Nat
  src : List Loc
  dst : List Loc
  deriving DecidableEq, Repr

/-- What the checks of an element come to. -/
inductive ElemRes where
  | ok (e : Elem)
  | err (code : Byte) (addr : Nat)
  | ask (iova : Nat) (write : Bool)
  deriving DecidableEq, Repr

/-- An element's source, then its destination. -/
def elemCheck (s : State) (m : Cmd) (k : Nat) : ElemRes :=
  match copyBytes s m m.ssp false true (m.srcOf k) with
  | .err c a => .err c a
  | .ask v w => .ask v w
  | .ok src =>
    match copyBytes s m m.dsp true (m.kind == 3) (m.dstOf k) with
    | .err c a => .err c a
    | .ask v w => .ask v w
    | .ok dst => .ok ⟨k, src, dst⟩

/-! ## What each kind does with an element (R154 to R156) -/

/-- A byte of a source: what a peer sends is a free value. -/
def srcByte (s : State) (k i : Nat) (l : Loc) : Byte :=
  match l with
  | .peer _ => (Config.freeWord s.free k i).setWidth 8
  | l => BitVec.ofNat 8 (readAt s 1 l)

/-- The bytes of an element's source. -/
def srcBytes (s : State) (e : Elem) : List Byte := (e.src.zipIdx).map fun (l, i) => srcByte s e.k i l

/-- Write bytes one by one. -/
def putBytes (s : State) (ls : List Loc) (bs : List Byte) : State := (ls.zip bs).foldl (fun s (l, b) => writeAt s 1 b.toNat l) s

/-- A signed number of w bits from bytes. -/
def leInt (w : Nat) (bs : List Byte) : Int := let n := leNat bs; if 2 ^ (w - 1) ≤ n then (n : Int) - 2 ^ w else n

/-- A signed number as 16 bytes. -/
def bytes128 (v : Int) : List Byte := leBytes 16 (v % 2 ^ 128).toNat

/-- The exponent of a cask's grid. -/
def caskExp (h : List Byte) : Int := leInt 16 (h.take 2)

/-- A reserved bit of a cask's header is set. -/
def caskBad (h : List Byte) : Bool := leNat h / 2 ^ 18 != 0

/-- Add a value to a cell; the header's bits set by it: 1 for INV, 2 for OVF (R155). -/
def caskAdd (ex : Int) (v : FVal) (cell : Int) : Int × Nat :=
  match v with
  | .fin neg m e =>
    let n : Int := (roundAt .rne neg m e (ex - 96) false).1
    let t := cell + (if neg then -n else n)
    if 2 ^ 127 - 1 < t then (2 ^ 127 - 1, 2) else if t < -(2 ^ 127) then (-(2 ^ 127), 2) else (t, 0)
  | _ => (cell, 1)

/-- FP32 or BF16, by the element size. -/
def Cmd.fmt (m : Cmd) : FloatFmt := if m.es == 2 then .bf16 else .f32

/-- Grist byte b of element k (R154): slice j at GOFF. -/
def Cmd.gristAt (m : Cmd) (k b : Nat) : Nat := gristPlace (k % 32) (m.dst + k / 32 * m.es + b)

/-- Perform one element; sources are read in the state before the command. -/
def doElem (s0 : State) (m : Cmd) (s : State) (e : Elem) : State :=
  match m.kind with
  | 2 => putBytes s e.dst (leBytes m.es m.src)
  | 3 =>
    let rd := fun (n : Nat) => e.dst.drop n |>.take 16 |>.map fun l => (BitVec.ofNat 8 (readAt s 1 l) : Byte)
    let h := rd 0
    let (c, f) := caskAdd (caskExp h) (m.fmt.val (leNat (srcBytes s0 e))) (leInt 128 (rd 16))
    let hw := leNat h
    let hw := if f == 1 then (BitVec.ofNat 128 hw ||| BitVec.ofNat 128 (2 ^ 17)).toNat else if f == 2 then (BitVec.ofNat 128 hw ||| BitVec.ofNat 128 (2 ^ 16)).toNat else hw
    putBytes (putBytes s (e.dst.drop 16) (bytes128 c)) (e.dst.take 16) (leBytes 16 hw)
  | 4 =>
    let b := srcBytes s0 e
    let r := roundExact m.fmt .rne (leInt 128 (b.drop 16)) (caskExp (b.take 16) - 96) false
    putBytes s e.dst (leBytes m.es r.bits)
  | 5 =>
    ((srcBytes s0 e).zipIdx).foldl (fun s (v, b) => s.modCore m.core fun k =>
      let p := m.gristAt e.k b
      { k with grist := k.grist.set p v, gristPoison := k.gristPoison.filter (fun q => q != p),
               crews := k.crews.map fun w => if w.gristOld.any fun x => x.1 == p then w else { w with gristOld := w.gristOld.put p (k.grist.get p) } }) s
  | _ => putBytes s e.dst (srcBytes s0 e)

/-- Perform elements in row-major order; what they cover whole is no longer poisoned (R192). -/
def doElems (s0 : State) (m : Cmd) (es : List Elem) : State :=
  let s := hostBefores s0 m.part 1 (es.flatMap fun e => (e.src ++ e.dst).map fun l => (0, l))
  unpoison (es.foldl (doElem s m) s) 1 (es.flatMap fun e => e.dst.map fun l => (0, l))

/-! ## Performing a command -/

/-- A grist load that performs elements claims the grist (R59), and the bands that they write are the crew's (R142). -/
def claimForLoad (s : State) (m : Cmd) (es : List Elem) : State :=
  if m.kind != 5 || es.isEmpty then s
  else
    let mine := es.foldl (fun (b : BitVec 64) e => b ||| bandsOf (m.dst + e.k / 32 * m.es) m.es) 0
    (claimGrist s m.core m.part).modCore m.core fun k =>
      { k with crews := k.crews.map fun w => if w.uid == m.uid then { w with bands := w.bands ||| mine } else w }

/-- Abort a command: some of its writes, which is left open, have been performed (R153). -/
def abortCmd (s : State) (m : Cmd) (w : Dword) : State :=
  let some_ := (List.range m.count).filterMap fun k =>
    if Config.freeBit s.free k 0 then (match elemCheck s m k with | .ok e => some e | _ => none) else none
  let es := if m.kind ≤ 5 then some_ else []
  { (doElems (claimForLoad s m es) m es).modCmd m.id fun m => { m with err := some w } with free := s.free + 1 }

/-- An uncorrectable byte that a command meets starts the test of its row (R68, R192). -/
def copyTest (s : State) (m : Cmd) (code : Byte) (addr : Nat) : State :=
  if code == 0x7D then s.testWalk m.part m.pasid.toNat addr
  else if code.toNat % 8 == 5 then
    match copyByte s m ((code.toNat - 0x40) / 8) addr false with
    | .ok loc => (match rowOf loc with | some r => s.startTest r | none => s)
    | _ => s
  else s

/-- The first element whose check does not pass. -/
def firstBad (s : State) (m : Cmd) : Option ElemRes :=
  (List.range m.count).findSome? fun k => match elemCheck s m k with | .ok _ => none | r => some r

/-- A far device may answer with a fault of any kind of its own (R179): its code and the element concerned, drawn freely. A stale tag is retried (R148), and a
time-out ends the copy as an uncorrectable source does (R21). -/
def farBad (s : State) (m : Cmd) : Option (Nat × Nat) :=
  let v := Config.freeDword s.free
  let kind := bits v 3 1
  if (m.srcPeer || m.dstPeer) && v.getLsbD 0 && kind != 4 then some (if kind == 7 then 0x5D else 0x58 + kind, v.toNat / 16 % m.count) else none

/-- A command of kinds 0 to 5 is performed, aborts, or waits: for a host page (R44, R154), for its flits (R16), or for the grist
loads of another partition that has the grist (R157). -/
def runCmd (kind id : Nat) (s : State) : Out3 :=
  match s.cmd? id with
  | none => .next s
  | some m =>
    if m.kind != kind || m.done || m.err.isSome then .next s
    else match firstBad s m with
      | some (.ask v w) => .next (s.atsAsk m.part m.pasid.toNat v w)
      | some (.err c a) => .next (abortCmd (copyTest s m c a) m (errAt c.toNat a))
      | some (.ok _) => .next s
      | none =>
        if bulkWaits s m || (kind == 5 && gristBusy s m.core m.part) then .next s
        else match farBad s m with
        | some (c, k) => .next (abortCmd s m (errAt c ((if m.srcPeer then m.srcOf k else m.dstOf k).headD 0)))
        | none =>
          let es := (List.range m.count).filterMap fun k => match elemCheck s m k with | .ok e => some e | _ => none
          let hdr := match es.head? with
            | some e => if kind == 3 then e.dst.take 16 else if kind == 4 then e.src.take 16 else []
            | none => []
          if caskBad (hdr.map fun l => BitVec.ofNat 8 (readAt s 1 l)) then .next (abortCmd s m (errAt 0x71 (if kind == 3 then m.dst else m.src)))
          else .next { ((doElems (claimForLoad s m es) m es).workOf m.part).modCmd id fun m => { m with done := true } with free := s.free + 1 }

/-- COPY (R154). -/
def execCopy (cmd : Nat) (s : State) : Out3 := runCmd 0 cmd s
/-- TRANSPOSE (R154). -/
def execTranspose (cmd : Nat) (s : State) : Out3 := runCmd 1 cmd s
/-- FILL (R154). -/
def execFill (cmd : Nat) (s : State) : Out3 := runCmd 2 cmd s
/-- CASK_ADD (R155). -/
def execCaskAdd (cmd : Nat) (s : State) : Out3 := runCmd 3 cmd s
/-- SETTLE (R156). -/
def execSettle (cmd : Nat) (s : State) : Out3 := runCmd 4 cmd s
/-- GRIST_LOAD (R154). -/
def execGristLoad (cmd : Nat) (s : State) : Out3 := runCmd 5 cmd s

/-! ## Pages of a snapshot (R52, R53, R158) -/

/-- The physical address of a page of the range that had none when the cut was made: no page of memory, so that it is delivered as zeros. DESIGN CHOICE (log 36):
R52 does not say what such a page gives. -/
def noPage : Nat := 2 ^ 60

/-- The snapshot of a partition. -/
def State.snap (s : State) (p i : Nat) : Snap := (s.part p).snaps.getD i Snap.reset
def State.modSnap (s : State) (p i : Nat) (f : Snap → Snap) : State := s.modPart p fun q => { q with snaps := vmod q.snaps i f }

/-- The state-map word of a page. -/
def mapOf (s : State) (n : Snap) (page : Nat) : Nat := leNat (s.mem.getBytes (State.mapWord n page) 4)

/-- A poisoned state-map word that is read starts its row test (R68). DESIGN CHOICE (log 36): what the map gives is the bits stored, which no rule states. -/
def testMap (s : State) (n : Snap) (page : Nat) : State :=
  if s.devPoisoned (State.mapWord n page) 4 then s.startTest (State.mapWord n page / 4096) else s

/-- A page has been taken. -/
def pageTaken (s : State) (n : Snap) (page : Nat) : Bool := mapOf s n page / 2 ^ 30 == 2

/-- Where a page's pre-cut image lies: its journal slot, or the live page. -/
def imageAt (s : State) (n : Snap) (page : Nat) : Nat :=
  if mapOf s n page / 2 ^ 30 == 1 then n.jphys.getD (mapOf s n page % 2 ^ 30) 0 else n.phys.getD page noPage

/-- Mark a page taken: STATE 0b10, its slot kept. -/
def markTaken (s : State) (n : Snap) (page : Nat) : State :=
  { s with mem := s.mem.setBytes (State.mapWord n page) (leBytes 4 (2 ^ 31 + mapOf s n page % 2 ^ 30)) }

/-- Take a page: its pre-cut bytes, and the state with the page marked. -/
def takePage (s : State) (n : Snap) (page : Nat) : State × List Byte := (markTaken s n page, s.mem.getBytes (imageAt s n page) 4096)

/-- The pages of a cellar stream in order, until one is taken or holds a poisoned word. -/
def cellarPages (m : Cmd) : Nat → State → Nat → State
  | 0, s, _ => s.modCmd m.id fun m => { m with done := true }
  | f + 1, s, i =>
    let n := s.snap m.part m.ssp
    let page := m.src + i
    let s := testMap s n page
    if pageTaken s n page then s.modCmd m.id fun x => { x with err := some (errWord 0 1 page) }
    else if s.devPoisoned (imageAt s n page) 4096 then (s.startTest (imageAt s n page / 4096)).modCmd m.id fun x => { x with err := some (errAt 0x55 (n.base + 4096 * page)) }
    else
      let (s1, bs) := takePage s n page
      let ls := (List.range 4096).filterMap fun b => match copyByte s1 m m.dsp (m.dst + 4096 * i + b) true with | .ok l => some l | _ => none
      cellarPages m f (unpoison (putBytes (hostBefores s1 m.part 1 (ls.map fun l => (0, l))) ls bs) 1 (ls.map fun l => (0, l))) (i + 1)

/-- CELLAR_STREAM (R158). -/
def execCellarStream (cmd : Nat) (s : State) : Out3 :=
  match s.cmd? cmd with
  | none => .next s
  | some m =>
    if m.kind != 6 || m.done || m.err.isSome then .next s
    else
      let n := s.snap m.part m.ssp
      let fail := fun (w : Dword) => Host.Outcome.next (s.modCmd cmd fun x => { x with err := some w })
      if n.phase != .active then fail (errWord 0 3 m.src)
      else if n.overflowed then fail (errWord 0 2 m.src)
      else if n.pages < m.src + m.rows then fail (errAt 0x73 0)
      else match copyBytes s m m.dsp true false ((List.range (4096 * m.rows)).map (m.dst + ·)) with
        | .ask v w => .next (s.atsAsk m.part m.pasid.toNat v w)
        | .err c a => .next ((copyTest s m c a).modCmd cmd fun x => { x with err := some (errAt c.toNat a) })
        | .ok _ => .next (cellarPages m m.rows s 0)

/-! ## Completion (R153) -/

/-- A fault of the counter or the error word counts in the posting crew's launch. -/
def counterBad (s : State) (m : Cmd) (code : Byte) : State := s.countFault m.part m.launch (dieOf m.core) code m.ctr

/-- Write the error word beside the counter. -/
def writeErr (s : State) (m : Cmd) (w : Dword) : State :=
  let a := m.ctr + 8
  if m.csp then
    match s.poster? m with
    | none => counterBad s m 0x43
    | some x =>
      match checkSpad m.core x a 8 with
      | .err c => counterBad s m c
      | _ => unpoison (s.modCrew m.core m.crew fun x => { x with spad := x.spad.putBytes a.toNat (leBytes 8 w.toNat) }) 8 [(0, .spad m.core m.crew a.toNat)]
  else
    match s.devCheck (clusterOf m.core) m.part m.pasid.toNat a 8 .write true false with
    | .err e => counterBad (if e == .walkUnc then s.testWalk m.part m.pasid.toNat a.toNat else s) m (e.code 0x50)
    | .ok pa => s.devWrite pa (leBytes 8 w.toNat)

/-- Add INC to the counter. -/
def addCounter (s : State) (m : Cmd) : State :=
  if m.csp then
    match s.poster? m with
    | none => counterBad s m 0x43
    | some x =>
      match checkSpad m.core x m.ctr 8 with
      | .err c => counterBad s m c
      | _ =>
        if spadPoisoned x m.ctr.toNat 8 then counterBad (s.startTest (2 ^ 40 + m.core)) m 0x45
        else
          let old := leNat (x.spadRead m.ctr.toNat 8)
          s.modCrew m.core m.crew fun x => { x with spad := x.spad.putBytes m.ctr.toNat (leBytes 8 (old + m.inc)) }
  else
    match s.devCheck (clusterOf m.core) m.part m.pasid.toNat m.ctr 8 .write true false with
    | .err e => counterBad (s.testVa m.part m.pasid.toNat m.ctr 8 (clusterOf m.core)) m (e.code 0x50)
    | .ok _ =>
      match s.devAdd m.part m.pasid m.ctr (BitVec.ofNat 64 m.inc) none none (clusterOf m.core) with
      | (s1, none) => s1
      | (s1, some e) => counterBad s1 m (e.code 0x50)

/-- COPY_COMPLETE (R153): a command whose writes are performed adds to its counter; one that aborts writes its error word. -/
def execCopyComplete (cmd : Nat) (s : State) : Out3 :=
  match s.cmd? cmd with
  | none => .next s
  | some m =>
    if !m.done && m.err.isNone then .next s
    else
      let s : State := (m.srcPorts ++ m.dstPorts).foldl (fun s i => s.setPort i ((s.port i).forget m.id)) s
      let s1 : State := match m.err with | some w => writeErr s m w | none => addCounter s m
      let ended : Crew → Crew := fun w => { w with started := w.started.filter fun e => e.1 != cmd }
      let s2 : State := { s1 with
        cores := s1.cores.map (fun (x : Nat × Core) => (x.1, { x.2 with crews := x.2.crews.map ended })),
        dies := s1.dies.map (fun (x : Nat × Die) => (x.1, { x.2 with queue := x.2.queue.map fun (q : QRec) => { q with saved := q.saved.map ended } })) }
      .next ((s2.modCluster (clusterOf m.core) fun c => { c with cmds := c.cmds.filter fun x => x.id != cmd }).freeScopes m.part)

/-! ## Host pages that fail under a command (R45) -/

/-- The address at which a command needs a page of host space that is not there. -/
def Cmd.wants? (s : State) (m : Cmd) (page : Nat) (write : Bool) : Option Nat :=
  if m.done || m.err.isSome then none
  else if m.kind == 6 then
    if m.dsp == 4 && write && decide (m.dst / 4096 ≤ page) && decide (page < m.dst / 4096 + m.rows) then some (4096 * page) else none
  else match firstBad s m with
    | some (.ask v w) => if v / 4096 == page && w == write then some v else none
    | _ => none

/-- Abort the commands that wait for a host page. -/
def abortWaiting (s : State) (f pasid page : Nat) (write : Bool) (code : Nat) : State :=
  let ms := s.clusters.flatMap fun (_, c) => c.cmds.filterMap fun m =>
    if m.part == f && m.pasid.toNat == pasid then (m.wants? s page write).map fun a => (m, a) else none
  ms.foldl (fun s (m, a) => abortCmd s m (errAt code a)) s

end Sys2Proof.Machine
end

