-- ==== Sys2Proof/Machine/Host.lean ====
section
/-!
DEFINITION. The host interface: AQIs and doorbells (R32 to R40), packets (R41 to R43), ATS and PRI (R44 to R46), completion records (R48 to R50), snapshots
(R51 to R53), and the fault queue's registers (R184, R185).
-/
namespace Sys2Proof.Machine

/-! ## AQIs (R32 to R40) -/

namespace Aqi

def en (a : Aqi) : Bool := a.ctl.getLsbD 0
def logn (a : Aqi) : Nat := bits a.ctl 4 1
def size (a : Aqi) : Nat := 2 ^ a.logn
def pasid (a : Aqi) : Nat := bits a.ctl 63 44
def vecc (a : Aqi) : Nat := bits a.ctl 35 31
def vece (a : Aqi) : Nat := bits a.ctl 30 26
def prio (a : Aqi) : Nat := bits a.ctl 19 16
/-- The guest address of a ring slot. -/
def slot (a : Aqi) (i : Nat) : Nat := bits a.rbase 56 12 * 4096 + 64 * i
/-- Some slot is due for fetching. -/
def due (a : Aqi) : Bool := a.en && !a.halt && a.head != a.tail

end Aqi

/-- AQIs that a function's partition owns (R32, R57). -/
def aqiCount (s : State) (f : Nat) : Nat := bits (s.part f).pcfg0 55 50

/-- n bytes from a guest address lie inside a function's host window (R33, R34). -/
def inWindow (s : State) (f base n : Nat) : Bool :=
  decide (bits (s.fn f).pwinBase 56 12 * 4096 ≤ base) && decide (base + n ≤ bits (s.fn f).pwinLim 56 12 * 4096)

/-- An AQI enters error state (R37, R40). -/
def aqiError (s : State) (f n code fidx : Nat) : State :=
  (s.setAqi f n { s.aqi f n with status := BitVec.ofNat 64 (fidx * 2 ^ 16 + code), halt := true }).msix f (s.aqi f n).vece

/-- The writable fields of AQI_CTL (R35); PASID and LOGN keep their values while EN is 1. -/
def ctlWritten (a : Aqi) (val : Dword) : Dword :=
  let free := maskNat val 0xFFFFF00FFC0F001F
  if a.en then maskNat free 0x0000000FFC0F0001 ||| maskNat a.ctl 0xFFFFF0000000001E else free

/-- AQI_CTL_WRITE (R36). -/
def execAqiCtlWrite (fn : BitVec 6) (n : BitVec 5) (val : Dword) (s : State) : Out3 :=
  let f := fn.toNat
  let i := n.toNat
  let a := s.aqi f i
  if aqiCount s f ≤ i then .next s
  else
    let a1 := { a with ctl := ctlWritten a val }
    if a.en || !a1.en then .next (s.setAqi f i a1)
    else
      let s1 := s.setAqi f i { a1 with head := 0, nextseq := 0, status := 0, tail := 0, halt := false, bells := [] }
      if 6 ≤ a1.logn && (s.fn f).pasidOn && inWindow s f (a1.slot 0) (64 * a1.size) then .next s1 else .next (aqiError s1 f i 1 0)

/-- TIME of the X-die that carries a function. -/
def fnTime (s : State) (f : Nat) : Dword := s.times.getD (16 + f / 32) 0

/-- DOORBELL_WRITE (R37, R38, R40). One that is valid and announces slots is kept with its TIME, for the 64 µs of R39; one with count 0 is a no-op. -/
def execDoorbellWrite (fn : BitVec 6) (n : BitVec 5) (size : Nat) (val : Dword) (s : State) : Out3 :=
  let f := fn.toNat
  let i := n.toNat
  let a := s.aqi f i
  if aqiCount s f ≤ i || size != 8 || !a.en || a.halt then .next s
  else
    let tail := bits val 31 16
    let count := (tail + a.size - a.head.toNat) % a.size
    if a.size ≤ tail || bits val 63 32 != 0 then .next (aqiError s f i 2 0)
    else if bits val 15 0 != (a.nextseq.toNat + count + 65535) % 65536 then .next (aqiError s f i 3 0)
    else if count == 0 then .next s
    else .next (s.setAqi f i { a with tail := BitVec.ofNat 16 tail, bells := a.bells ++ [(BitVec.ofNat 16 tail, fnTime s f)] })

/-- The eight words of a packet, as the device reads them from a mapped slot. -/
def readPacket (s : State) (f pasid a : Nat) : Vector Dword 8 := Vector.ofFn fun i => BitVec.ofNat 64 (leNat (s.hostRead f pasid (a + 8 * i.val) 8))

/-- A reserved bit of a header, an OP that is not R42's, or a reserved byte of the operation's body (R41, R42). -/
def packetBad (w : Vector Dword 8) : Bool :=
  let g := fun (i : Nat) => w.getD i 0
  let zero := fun (l : List Nat) => l.all fun i => g i == 0
  bits (g 0) 27 24 != 0 || bits (g 0) 15 10 != 0 || bits (g 0) 7 0 != 0 || bits (g 1) 5 0 != 0
    || (match bits (g 0) 23 16 with
        | 0x00 => !zero [2, 3, 4, 5, 6, 7]
        | 0x01 => bits (g 3) 63 16 != 0 || !zero [4, 5, 6, 7]
        | 0x02 => bits (g 2) 63 16 != 0 || !zero [3, 4, 5, 6, 7]
        | 0x03 => !zero [4, 5, 6, 7]
        | 0x10 => bits (g 5) 63 35 != 0 || !zero [6, 7]
        | 0x11 => bits (g 2) 63 3 != 0 || !zero [6, 7]
        | 0x12 => bits (g 2) 63 3 != 0 || !zero [3, 4, 5, 6, 7]
        | _ => true)

/-- A slot has been accepted: HEAD moves on, and the doorbells whose slots have all been accepted are done with (R39). -/
def Aqi.accepted (a : Aqi) (h : BitVec 16) : Aqi := { a with head := h, nextseq := a.nextseq + 1, bells := a.bells.filter fun b => b.1 != h }

/-- PACKET_FETCH (R39, R41): the packet at HEAD is accepted, refused, or read again later; a page that is not translated is asked for (R44).
DESIGN CHOICE (log 81): while PCFG.EN of the partition is 0 its AQIs take doorbells and register writes and fetch nothing; R39 is silent on it. -/
def execPacketFetch (fn : BitVec 6) (n : BitVec 5) (s : State) : Out3 :=
  let f := fn.toNat
  let i := n.toNat
  let a := s.aqi f i
  if !a.due || !partOn s f then .next s
  else
    match s.hostMapped f a.pasid (a.slot a.head.toNat) 64 false with
    | some page => .next (s.atsAsk f a.pasid page false)
    | none =>
      let s := s.hostSettled f a.pasid (a.slot a.head.toNat) 64 false
      let w := readPacket s f a.pasid (a.slot a.head.toNat)
      let w0 := w.getD 0 0
      if bits w0 43 28 != a.nextseq.toNat then .next s
      else if bits w0 63 44 != a.pasid then .next (aqiError s f i 5 a.head.toNat)
      else if packetBad w then .next (aqiError s f i 6 a.head.toNat)
      else
        let k : Packet :=
          { id := s.nextId, fn := f, aqi := i, w := w, idx := a.head, tstart := fnTime s f, begun := false, comp := none, pos := 0, vec := none, after := [],
            acked := false }
        .next { s.setAqi f i (a.accepted (BitVec.ofNat 16 ((a.head.toNat + 1) % a.size))) with
          packets := s.packets ++ [k], nextId := s.nextId + 1 }

/-- 64 µs, which are 16,000 ticks, have gone by since the doorbell that made the slot at HEAD due: the oldest that is kept (R23, R39). -/
def tornTime (s : State) (f : Nat) (a : Aqi) : Bool := match a.bells with | b :: _ => decide (16000 ≤ (fnTime s f - b.2).toNat) | [] => false

/-- The slot that is due still holds another PSEQ when its time is over. -/
def tornDue (s : State) (f n : Nat) : Bool :=
  let a := s.aqi f n
  let at_ := a.slot a.head.toNat
  a.due && tornTime s f a && (s.hostMapped f a.pasid at_ 64 false).isNone && bits ((readPacket (s.hostSettled f a.pasid at_ 64 false) f a.pasid at_).getD 0 0) 43 28 != a.nextseq.toNat

/-- TORN_SUBMISSION (R39). -/
def execTornSubmission (fn : BitVec 6) (n : BitVec 5) (s : State) : Out3 :=
  if tornDue s fn.toNat n.toNat then .next (aqiError s fn.toNat n.toNat 4 (s.aqi fn.toNat n.toNat).head.toNat) else .next s

/-! ## Packets (R42, R43) -/

namespace Packet

def word (k : Packet) (i : Nat) : Dword := k.w.getD i 0
def op (k : Packet) : Nat := bits (k.word 0) 23 16
def pasid (k : Packet) : BitVec 20 := (k.word 0).extractLsb' 44 20
/-- CREC (R41). -/
def crec (k : Packet) : Nat := bits (k.word 1) 63 6 * 64
def fence (k : Packet) : Bool := (k.word 0).getLsbD 9
def irq (k : Packet) : Bool := (k.word 0).getLsbD 8

end Packet

/-- FENCE allows a packet to start: every earlier packet of its AQI has completed, and has written its record where it has one (R41). A packet whose record
is written is no longer listed. -/
def fenceOk (s : State) (k : Packet) : Bool :=
  !k.fence || s.packets.all fun x => !(x.fn == k.fn && x.aqi == k.aqi && decide (x.id < k.id)) || (x.comp.isSome && x.crec == 0)

/-- Start a packet of an operation. -/
def withPacket (op id : Nat) (s : State) (body : Packet → State → State) : Out3 :=
  match s.packet? id with
  | none => .next s
  | some k =>
    if k.op == op && !k.begun && k.comp.isNone && fenceOk s k then .next (body k (s.modPacket id fun k => { k with begun := true })) else .next s

/-- NOP_PACKET (R42). -/
def execNopPacket (id : Nat) (s : State) : Out3 := withPacket 0x00 id s fun _ s => s.complete id 0 0 0 none 0

/-- What is wrong with a launch root: its cause and address (R71, R78); a root that cannot be read has the code of the read. -/
def rootFault (s : State) (p pasid : Nat) (va : Dword) : Option Byte :=
  if va.toNat % 64 != 0 then some 0x88
  else match s.vaFault p pasid va 16 with
    | some e => some (e.code 0x50)
    | none =>
      let t := readTask s p pasid va
      if !t.isRoot || taskBad s p pasid t then some 0x88 else if rootBad s p (readRoot s p pasid va) then some 0x89 else none

/-- A LAUNCH whose root is malformed completes with RESULT 2, naming the cause (R71). What a read of it has met starts its row test (R68). -/
def launchBad (s : State) (id : Nat) (k : Packet) (code : Byte) : State :=
  (s.testWords k.fn k.pasid.toNat (k.word 2) 16).complete id 2 0 0 (some ⟨(fnTime s k.fn).toNat, 1, 0, 0, code, k.word 2⟩) 0

/-- The home die of a launch of a partition (R80): the lowest of its fence. -/
def homeDie (s : State) (p : Nat) : Nat := (fenceDies s (fenceOf s p)).headD 0

/-- A LAUNCH waits while its home die has no room for the root (R81). -/
def launchHeld (s : State) (id : Nat) : Bool := match s.packet? id with | some k => !s.queueRoom (homeDie s k.fn) k.fn | none => false

/-- LAUNCH (R42, R78, R81, R88): the scope is opened, the root checked, and queued on its home die. The packet's scope and the AQI's priority replace those of the
record, in the dispatcher's copy. A scope that cannot be opened gives RESULT 4 before the root is looked at. DESIGN CHOICE (log 79): no order of the two is stated. -/
def execLaunch (id : Nat) (s : State) : Out3 :=
  if launchHeld s id then .next s
  else withPacket 0x01 id s fun k s =>
    let p := k.fn
    let ps := k.pasid
    let va := k.word 2
    let sc := bits (k.word 3) 15 0
    match s.openScope? p sc none 0 ps true with
    | none => s.complete id 4 0 0 none 0
    | some e =>
      match rootFault s p ps.toNat va with
      | some code => launchBad s id k code
      | none =>
        let t := readTask s p ps.toNat va
        let t := { t with scope := setBits (setBits t.scope 15 0 sc) 19 16 (s.aqi p k.aqi).prio }
        (s.setScope p sc e).putRec (homeDie s p)
          { part := p, pasid := ps, prio := t.prio, bin := binOf t.key, task := t, root := some (readRoot s p ps.toNat va), saved := none, byGen := false,
            spilled := false, addr := va, pkt := some id, reset := false }

/-- CANCEL_PACKET (R42, R92). -/
def execCancelPacket (id : Nat) (s : State) : Out3 :=
  withPacket 0x02 id s fun k s =>
    let sc := bits (k.word 2) 15 0
    let e := s.scope k.fn sc
    if e.st == .free then s.complete id 4 0 0 none 0
    else if e.pend == 0xFFFFFFFF then s.complete id 10 0 0 none 0
    else s.acceptCancel k.fn sc (some id) none

/-- SIGNAL (R42, R50). A poisoned counter gives RESULT 8 too. DESIGN CHOICE (log 79): R50 names a misaligned or untranslated counter alone. -/
def execSignal (id : Nat) (s : State) : Out3 :=
  withPacket 0x03 id s fun k s =>
    match s.devAdd k.fn k.pasid (k.word 2) (k.word 3) none none with
    | (s1, none) => s1.complete id 0 0 0 none 0
    | (s1, some _) => s1.complete id 8 0 0 none 0

/-! ## Snapshots (R51 to R53, R158) -/

/-- Ranges of pages overlap. -/
def overlaps (a n b m : Nat) : Bool := decide (a < b + m) && decide (b < a + n)

/-- The physical page of a device page of a partition's PASID, for an access. -/
def physPage (s : State) (p pasid va : Nat) (acc : Access) : Option Nat :=
  match s.devCheck 104 p pasid (BitVec.ofNat 64 va) 8 acc true false with
  | .ok pa => some (pa / 4096 * 4096)
  | .err _ => none

/-- Zero the pages of the state map (R158); one that lies in the range of another snapshot is journalled for it first. -/
def clearMap (s : State) (pages : List Nat) : State := pages.foldl (fun s pa => s.devZero pa (pa + 4096)) s

/-- The snapshot that a SNAPCUT asks for, without its physical pages. -/
def askedSnap (k : Packet) : Snap :=
  { Snap.reset with phase := .holding, pasid := k.pasid, base := (k.word 2).toNat, pages := (k.word 3).toNat, journal := (k.word 4).toNat,
                    cap := min (bits (k.word 5) 31 0) (2 ^ 30), pkt := k.id }

/-- Pages of a journal with its state map (R158). -/
def Snap.journalPages (n : Snap) : Nat := n.cap + ceilDiv n.pages 1024

/-- SNAPCUT (R51, R158): the id and the range, the journal, then the journal's pages are checked; the map is cleared and the controllers hold writes. -/
def execSnapcut (id : Nat) (s : State) : Out3 :=
  withPacket 0x10 id s fun k s =>
    let p := k.fn
    let i := bits (k.word 5) 34 32
    let n := askedSnap k
    let others := (List.range 8).filter fun j => j != i && (s.snap p j).phase != .free
      && overlaps ((s.snap p j).base / 4096) (s.snap p j).pages (n.base / 4096) n.pages
    if (s.snap p i).phase != .free || !others.isEmpty then s.complete id 7 0 0 none 0
    else if n.cap == 0 || n.pages == 0 || decide (2 ^ 33 < n.pages) || n.base % 4096 != 0 || n.journal % 4096 != 0
        || overlaps (n.base / 4096) n.pages (n.journal / 4096) n.journalPages then s.complete id 9 0 0 none 0
    else
      let j := (List.range n.journalPages).map fun x => physPage s p n.pasid.toNat (n.journal + 4096 * x) .write
      if j.any Option.isNone then s.complete id 8 0 0 none 0
      else
        let jp := j.map fun x => x.getD noPage
        let ph := (List.range n.pages).map fun x => (physPage s p n.pasid.toNat (n.base + 4096 * x) .read).getD noPage
        (clearMap s (jp.drop n.cap)).modSnap p i fun _ => { n with phys := ph, jphys := jp }

/-- CUT_SWITCH (R158): every controller has acknowledged its hold, and the cut is established. -/
def execCutSwitch (p : BitVec 6) (snap : BitVec 3) (s : State) : Out3 :=
  let n := s.snap p.toNat snap.toNat
  if n.phase != .holding then .next s
  else .next ((s.modSnap p.toNat snap.toNat fun n => { n with phase := .active }).complete n.pkt 0 (fnTime s p.toNat) 0 none 0)

/-- A poisoned word of a page that a STREAM reads starts its row test (R68). -/
def testPage (s : State) (n : Snap) (page : Nat) : State :=
  let pa := imageAt s n page
  if s.devPoisoned pa 4096 then s.startTest (pa / 4096) else s

/-- The pages of a STREAM in order, until one is taken, or its destination must be asked for, or none is left. DESIGN CHOICE (log 36): a destination is taken as
it stands, aligned or not; the stored bytes of a poisoned source page are delivered, and its row is tested; a page that had no translation at the cut is delivered
as zeros. R42 and R50 give no result for any of these. -/
def streamPages (id p i first dst pasid : Nat) : Nat → State → Nat → State
  | 0, s, done => s.complete id 0 (BitVec.ofNat 64 done) 0 none 0
  | f + 1, s, done =>
    let n := s.snap p i
    let page := first + done
    if n.pages ≤ page then s.complete id 8 (BitVec.ofNat 64 done) 0 none 0
    else if pageTaken s n page then (testMap s n page).complete id 6 (BitVec.ofNat 64 done) 0 none 0
    else match s.hostMapped p pasid (dst + 4096 * done) 4096 true with
      | some a => (s.atsAsk p pasid a true).modPacket id fun k => { k with pos := done }
      | none =>
        let (s1, bs) := takePage (testPage (testMap s n page) n page) n page
        streamPages id p i first dst pasid f (s1.hostWrite p pasid (dst + 4096 * done) bs) (done + 1)

/-- STREAM (R52, R53, R158): begun once, and gone on with when a page of its destination has been translated. DESIGN CHOICE (log 81): one that begins while the cut of
its snapshot still holds is answered RESULT 7, as on a free id; R50 names no result for it. -/
def execStream (id : Nat) (s : State) : Out3 :=
  match s.packet? id with
  | none => .next s
  | some k =>
    let i := bits (k.word 2) 2 0
    let n := s.snap k.fn i
    if k.op != 0x11 || k.comp.isSome || (!k.begun && !fenceOk s k) then .next s
    else
      let s1 := s.modPacket id fun k => { k with begun := true }
      if !k.begun && n.phase != .active then .next (s1.complete id 7 0 0 none 0)
      else if !k.begun && n.overflowed then .next (s1.complete id 5 0 0 none 0)
      else .next (streamPages id k.fn i (k.word 3).toNat (k.word 5).toNat k.pasid.toNat ((k.word 4).toNat - k.pos) s1 k.pos)

/-- SNAPEND (R53): after any running STREAM of the snapshot, journalling stops and the id is free. While the cut still holds it is answered as STREAM is (log 81). -/
def execSnapend (id : Nat) (s : State) : Out3 :=
  match s.packet? id with
  | none => .next s
  | some k =>
    let i := bits (k.word 2) 2 0
    let running := s.packets.any fun x => x.op == 0x11 && x.fn == k.fn && x.begun && x.comp.isNone && bits (x.word 2) 2 0 == i
    if running then .next s
    else withPacket 0x12 id s fun k s =>
      if (s.snap k.fn i).phase != .active then s.complete id 7 0 0 none 0
      else (s.modSnap k.fn i fun _ => Snap.reset).complete id 0 0 0 none 0

/-! ## Completion records (R48, R49) -/

/-- A packet is done with: its message goes out if it asked for one. -/
def endPacket (s : State) (k : Packet) : State :=
  let s1 := { s with packets := s.packets.filter fun x => x.id != k.id }
  if k.irq then s1.msix k.fn (k.vec.getD (s.aqi k.fn k.aqi).vecc) else s1

/-- A record's write has failed (R49). An AQI that a partition reset has returned to its reset state stays there (R58). One in error state already enters it again,
with ERR 8, this FIDX and another message. DESIGN CHOICE (log 79): R40 and R49 do not say what a second error does. -/
def recordFailed (s : State) (k : Packet) : State :=
  let s1 := { s with packets := s.packets.filter fun x => x.id != k.id }
  if k.vec.isSome then s1 else aqiError s1 k.fn k.aqi 8 k.idx.toNat

/-- The record of a packet may be written: those of the same acknowledgement that come before it are (R97). -/
def recordTurn (s : State) (k : Packet) : Bool := !s.packets.any fun x => k.after.contains x.id

/-- The body of a record, bytes 0x08 to 0x3F (R48). -/
def writeBody (s : State) (k : Packet) (ws : List Dword) : State :=
  s.hostWrite k.fn k.pasid.toNat (k.crec + 8) ((ws.drop 1).flatMap fun v => leBytes 8 v.toNat)

/-- PACKET_COMPLETION (R48): the record's body, then its status word, then the message. -/
def execPacketCompletion (id : Nat) (s : State) : Out3 :=
  match s.packet? id with
  | none => .next s
  | some k =>
    match k.comp with
    | none => .next s
    | some ws =>
      if !recordTurn s k then .next s
      else if k.crec == 0 then .next (endPacket s k)
      else match s.hostMapped k.fn k.pasid.toNat k.crec 64 true with
        | some page => .next (s.atsAsk k.fn k.pasid.toNat page true)
        | none =>
          .next (endPacket ((writeBody s k ws).hostWrite k.fn k.pasid.toNat k.crec (leBytes 8 (ws.headD 0).toNat)) k)

/-- The place of the fault-queue entry that a function writes next: none while it holds its posts or has none (R184). -/
def entryPlace? (s : State) (f : Nat) : Option Nat :=
  let x := s.fn f
  let tail := bits x.fqctl 15 0
  let a := bits x.fqbase 56 12 * 4096 + 64 * tail
  if x.fqctl.getLsbD 63 && !x.posts.isEmpty && (tail + 1) % 2 ^ bits x.fqhead 19 16 != bits x.fqhead 15 0
      && (s.hostMapped f (bits x.fqctl 59 40) a 64 true).isNone then some a else none

/-- The body of a fault-queue entry, bytes 0x08 to 0x3F (R184). -/
def writeEntryBody (s : State) (f a : Nat) : State :=
  match (s.fn f).posts with
  | [] => s
  | (_, _, _, r) :: _ => s.hostWrite f (bits (s.fn f).fqctl 59 40) (a + 8) (r.bytes.drop 8)

/-- HOST_WRITE_ERROR (R49, R184): the host answers a write of a completion record, or of a fault-queue entry, with an error. Which of the two writes it was is a
free choice: where it was the second, the body stands in host memory. -/
def execHostWriteError (r : HostWriteRef) (s : State) : Out3 :=
  let s0 := { s with free := s.free + 1 }
  let second := Config.freeBit s.free 0 0
  match r with
  | .completion id =>
    (match s.packet? id with
     | none => .next s
     | some k =>
       match k.comp with
       | none => .next s
       | some ws =>
         if k.crec == 0 || !recordTurn s k || (s.hostMapped k.fn k.pasid.toNat k.crec 64 true).isSome then .next s
         else .next (recordFailed (if second then writeBody s0 k ws else s0) k))
  | .faultEntry f =>
    (match entryPlace? s f with
     | some a => .next (fqFail (if second then writeEntryBody s0 f a else s0) f)
     | none => .next s)

/-! ## A host page that fails (R45) -/

/-- The host-domain code of a page that gives no access: protection where some translation of it is held, else not-present. -/
def hostCode (s : State) (f pasid page : Nat) : Nat :=
  if (s.hostXlate? f pasid (4096 * page) false).isSome || (s.hostXlate? f pasid (4096 * page) true).isSome then 0x61 else 0x60

/-- Splits parked on a page: core, crew, GID, split, lane, address. -/
def parkedOn (s : State) (f pasid page : Nat) (write : Bool) : List (Nat × Nat × Nat × Nat × Nat × Dword) :=
  s.allCrews.flatMap fun (c, w) =>
    if w.part != f || w.pasid.toNat != pasid then []
    else w.groups.flatMap fun g => g.splits.filterMap fun p =>
      match p.parked with
      | some (.ats pg l a wr) => if pg == page && wr == write then some (c, w.slot, g.gid, p.num, l, a) else none
      | _ => none

/-- The splits parked on a page take a host code. -/
def trapParked (s : State) (f pasid page : Nat) (write : Bool) (code : Byte) : State :=
  (parkedOn s f pasid page write).foldl (fun s (c, w, g, n, l, a) => takeTrap (s.modSplit ⟨c, w, g, n⟩ fun p => { p with parked := none }) c w g n code l a) s

/-- Groups that wait for a page request, resident: core, crew, GID. -/
def priWaiters (s : State) (f pasid page : Nat) : List (Nat × Nat × Nat) :=
  s.allCrews.flatMap fun (c, w) => w.groups.filterMap fun g => if g.live && g.fwait == some (.pri f pasid page) then some (c, w.slot, g.gid) else none

/-- Change the waiting groups of saved crews. -/
def modSavedWaiters (s : State) (f pasid page : Nat) (h : Group → Group) : State :=
  let fix := fun (w : Crew) => { w with groups := w.groups.map fun g => if g.fwait == some (.pri f pasid page) then h g else g }
  { s with dies := s.dies.map fun (d, x) => (d, { x with queue := x.queue.map fun q => { q with saved := q.saved.map fix } }) }

/-- The record of a wait that has failed: its cause, and no translation pending. -/
def FaultRec.failed (r : FaultRec) (code : Byte) : FaultRec := { r with fstat := setBits (setBits r.fstat 7 0 code.toNat) 30 30 0 }

/-- The waiting groups take the failure (R45, R183); one whose crew is saved or halted re-runs its strand when it resumes (R185). -/
def failWaiters (s : State) (f pasid page : Nat) (code : Byte) : State :=
  let s1 := (priWaiters s f pasid page).foldl (fun s (c, w, g) =>
    match s.group? c w g with
    | some x =>
      if x.stopped then s.modGroup c w g Group.unpark
      else dealOther (s.modGroup c w g fun x => { x with fwait := none, frec := x.frec.failed code }) c w g x.frec.split none
    | none => s) s
  modSavedWaiters s1 f pasid page Group.unpark

/-- AQIs whose next slot lies in the page (R45). -/
def failFetches (s : State) (f pasid page : Nat) : State :=
  (List.range 32).foldl (fun s i =>
    let a := s.aqi f i
    if a.due && a.pasid == pasid && a.slot a.head.toNat / 4096 == page then aqiError s f i 7 a.head.toNat else s) s

/-- Packets that write to the page: completion records fail (R49), and a STREAM completes with RESULT 8 (R50). -/
def failPackets (s : State) (f pasid page : Nat) : State :=
  s.packets.foldl (fun s k =>
    if k.fn != f || k.pasid.toNat != pasid then s
    else if k.comp.isSome then (if k.crec != 0 && k.crec / 4096 == page then recordFailed s k else s)
    else if k.op == 0x11 && k.begun && (((k.word 5).toNat + 4096 * k.pos) / 4096 == page || ((k.word 5).toNat + 4096 * k.pos + 4095) / 4096 == page) then
      s.complete k.id 8 (BitVec.ofNat 64 k.pos) 0 none 0
    else s) s

/-- The fault queue's next entry lies in the page (R184). -/
def failQueue (s : State) (f pasid page : Nat) : State :=
  let x := s.fn f
  if x.fqctl.getLsbD 63 && !x.posts.isEmpty && bits x.fqctl 59 40 == pasid && (bits x.fqbase 56 12 * 4096 + 64 * bits x.fqctl 15 0) / 4096 == page then fqFail s f else s

/-- A page that a function needed fails for everyone who waited for it: groups, commands, fetches, and for writing packets and the fault queue. -/
def pageFails (s : State) (f pasid page : Nat) (write : Bool) (code : Nat) : State :=
  let c : Byte := BitVec.ofNat 8 code
  let s1 := abortWaiting (failWaiters (trapParked s f pasid page write c) f pasid page c) f pasid page write code
  if write then failQueue (failPackets s1 f pasid page) f pasid page else failFetches s1 f pasid page

/-! ## ATS and PRI (R44 to R46) -/

/-- The largest page size that a translation's size contains (R44). -/
def fitSize (n : Nat) : Nat := ([12, 14, 16, 18, 20, 21, 22, 24, 26, 28, 30, 32].filter (· ≤ n)).getLastD 12

/-- A translation as entries of the largest page size that it contains: that of the address asked for, and the other half where there are two. -/
def atsEntries (f pasid iova : Nat) (a : AtsAnswer) (gen : BitVec 16) : List AtsEntry :=
  let lg := fitSize a.size
  let base := iova / 2 ^ a.size * 2 ^ a.size
  let hpa := a.hpa / 2 ^ a.size * 2 ^ a.size
  let offs := if a.size ≤ lg + 1 then (List.range (2 ^ (a.size - lg))).map fun i => i * 2 ^ lg else [iova / 2 ^ lg * 2 ^ lg - base]
  offs.map fun o => ⟨f, pasid, base + o, hpa + o, 2 ^ lg, a.read, a.write, gen⟩

/-- Requests for a page that an answer leaves without the right go to the page-request interface, or fail where none may be sent (R45). -/
def noRight (s : State) (f pasid page : Nat) (write : Bool) : State :=
  let x := s.fn f
  let q := (pasid, page, write)
  if !x.priOn then pageFails (s.modFn f fun x => { x with atsReq := x.atsReq.filter fun r => r != q }) f pasid page write (hostCode s f pasid page)
  else if 64 ≤ x.pri.length then s
  else
    let s1 := s.modFn f fun x => { x with atsReq := x.atsReq.filter (fun r => r != q), pri := x.pri ++ [q] }
    trapParked s1 f pasid page write (BitVec.ofNat 8 (hostCode s f pasid page))

/-- ATS_TRANSLATION_RESPONSE (R44, R45): the answer is cached; a right that it lacks is asked for by a page request. -/
def execAtsTranslationResponse (fn : BitVec 6) (pasid : BitVec 20) (iova : Nat) (ans : Option AtsAnswer) (s : State) : Out3 :=
  let f := fn.toNat
  let ps := pasid.toNat
  let page := iova / 4096
  let asked := (s.fn f).atsReq.filter fun q => q.1 == ps && q.2.1 == page
  if asked.isEmpty then .next s
  else
    let has := fun (wr : Bool) => match ans with | some a => 12 ≤ a.size && (if wr then a.write else a.read) | none => false
    let s1 := match ans with
      | some a => if 12 ≤ a.size && (a.read || a.write) then { s with ats := atsEntries f ps iova a ((s.fn f).hostGen.get ps 0) ++ s.ats } else s
      | none => s
    let ok := asked.filter fun q => has q.2.2
    let s2 := s1.modFn f fun x => { x with atsReq := x.atsReq.filter fun q => !ok.contains q }
    let s3 := (asked.filter fun q => !has q.2.2).foldl (fun s q => noRight s f ps page q.2.2) s2
    .next (postFaults s3 f)

/-- A page request that has ended (R45). -/
def dropPri (s : State) (f : Nat) (q : Nat × Nat × Bool) : State := s.modFn f fun x => { x with pri := x.pri.filter fun r => r != q }

/-- PAGE_REQUEST_RESPONSE (R45): on success the waiting strands re-run and the rest is retried. -/
def execPageRequestResponse (fn : BitVec 6) (pasid : BitVec 20) (iova : Nat) (code : PriCode) (s : State) : Out3 :=
  let f := fn.toNat
  let ps := pasid.toNat
  let page := iova / 4096
  let qs := (s.fn f).pri.filter fun q => q.1 == ps && q.2.1 == page
  if qs.isEmpty then .next s
  else
    let s1 := qs.foldl (fun s q => dropPri s f q) s
    match code with
    | .success =>
      let run := fun (g : Group) => { g with fwait := none, frec := { g.frec with fstat := setBits g.frec.fstat 30 30 0 } }
      let s2 := (priWaiters s1 f ps page).foldl (fun s (c, w, g) => s.modGroup c w g run) s1
      .next (postFaults (modSavedWaiters s2 f ps page run) f)
    | c =>
      let s2 := if c == .responseFailure then s1.modFn f fun x => { x with priOn := false } else s1
      .next (qs.foldl (fun s q => pageFails s f ps page q.2.2 (hostCode s f ps page)) s2)

/-- For how many ticks of X0's TIME something has been under way. -/
def State.ageOf (s : State) (b : Bound) : Nat := match s.since.find? fun e => e.1 == b with | some (_, t) => (s.times.getD 16 0 - t).toNat | none => 0

/-- A page request has had no response for 1 s, which are 250,000,000 ticks (R45). -/
def pageOver (s : State) (f : Nat) (q : Nat × Nat × Bool) : Bool := decide (250000000 ≤ s.ageOf (.page f q.1 q.2.1 q.2.2))

/-- PAGE_REQUEST_TIMEOUT (R45): no response within 1 s. -/
def execPageRequestTimeout (fn : BitVec 6) (pasid : BitVec 20) (iova : Nat) (s : State) : Out3 :=
  let f := fn.toNat
  let ps := pasid.toNat
  let page := iova / 4096
  let qs := (s.fn f).pri.filter fun q => q.1 == ps && q.2.1 == page
  .next ((qs.filter fun q => pageOver s f q).foldl (fun s q => pageFails (dropPri s f q) f ps page q.2.2 0x67) s)

/-- The host accesses of a PASID of a function that groups have outstanding, by number. -/
def hostOuts (s : State) (f pasid : Nat) : List Nat :=
  s.allCrews.flatMap fun (_, w) =>
    if w.part == f && w.pasid.toNat == pasid then w.groups.flatMap fun g => (g.outs.filter fun o => o.host).map (·.id) else []

/-- ATS_INVALIDATION (R46): the PASID's host generation advances, and the entries covered go. Accesses under older generations are rejected from now on. The
completion waits for the host accesses that are under way. -/
def execAtsInvalidation (fn : BitVec 6) (pasid : BitVec 20) (iova : Nat) (len : Nat) (s : State) : Out3 :=
  let f := fn.toNat
  let ps := pasid.toNat
  let s1 := s.modFn f fun x => { x with hostGen := x.hostGen.put ps (x.hostGen.get ps 0 + 1) }
  let s2 := { s1 with ats := s1.ats.filter fun e => !(e.fn == f && e.pasid == ps && overlaps e.iova e.size iova len) }
  .next (settleInval (s2.modFn f fun x => { x with inval := x.inval ++ [(ps, hostOuts s f ps)] }) f)

/-! ## The fault queue's registers (R184, R185) -/

/-- FQCTL_WRITE (R184). -/
def execFqctlWrite (fn : BitVec 6) (val : Dword) (s : State) : Out3 :=
  let f := fn.toNat
  let x := s.fn f
  let en := x.fqctl.getLsbD 63
  let sticky := maskNat x.fqctl 0x6000000000000000 &&& ~~~val
  let n := bits x.fqhead 19 16
  let on := val.getLsbD 63
  if !en && on && !(6 ≤ n && n ≤ 12 && inWindow s f (bits x.fqbase 56 12 * 4096) (64 * 2 ^ n)) then .next s
  else
    let pasid := if en then bits x.fqctl 59 40 else bits val 59 40
    let tail := if !en && on then 0 else bits x.fqctl 15 0
    let v : Dword := sticky ||| BitVec.ofNat 64 (bit on * 2 ^ 63 + pasid * 2 ^ 40 + bits val 20 16 * 2 ^ 16 + tail)
    let s1 := s.modFn f fun x => { x with fqctl := v }
    .next (if en && !on then dealHeld s1 f else postFaults s1 f)

/-- FQHEAD_WRITE (R184): a post held by a full queue goes out. -/
def execFqheadWrite (fn : BitVec 6) (val : Dword) (s : State) : Out3 :=
  let f := fn.toNat
  let x := s.fn f
  let n := if x.fqctl.getLsbD 63 then bits x.fqhead 19 16 else bits val 19 16
  .next (postFaults (s.modFn f fun x => { x with fqhead := BitVec.ofNat 64 (n * 2 ^ 16 + bits val 15 0) }) f)

/-- The resident group that holds a TOKEN of a function: core, crew, GID. -/
def tokenAt? (s : State) (f : Nat) (t : Word) : Option (Nat × Nat × Group) :=
  s.allCrews.findSome? fun (c, w) =>
    if w.part != f then none
    else (w.groups.find? fun g => g.live && (match g.fwait with | some (.queue u _) => u == t | _ => false)).map fun g => (c, w.slot, g)

/-- A saved crew has a group that holds the TOKEN. -/
def savedHolds (f : Nat) (t : Word) (q : QRec) : Bool :=
  match q.saved with
  | some w => w.part == f && w.groups.any fun g => g.live && (match g.fwait with | some (.queue u _) => u == t | _ => false)
  | none => false

/-- A retry is recorded with the waiting group (R185); PT is clear from then on (R184). -/
def recordRetry (t : Word) (g : Group) : Group :=
  match g.fwait with
  | some (.queue u _) => if u == t then { g with fwait := some (.queue t true), frec := { g.frec with fstat := setBits g.frec.fstat 30 30 0 } } else g
  | _ => g

/-- A TOKEN is answered: a group that has resumed and runs its strand again holds it no longer, and posts anew if it faults. DESIGN CHOICE (log 80): the spec names
the answer to a parked group alone. -/
def tokenAnswered (s : State) (f : Nat) (t : Word) : State :=
  let fix := fun (w : Crew) => if w.part == f then { w with groups := w.groups.map fun g => if g.openToken == some t then { g with openToken := none } else g } else w
  { s with
    cores := s.cores.map fun (c, k) => (c, { k with crews := k.crews.map fix })
    dies := s.dies.map fun (d, x) => (d, { x with queue := x.queue.map fun q => { q with saved := q.saved.map fix } }) }

/-- FRES_RETRY (R184, R185): the parked group re-runs; one that is stopped or saved re-runs when it resumes. -/
def execFresRetry (fn : BitVec 6) (token : Word) (s : State) : Out3 :=
  let f := fn.toNat
  let s := tokenAnswered s f token
  match tokenAt? s f token with
  | some (c, w, g) =>
    .next (s.modGroup c w g.gid fun g => if g.stopped then recordRetry token g else { recordRetry token g with fwait := none })
  | none =>
    let mark : QRec → QRec := fun q =>
      if savedHolds f token q then { q with saved := q.saved.map fun w => { w with groups := w.groups.map (recordRetry token) } } else q
    .next { s with dies := s.dies.map fun (d, x) => (d, { x with queue := x.queue.map mark }) }

/-- A saved crew whose recorded fault is made unhandled is killed (R183). -/
def killSavedAt (s : State) (d : Nat) (f : Nat) (t : Word) : State :=
  match (s.die d).queue.find? (savedHolds f t) with
  | none => s
  | some q =>
    match q.saved with
    | none => s
    | some w =>
      let g := w.groups.find? fun g => match g.fwait with | some (.queue u _) => u == t | _ => false
      let s1 := match g with
        | some g => s.countTrap w.part w.task.launch ⟨g.trapAt, 0, (coreReg w.lastCore).toNat, g.gid, g.frec.cause, g.frec.faddr⟩
        | none => s
      (discardWhere s1 d (savedHolds f t)).freeScopes f

/-- FRES_KILL (R184): the parked group's trap is unhandled, with the recorded cause. -/
def execFresKill (fn : BitVec 6) (token : Word) (s : State) : Out3 :=
  let f := fn.toNat
  let s := tokenAnswered s f token
  match tokenAt? s f token with
  | some (c, w, g) => .next (unhandledRecord s c w g)
  | none => .next ((List.range 8).foldl (fun s d => killSavedAt s d f token) s)

end Sys2Proof.Machine
end

