-- ==== Sys2Proof/Machine/Mgmt.lean ====
section
/-!
DEFINITION. Fences, partitions and frames (R54 to R59), scope tables and capability masks (R89, R255), energy and cuts (R62, R63, R85), rails (R27, R64,
R65), heat (R66, R67), and the row test (R68).
-/
namespace Sys2Proof.Machine

/-! ## MERR (R54) -/

/-- Refuse a write: its bit of MERR. -/
def refuse (s : State) (b : Nat) : State := { s with merr := setBits s.merr b b 1 }

/-- Some enabled partition runs in one of these fences (R55). -/
def fencesBusy (s : State) (fs : List Nat) : Bool := (List.range 64).any fun p => partOn s p && fs.contains (fenceOf s p)

/-! ## Fences (R55, R56) -/

/-- FMAP_WRITE (R55): both fences of a die that moves must be at rest. -/
def execFmapWrite (val : Dword) (s : State) : Out3 :=
  let v := maskNat val 0xFFFFFF
  let fid := fun (r : Dword) (d : Nat) => bits r (3 * d + 2) (3 * d)
  let ch := ((List.range 8).filter fun d => fid s.fmap d != fid v d).flatMap fun d => [fid s.fmap d, fid v d]
  if fencesBusy s ch then .next (refuse s 0) else .next { s with fmap := v }

/-- FWALL_WRITE (R55): the reserved code is refused. -/
def execFwallWrite (val : Dword) (s : State) : Out3 :=
  let v := maskNat val 0xFFFFF
  let ch := ((List.range 10).filter fun i => linkIn s.fwall i != linkIn v i).flatMap fun i =>
    let (a, b) := dieLinks.getD i (0, 0)
    [fenceOfDie s a, fenceOfDie s b]
  if (List.range 10).any (fun i => linkIn v i == 3) || fencesBusy s ch then .next (refuse s 1) else .next { s with fwall := v }

/-! ## Peer ports in and out of service (R21, R22, R55) -/

/-- TIME of the X-die that carries a port. -/
def portTime (s : State) (i : Nat) : Dword := s.times.getD (16 + i / 12) 0

/-- Retraining starts: FSEQ and FACK return to zero, and the retry buffer empties (R22). -/
def Port.retrain (p : Port) (now : Dword) : Port :=
  { p with down := true, train := true, trainAt := now, txSeq := 0, rxSeq := 0, retry := [], resend := [], retries := 0, due := false, stopTx := 0,
           rxBuf := Vector.replicate 4 0, reqs := [], await := [], bulk := [] }

/-- Accesses under way on a port, with the first lane of each that uses it. -/
def portAccesses (s : State) (i : Nat) : List (SplitRef × Nat × Nat × Dword) :=
  s.allCrews.flatMap fun (c, w) => w.groups.flatMap fun g => g.outs.filterMap fun o =>
    if o.ports.contains i then (o.addrs.find? fun x => bits x.2 61 57 == i).map fun x => (⟨c, w.slot, g.gid, o.split⟩, o.id, x) else none

/-- Every started copy that a port carries ends as one with an uncorrectable source does (R21). -/
def portCopies (s : State) (i : Nat) : State :=
  { s with clusters := s.clusters.map fun (k, c) => (k, { c with cmds := c.cmds.map fun m =>
      if !m.done && m.err.isNone && (m.srcPorts ++ m.dstPorts).contains i then
        { m with err := some (errAt 0x5D (if m.srcPorts.contains i then m.src else m.dst)) }
      else m }) }

/-- A port has gone down: an access that waited on it, in whichever lane, ends in the time-out of domain peer, a copy in its abort, and X0's PF gets a message on
entry 1 (R21, R22). -/
def portLost (s0 : State) (i : Nat) : State :=
  let s := portCopies s0 i
  ((portAccesses s i).foldl (fun s (r, id, x) => match out? s r id with | some o => farFault s r o 0x5F x | none => s) s).msix 0 1

/-- A value of PPMAP assigns its port i. -/
def assigns (v : Dword) (i : Nat) : Bool := v.getLsbD (4 * i + 3)

/-- One port after a PPMAP write: an assigned one leaves service, an unassigned one starts to retrain. -/
def remap (old new : Dword) (base : Nat) (s : State) (i : Nat) : State :=
  let p := s.port (base + i)
  if assigns old i && !assigns new i then
    let s1 := s.setPort (base + i) { p with down := true, train := false }
    if p.down then s1 else portLost s1 (base + i)
  else if !assigns old i && assigns new i then s.setPort (base + i) (p.retrain (portTime s (base + i)))
  else s

/-- PPMAP_WRITE (R22, R55). -/
def execPpmapWrite (high : Bool) (val : Dword) (s : State) : Out3 :=
  let old := if high then s.ppmap1 else s.ppmap0
  let v := maskNat val 0xFFFFFFFFFFFF
  let fences := fun (r : Dword) (i : Nat) => if assigns r i then [bits r (4 * i + 2) (4 * i)] else []
  let ch := ((List.range 12).filter fun i => bits old (4 * i + 3) (4 * i) != bits v (4 * i + 3) (4 * i)).flatMap fun i => fences old i ++ fences v i
  if fencesBusy s ch then .next (refuse s 0)
  else .next ((List.range 12).foldl (remap old v (if high then 12 else 0)) (if high then { s with ppmap1 := v } else { s with ppmap0 := v }))

/-! ## Partitions (R57, R58) -/

/-- The writable fields of PCFG word 0, with CUT as it is. -/
def pcfgWritten (old val : Dword) : Dword := maskNat val 0x87FCFFFFFFFF0000 ||| maskNat old 3

/-- Every link with an end on a die of the fence is open within a fence, and closed or in transit between fences (R55). -/
def linkRule (s : State) (f : Nat) : Bool :=
  dieLinks.zipIdx.all fun ((a, b), i) =>
    let x := fenceOfDie s a
    let y := fenceOfDie s b
    (x != f && y != f) || (x == y) == (linkIn s.fwall i == 0)

/-- A write that sets EN is accepted (R57). -/
def enableOk (s : State) (p : Nat) (v : Dword) : Bool :=
  let f := bits v 58 56
  let ds := fenceDies s f
  let cnt := ((List.range 64).filter fun q => q != p && partOn s q).foldl (fun n q => n + aqiCount s q) (bits v 55 50)
  !ds.isEmpty && linkRule s f && ds.all (fun d => xRoute s d (p / 32)) && s.holdsFrame p (sysFrame s p * 2 ^ 30) && decide (bits v 55 50 ≤ 32) && decide (cnt ≤ 512)

/-- The cancels of a partition that are still on their way reach their dies (R92). -/
def flushCancels (s : State) (p : Nat) : State :=
  (List.range 8).foldl (fun s d =>
    ((s.die d).cancels.filter fun k => k.1 == p).foldl (fun s k => applyCancel (s.modDie d fun x => { x with cancels := x.cancels.erase k }) d p k.2) s) s

/-- PARTITION_ENABLE (R57, R58, R89): PEN is zero, and every entry of the scope table is FREE. The cores of a fence that no partition holds go to the one that is
enabled, unless its SLICE is 0. DESIGN CHOICE (log 50): who holds an idle fence until the first slice ends is not stated. -/
def execPartitionEnable (p : BitVec 6) (val : Dword) (s : State) : Out3 :=
  let q := p.toNat
  let v := pcfgWritten (s.part q).pcfg0 val
  if partOn s q || !v.getLsbD 63 then .next s
  else if !enableOk s q v then .next (refuse s 2)
  else
    let s0 := (flushCancels s q).modPart q fun x => { x with pcfg0 := v, pen := 0 }
    let base := s0.sctbBase q
    let f := bits v 58 56
    let s1 := if s0.ownsFrame q base then s0.devZero base (base + 2 ^ 21) else s0
    .next { s1 with
      scopes := s1.scopes.filter fun e => e.1 / 65536 != q
      slice := if s1.slice.get f 0 == 0 && bits v 47 32 != 0 then s1.slice.put f (q + 1) else s1.slice
      sliceAt := if s1.slice.get f 0 == 0 then s1.sliceAt.put f (fenceTime s1 f) else s1.sliceAt }

/-- A packet of a partition under reset completes with RESULT 3; its message keeps the entry of its AQI (R50, R58). -/
def resetPacket (s : State) (k : Packet) : State :=
  let opv : Dword := if k.op == 0x11 then BitVec.ofNat 64 k.pos else 0
  let s1 :=
    if k.comp.isSome then s
    else match s.launches.find? fun l => l.part == k.fn && l.pkt == some k.id with
      | some l => (s.lastShare l).complete k.id 3 0 l.exc l.trap l.retired
      | none => s.complete k.id 3 opv 0 none 0
  s1.modPacket k.id fun x => { x with begun := true, vec := some (s.aqi k.fn k.aqi).vecc }

/-- Every root scope of a partition that is in use. -/
def rootScopes (s : State) (p : Nat) : List Nat :=
  s.scopes.filterMap fun (k, e) => if k / 65536 == p && e.st != .free && e.parent.toNat == k % 65536 then some (k % 65536) else none

/-- Every group of a partition that is parked on a fault dies; the others die at their next kill point (R58, R61). -/
def killParked (s : State) (p : Nat) : State :=
  let s1 := (s.allCrews.filter fun x => x.2.part == p).foldl (fun s (c, w) =>
    s.modCrew c w.slot fun w => { w with groups := w.groups.map fun g => if g.live then { g with doomed := true } else g }) s
  let parked := (s1.allCrews.filter fun x => x.2.part == p).flatMap fun (c, w) =>
    (w.groups.filter fun g => g.live && g.fwait.isSome).map fun g => (c, w.slot, g.gid)
  let s2 := parked.foldl (fun s (c, w, g) => groupEnds s c w g true) s1
  (List.range 8).foldl (fun s d => discardWhere s d fun q =>
    q.part == p && match q.saved with | some w => w.groups.any fun g => g.live && g.fwait.isSome | none => false) s2

/-- What belongs to the work of a partition bears the mark of its reset: no successor decrement for what the reset ends, no add at ACKA or STEPCTR (R58). -/
def markReset (s : State) (p : Nat) : State :=
  let crew := fun (w : Crew) => if w.part == p then { w with reset := true } else w
  let rec_ := fun (r : QRec) => if r.part == p then { r with reset := true, saved := r.saved.map crew } else r
  let cell := fun (c : HeldCell) => if c.part == p then { c with reset := true } else c
  { s with
    cores := s.cores.map fun (c, k) => (c, { k with crews := k.crews.map crew })
    dies := s.dies.map fun (d, x) => (d, { x with queue := x.queue.map rec_, cells := x.cells.map cell })
    scopes := s.scopes.map fun (k, e) => (k, if k / 65536 == p then { e with mute := true, packets := [] } else e)
    launches := s.launches.map fun l => if l.part == p then { l with pkt := none, ext := { l.ext with stepctr := 0 } } else l }

/-- The buffers of the cores that a partition has used last count as zeroed for whoever uses them next (R58, R59). -/
def zeroBuffers (s : State) (p : Nat) : State :=
  let out := fun (m : SMap Nat) => m.map fun e => if e.2 == p + 1 then (e.1, 65) else e
  { s with cores := s.cores.map fun (c, k) => (c, { k with
      rowLast := out k.rowLast, blockLast := out k.blockLast, gristPart := if k.gristPart == p then 64 else k.gristPart,
      bankPart := if k.bankPart == p then 64 else k.bankPart }) }

/-- PARTITION_RESET (R58). -/
def execPartitionReset (p : BitVec 6) (val : Dword) (s : State) : Out3 :=
  let q := p.toNat
  let old := (s.part q).pcfg0
  let v := pcfgWritten old val
  if !partOn s q || v.getLsbD 63 then .next s
  else if bits v 58 50 != bits old 58 50 then .next (refuse s 2)
  else
    let s1 := s.modPart q fun x =>
      { x with pcfg0 := v, snaps := x.snaps.map fun n => if n.phase == .holding then Snap.reset else n }
    let s2 := (s1.packets.filter fun k => k.fn == q).foldl resetPacket s1
    let s3 := (s2.modFn q fun x => { x with aqis := [], posts := [] })
    let s4 := markReset s3 q
    let s5 := (rootScopes s4 q).foldl (fun s r => if (s.scope q r).pend == 0xFFFFFFFF then s else s.acceptCancel q r none none) s4
    .next ((killParked (zeroBuffers s5 q) q).freeScopes q)

/-! ## Frames (R59) -/

/-- FOWN_WRITE (R59): a grant starts the zeroing; a revocation takes effect at once. -/
def execFownWrite (f : BitVec 10) (val : Byte) (s : State) : Out3 :=
  let n := f.toNat
  let old := s.fownOf n
  let o := bits val 5 0
  if 768 ≤ n then .next s
  else if !val.getLsbD 6 then .next { s with fown := s.fown.put n (BitVec.ofNat 8 (bit (old.getLsbD 7) * 128 + o)) }
  else if old.getLsbD 6 || old.getLsbD 7 || fenceOf s o != fenceOfDie s (n / 96) then .next (refuse s 3)
  else .next { s with fown := s.fown.put n (BitVec.ofNat 8 (0xC0 + o)) }

/-- FRAME_ZEROED (R59): the frame holds zeros, none of them poisoned, and CLR clears. -/
def execFrameZeroed (f : BitVec 10) (s : State) : Out3 :=
  let n := f.toNat
  if !(s.fownOf n).getLsbD 7 then .next s
  else
    .next { s with
      mem := s.mem.zeroRange (n * 2 ^ 30) ((n + 1) * 2 ^ 30)
      poison := s.poison.filter fun w => w / 2 ^ 24 != n
      cells := s.cells.filter fun a => a / 2 ^ 30 != n
      fown := s.fown.put n (setBits (s.fownOf n) 7 7 0) }

/-- SCTB_WRITE (R89). -/
def execSctbWrite (p : BitVec 6) (val : Dword) (s : State) : Out3 :=
  let q := p.toNat
  if partOn s q || !s.holdsFrame q (bits val 18 9 * 2 ^ 30) then .next (refuse s 2)
  else .next (s.modPart q fun x => { x with sctb := maskNat val 0x7FFFF })

/-- CAPMASK_WRITE (R255): the mask that CAPSEL selects. -/
def execCapmaskWrite (val : Dword) (s : State) : Out3 :=
  let p := bits s.capsel 13 8
  if partOn s p then .next (refuse s 2)
  else .next (s.modPart p fun x => { x with capmask := vmod x.capmask (bits s.capsel 2 0) fun _ => val })

/-! ## Rails (R27, R64, R65) -/

/-- A change of a target is under way. -/
def changing (s : State) (t : RailTarget) : Bool := s.changes.any fun c => c.target == t

/-- RSW_WRITE (R64, R65): each cluster whose rail changes begins to quiesce. -/
def execRswWrite (die : BitVec 3) (val : Dword) (s : State) : Out3 :=
  let d := die.toNat
  let old := (s.die d).rsw
  let sel := fun (v : Dword) (c : Nat) => bits v (2 * c + 1) (2 * c)
  let ch := (List.range 12).filter fun c => sel old c != sel val c
  let pend := ch.foldl (fun (a : Dword) c => setBits a (24 + c) (24 + c) 1) (maskNat old 0xFFF000000)
  let new := (ch.filter fun c => !changing s (.cluster d c)).map fun c => (⟨.cluster d c, sel old c, s.times.getD 16 0, none⟩ : RailChange)
  .next { s.modDie d fun x => { x with rsw := pend ||| maskNat val 0xFFFFFF } with changes := s.changes ++ new }

/-- The distance of two voltages. -/
def apart (a b : Nat) : Nat := (a - b) + (b - a)

/-- Where a ramp from one voltage to another has come to after some ticks: 5 mV/µs are 1 mV in 50 ticks (R65). -/
def rampAt (v goal ticks : Nat) : Nat := if v ≤ goal then min goal (v + ticks / 50) else max goal (v - ticks / 50)

/-- A ramp is aimed at another voltage, from where it has come to (R65). -/
def RailChange.retarget (c : RailChange) (old : Nat) (now : Dword) : RailChange :=
  { c with ramp := c.ramp.map fun (v, t) => (rampAt v old (now - t).toNat, now) }

/-- RVOLT_WRITE (R64, R65): a SET that differs begins a change, or retargets the one under way. -/
def execRvoltWrite (rail : BitVec 2) (val : Dword) (s : State) : Out3 :=
  let n := rail.toNat
  let v := bits val 15 0
  let r := s.rail n
  if v < 600 || 850 < v || v % 10 != 0 then .next (refuse s 4)
  else if v == bits r.rvolt 15 0 then .next s
  else
    let s1 := s.setRail n { r with rvolt := setBits r.rvolt 15 0 v }
    let now := s.times.getD 16 0
    let aimed := s1.changes.map fun c => if c.target == .rail n then c.retarget (bits r.rvolt 15 0) now else c
    .next { s1 with changes := if changing s (.rail n) then aimed else s1.changes ++ [⟨.rail n, 0, now, none⟩] }

/-- The crews on the clusters that a change concerns. -/
def concerned (s : State) (t : RailTarget) : List (Nat × Crew) :=
  s.allCrews.filter fun (core, _) => match t with
    | .cluster d c => dieOf core == d && clusterInDie core == c
    | .rail n => railOf s core == n

/-- The crews that a change finds running when its 50 µs, which are 12,500 ticks, are over, and that a quiesce can act on: those that can stop, and those that have
not begun to. A slice end that is due comes first (R61, R65). -/
def quiesceOut (s : State) (t : RailTarget) : List (Nat × Crew) :=
  if s.changes.any fun c => c.target == t && decide (12500 ≤ (s.times.getD 16 0 - c.since).toNat) then
    (concerned s t).filter fun (c, w) => !w.halted && !w.ended && !sliceFirst s c && (stoppable s c w || !w.halting)
  else []

/-- QUIESCE_TIMEOUT (R65): the crews still running halt in place, each group at its next instruction boundary. -/
def execQuiesceTimeout (t : RailTarget) (s : State) : Out3 :=
  .next ((quiesceOut s t).foldl (fun s (c, w) => if stoppable s c w then haltCrew s c w.slot else beginHalt s c w.slot) s)

/-- Every running crew has retired or halted, and for a connection the cluster's copy engine has finished every started command (R65). -/
def quiesced (s : State) (t : RailTarget) : Bool :=
  (concerned s t).all (fun (_, w) => w.halted) && match t with | .cluster d c => (s.cluster (12 * d + c)).cmds.isEmpty | .rail _ => true

/-- The ramp of a rail has come to SET; there is none for a connection, and none before the ramp has begun (R65). -/
def rampOver (s : State) (t : RailTarget) : Bool :=
  match t with
  | .cluster _ _ => true
  | .rail n => s.changes.any fun c => c.target == t && match c.ramp with
    | some (v, at_) => decide (50 * apart v (bits (s.rail n).rvolt 15 0) ≤ (s.times.getD 16 0 - at_).toNat)
    | none => false

/-- A quiesced rail whose ramp has not begun. -/
def rampWaits (s : State) (t : RailTarget) : Bool :=
  quiesced s t && match t with | .cluster _ _ => false | .rail _ => s.changes.any fun c => c.target == t && c.ramp.isNone

/-- RAIL_CHANGE_APPLIED (R65): once quiesced, a rail ramps to SET at 5 mV/µs; then, and for a connection at once, PEND clears, or CUR is SET, and binding resumes.
The cycles of the cores until now are counted at the voltage that they had (R121). -/
def execRailChangeApplied (t : RailTarget) (s : State) : Out3 :=
  if !changing s t || !quiesced s t then .next s
  else if rampWaits s t then
    .next { s with changes := s.changes.map fun c =>
      match t with
      | .rail n => if c.target == t then { c with ramp := some (bits (s.rail n).rvolt 31 16, s.times.getD 16 0) } else c
      | .cluster _ _ => c }
  else if !rampOver s t then .next s
  else
    let s1 := { s.allCaughtUp t with changes := s.changes.filter fun c => c.target != t }
    .next (match t with
      | .cluster d c => s1.modDie d fun x => { x with rsw := setBits x.rsw (24 + c) (24 + c) 0 }
      | .rail n => let r := s1.rail n; s1.setRail n { r with rvolt := setBits r.rvolt 31 16 (bits r.rvolt 15 0) })

/-- RAIL_OVERCURRENT (R27): the rail's current has been above its rating for more than 1 µs, or still is. -/
def execRailOvercurrent (rail : BitVec 2) (s : State) : Out3 :=
  .next (s.setRail rail.toNat { s.rail rail.toNat with throttled := true, overAt := s.times.getD 16 0 })

/-- THROTTLE_RELEASE (R27): the current has been within the rating for 8 µs, which are 2,000 ticks. -/
def execThrottleRelease (rail : BitVec 2) (s : State) : Out3 :=
  let r := s.rail rail.toNat
  if 2000 ≤ (s.times.getD 16 0 - r.overAt).toNat then .next (s.setRail rail.toNat { r with throttled := false }) else .next s

/-! ## Energy, cuts and charges (R62, R63, R85) -/

/-- CUT after an interval: e is the attribution over the last 16, cap is PCAP (R63). -/
def nextCut (e cap cut : Nat) : Nat :=
  let c := min cap 4200 * 2000
  if cap == 0 then cut else if c < e then min (cut + 1) 3 else if 10 * e < 9 * c then cut - 1 else cut

/-- A partition at the end of an interval in which e units were attributed to it. PEN stands still while EN is 0 (R58). -/
def Part.interval (x : Part) (e : Nat) : Part :=
  let h := (e :: x.hist).take 16
  { x with hist := h, pen := if x.pcfg0.getLsbD 63 then x.pen + BitVec.ofNat 64 e else x.pen,
           pcfg0 := setBits x.pcfg0 1 0 (nextCut h.sum (bits x.pcfg0 31 16) (bits x.pcfg0 1 0)) }

/-- The charge of a cluster at the start of an interval: the crews bound in it that are not halted in place, at the CUR of now (R65, R85). -/
def recharge (s : State) (cl : Nat) : State :=
  let ws := (List.range 8).flatMap fun i => (s.core (8 * cl + i)).crews.map fun w => (8 * cl + i, w)
  let s1 := ws.foldl (fun s (c, w) => s.modCrew c w.slot fun w => { w with charged := none }) s
  (ws.filter fun (_, w) => !w.halted).foldl (fun s (c, w) => chargeCrew s c w.slot) (s1.modCluster cl fun c => { c with energy := 0, peak := 0 })

/-- The units that an event attributes to a partition. -/
def unitsOf (l : List (Nat × Nat)) (p : Nat) : Nat := ((l.filter fun x => x.1 == p).map (·.2)).sum

/-- The launches of a partition take their shares of the units attributed to it; what work of no launch has caused is the rest. How the units divide is a free
choice, since the weights of the counters are not stated (R62; log 43). -/
def shareUnits (n p : Nat) : Nat → List Launch → List Launch
  | _, [] => []
  | left, l :: t =>
    if l.part != p then l :: shareUnits n p left t
    else
      let x := (Config.freeDword (n + t.length)).toNat % (left + 1)
      { l with energy := l.energy + BitVec.ofNat 64 x } :: shareUnits n p (left - x) t

/-- The units of a partition in an interval: what the event attributes to it where it had work or cores, and no less than the completion records of the interval
have named (R62). -/
def intervalUnits (s : State) (energy : List (Nat × Nat)) (p : Nat) : Nat :=
  max (if s.worked.contains p then unitsOf energy p else 0) (unitsOf s.spent p)

/-- The 8 µs of a control interval, 2,000 ticks, are over (R63). -/
def intervalOver (s : State) : Bool := decide (2000 ≤ (s.times.getD 16 0 - s.intervalAt).toNat)

/-- CONTROL_INTERVAL_END (R62, R63, R85), every 8 µs: the units attributed come with the event; a partition that had neither work nor cores gets none. -/
def execControlIntervalEnd (energy : List (Nat × Nat)) (s : State) : Out3 :=
  if !intervalOver s then .next s
  else
    let ps := ((s.parts.map (·.1)) ++ energy.map (·.1) ++ s.spent.map (·.1)).eraseDups.filter (· < 64)
    let s1 := ps.foldl (fun s p =>
      let u := intervalUnits s energy p
      { s.modPart p fun x => x.interval u with
        launches := shareUnits s.free p (u - unitsOf s.spent p) s.launches, free := s.free + s.launches.length + 1 }) s
    let cls := ((s.clusters.map (·.1)) ++ s.cores.map fun x => clusterOf x.1).eraseDups
    .next (cls.foldl recharge { s1 with intervalAt := s.times.getD 16 0, worked := [], spent := [] })

/-! ## Heat (R66, R67) -/

/-- THERM_WRITE (R67). -/
def execThermWrite (die : BitVec 3) (val : Dword) (s : State) : Out3 :=
  if bits val 7 0 + 8 ≤ bits val 15 8 ∧ bits val 15 8 ≤ 115 then
    .next (s.modDie die.toNat fun x => { x with therm := maskNat x.therm 0xFF0000 ||| maskNat val 0xFFFF })
  else .next (refuse s 5)

/-- HOTMAX of a die: its hottest core. -/
def hotMax (s : State) (d : Nat) : Nat := (s.cores.filter fun x => dieOf x.1 == d).foldl (fun n x => max n x.2.temp) 0

/-- TEMPERATURE_READ (R66), every 10 µs, which are 2,500 ticks: at TCRIT nothing issues on the core, every crew of it that can stop halts in place, and X0's PF gets a message on entry 0; below
TCRIT by more than 10 degrees it may run again. -/
def execTemperatureRead (core : Nat) (temp : Nat) (s : State) : Out3 :=
  if 768 ≤ core || decide ((s.timeOf (dieOf core) - (s.core core).tempAt).toNat < 2500) then .next s
  else
    let d := dieOf core
    let now := s.timeOf d
    let above := fun (t : Nat) => decide (bits (s.die d).therm 7 0 < t)
    let below := fun (t : Nat) => decide (t + 4 ≤ bits (s.die d).therm 7 0)
    let tc := bits (s.die d).therm 15 8
    let was := (s.core core).hot
    let hot := decide (tc ≤ temp) || (was && decide (tc ≤ temp + 10))
    let s1 := s.modCore core fun k =>
      { k with temp := temp, hot := hot, tempAt := now, cutAt := if above temp == above k.temp && below temp == below k.temp then k.cutAt else now }
    let s2 := s1.modDie d fun x => { x with therm := setBits x.therm 23 16 (hotMax s1 d) }
    let s3 := if hot && !was then s2.msix 0 0 else s2
    let out := (s3.core core).crews.filter fun w => !w.halted && !w.ended && stoppable s3 core w
    .next (if hot then out.foldl (fun s w => haltCrew s core w.slot) s3 else s3)

/-- A crew that heat would move has no core to go to (R66). -/
def nowhere (s : State) (core : Nat) (w : Crew) : Bool :=
  decide (250000 ≤ w.resid) && !w.halted && !(coresOf (dieOf core)).any fun c => goodTarget s core c { w with migr := false } true

/-- The level that a core's thermal cut goes to next (R66). -/
def cutNext (s : State) (core : Nat) : Nat :=
  let k := s.core core
  let thot := bits (s.die (dieOf core)).therm 7 0
  if thot < k.temp then (if k.crews.any (nowhere s core) then min (k.cut + 1) 3 else k.cut)
  else if k.temp + 4 ≤ thot then k.cut - 1 else k.cut

/-- The 100 µs between two steps of a core's thermal cut, 25,000 ticks, are over (R66). -/
def cutOver (s : State) (core : Nat) : Bool := decide (25000 ≤ (s.timeOf (dieOf core) - (s.core core).cutAt).toNat)

/-- THERMAL_CUT_STEP (R66): one level every 100 µs. -/
def execThermalCutStep (core : Nat) (s : State) : Out3 :=
  if cutOver s core then .next (s.modCore core fun k => { k with cut := cutNext s core, cutAt := s.timeOf (dieOf core) }) else .next s

/-! ## The row test (R68) -/

/-- A count that saturates at 0xFFFF gains one. -/
def bump (v : Dword) (hi lo : Nat) : Dword := setBits v hi lo (min (bits v hi lo + 1) 0xFFFF)

/-- A page of device memory is lost: the partition that owns its frame is told (R186). -/
def pageLost (s : State) (pa : Nat) : State :=
  let e := s.fownOf (pa / 2 ^ 30)
  if !e.getLsbD 6 then s
  else s.modFn (bits e 5 0) fun x =>
    { x with pgerr := if x.pgerr.getLsbD 63 then setBits x.pgerr 62 62 1 else setBits (setBits x.pgerr 63 63 1) 39 12 (pa / 4096) }

/-- A core is withdrawn: ECNT counts it. -/
def withdraw (s : State) (core : Nat) : State :=
  let s1 := s.modCore core fun k => { k with withdrawn := true }
  s1.modDie (dieOf core) fun x => { x with ecnt := setBits x.ecnt 7 0 ((coresOf (dieOf core)).filter fun c => (s1.core c).withdrawn).length }

/-- ROW_TEST_DONE (R68): the error is classed; where no spare is left, the core is withdrawn or the page reported. -/
def execRowTestDone (row : Nat) (pass : Bool) (spareLeft : Bool) (s : State) : Out3 :=
  if !s.rows.contains row then .next s
  else
    let array := decide (2 ^ 40 ≤ row)
    let d := if array then dieOf (row - 2 ^ 40) else State.dieOfPa (4096 * row)
    let s1 := { s with rows := s.rows.filter (· != row) }
    let s2 := s1.modDie d fun x => { x with ecnt := if pass then bump x.ecnt 47 32 else bump x.ecnt 63 48 }
    .next (if pass || spareLeft then s2 else if array then withdraw s2 (row - 2 ^ 40) else pageLost s2 (4096 * row))

end Sys2Proof.Machine
end

