-- ==== Sys2Proof/Machine/Links.lean ====
section
/-!
DEFINITION. The peer ports: flits (R16, R18 to R20), retraining (R21, R22), and inbound accesses (R144). What the device's requests put into a payload is not
stated: the payload of a data flit is a free value (log 29).
-/
namespace Sys2Proof.Machine

/-! ## Flits (R18) -/

/-- KIND. -/
def kindNum : FlitKind → Nat
  | .data => 0 | .idle => 1 | .retry => 2 | .reserved => 3

/-- Bits [1983:0] of a flit, which its CRC covers. -/
def flitBody (f : Flit) : Nat :=
  f.payload.toNat * 2 ^ 64 + f.fseq.toNat * 2 ^ 52 + f.fack.toNat * 2 ^ 40 + f.stop.toNat * 2 ^ 36 + f.vc.toNat * 2 ^ 34 + kindNum f.kind * 2 ^ 32
    + f.len.toNat * 2 ^ 27 + f.reserved.toNat

/-- STOP as a receiver sends it: VC 0 and VC 2 while fewer than 24 of their 64 slots are free (R20). -/
def Port.stopBits (p : Port) : BitVec 4 :=
  let full := fun (n : Nat) => decide (64 < p.rxBuf.getD n 0 + 24)
  BitVec.ofNat 4 (bit (full 0) + 4 * bit (full 2))

/-- A flit with its FACK, STOP and CRC as they are now. -/
def Port.stamp (p : Port) (f : Flit) : Flit :=
  let g := { f with fack := p.rxSeq, stop := p.stopBits }
  { g with crc := Config.flitCrc (flitBody g) }

/-- Send a new flit: it takes the next FSEQ and enters the retry buffer (R19). -/
def Port.send (p : Port) (kind : FlitKind) (vc : BitVec 2) (len : BitVec 5) (payload : BitVec 1920) : Port :=
  let f := p.stamp { crc := 0, payload := payload, fseq := p.txSeq + 1, fack := 0, stop := 0, vc := vc, kind := kind, len := len, reserved := 0 }
  { p with txSeq := p.txSeq + 1, retry := p.retry ++ [f], sent := p.sent ++ [f] }

/-- The retry buffer has room for a new flit. -/
def Port.room (p : Port) : Bool := decide (p.retry.length < 512)

/-- Send the first flit of those that are sent again, in their first order (R19). -/
def Port.again (p : Port) : Port :=
  match p.resend with
  | [] => p
  | f :: t => { p with resend := t, sent := p.sent ++ [p.stamp f] }

/-- Ask for a retry from FACK + 1, as soon as there is room (R19). -/
def Port.askRetry (p : Port) : Port := if p.room then { p.send .retry 0 0 0 with due := false } else { p with due := true }

/-- The payload of n words that are free values; the words beyond are zero. -/
def freePayload (seed n : Nat) : BitVec 1920 :=
  BitVec.ofNat 1920 ((List.range n).foldl (fun a i => a + (Config.freeDword (seed + i)).toNat * 2 ^ (64 * i)) 0)

/-- A data flit of VC 0 carries requests, the oldest that wait for one, at least one of them; one of VC 2 carries bulk data that goes out. How many is a free
choice (R16, R266). A copy's read is answered on VC 2. -/
def Port.carry (p : Port) (vc : BitVec 2) (n : Nat) : Port :=
  let reads := (p.bulk.filter fun e => !e.2).map (·.1)
  let out := (p.bulk.filter (·.2)).map (·.1)
  let k := 1 + n % max 1 (if vc == 0 then p.reqs.length else out.length)
  if vc == 0 then { p with reqs := p.reqs.drop k, await := p.await ++ (p.reqs.take k).filter fun id => !reads.contains id }
  else if vc == 2 then { p with bulk := p.bulk.filter fun e => !(e.2 && (out.take k).contains e.1), await := p.await ++ out.take k }
  else p

/-- The receiver takes on flits that stand in its buffers whenever it may: how many by now is a free choice (R20). -/
def Port.drain (p : Port) (n : Nat) : Port := { p with rxBuf := Vector.ofFn fun (i : Fin 4) => p.rxBuf.getD i 0 - (Config.freeDword (n + i)).toNat % (p.rxBuf.getD i 0 + 1) }

/-- FLIT_TRANSMIT (R19, R20): flits to be sent again go first; a new data flit needs room, and a channel that is not stopped. -/
def execFlitTransmit (port : Nat) (vc : BitVec 2) (s : State) : Out3 :=
  let p := (s.port port).drain (s.free + 33)
  if p.down then .next s
  else if !p.resend.isEmpty then .next { s.setPort port p.again with free := s.free + 37 }
  else if !p.room || p.stopTx.getLsbD vc.toNat then .next s
  else
    let n := (Config.freeDword s.free).toNat % 31
    .next { s.setPort port ((p.send .data vc (BitVec.ofNat 5 n) (freePayload (s.free + 1) n)).carry vc (Config.freeDword (s.free + 32)).toNat) with
            free := s.free + 37 }

/-- IDLE_FLIT (R20). -/
def execIdleFlit (port : Nat) (s : State) : Out3 :=
  let p := (s.port port).drain s.free
  if p.down || !p.resend.isEmpty || !p.room then .next s else .next { s.setPort port (p.send .idle 0 0 0) with free := s.free + 4 }

/-- A flit that its receiver discards (R19). -/
def Port.discards (p : Port) (f : Flit) : Bool :=
  f.crc != Config.flitCrc (flitBody f) || f.kind == .reserved || decide (30 < f.len.toNat) || f.reserved != 0 || f.stop.getLsbD 1 || f.stop.getLsbD 3
    || f.fseq != p.rxSeq + 1

/-- The flits that FACK does not acknowledge: those after it, where it names one of the list. -/
def unacked (fack : BitVec 12) (l : List Flit) : List Flit :=
  match l.dropWhile fun f => f.fseq != fack with
  | [] => l
  | _ :: t => t

/-- What an intact flit in order tells the sender side: FACK and STOP (R18 to R20). The count of retries is one for the port, of the requests received since FACK last
advanced: all flits since then have been sent again as often. DESIGN CHOICE (log 41): R21 does not say what counts toward one flit's ninth retry. -/
def Port.heed (p : Port) (f : Flit) : Port :=
  let r := unacked f.fack p.retry
  let p1 := { p with rxSeq := f.fseq, stopTx := f.stop, retry := r, resend := p.resend.filter fun x => r.any fun y => y.fseq == x.fseq,
                     retries := if r.length < p.retry.length then 0 else p.retries }
  if p1.due then p1.askRetry else p1

/-- A data flit is delivered. How many flits of its channel have been taken on by then is left open: drained at most all of them (R20). One of VC 1 carries
responses, one of VC 2 bulk data that was asked for: those that a free choice names of the ones awaited (R16, R266). -/
def Port.deliver (p : Port) (vc : BitVec 2) (n : Nat) : Port :=
  { p with
    rxBuf := vmod p.rxBuf vc.toNat fun m => min 64 (m + 1 - (Config.freeDword n).toNat % (m + 2))
    await := if vc == 1 then p.await.filter fun id => Config.freeBit n 1 id else p.await
    bulk := if vc == 2 then p.bulk.filter fun e => e.2 || p.reqs.contains e.1 || Config.freeBit n 1 e.1 else p.bulk }

/-- A port goes out of service and retrains, with what waited on it (R21, R22). -/
def retrainPort (s : State) (i : Nat) : State := portLost (s.setPort i ((s.port i).retrain (portTime s i))) i

/-- FLIT_RECEIVE (R19 to R21). -/
def execFlitReceive (port : Nat) (flit : Flit) (s : State) : Out3 :=
  let p := s.port port
  if p.down then .next s
  else if p.discards flit then .next (s.setPort port p.askRetry)
  else
    let p1 := p.heed flit
    match flit.kind with
    | .data => .next { s.setPort port (p1.deliver flit.vc s.free) with free := s.free + 1 }
    | .retry =>
      if p1.retry.isEmpty then .next (s.setPort port p1)
      else if 8 ≤ p1.retries then .next (retrainPort (s.setPort port p1) port)
      else .next (s.setPort port { p1 with resend := p1.retry, retries := p1.retries + 1 })
    | .idle => .next (s.setPort port p1)
    | .reserved => .next s

/-! ## Retraining (R22) -/

/-- The 100 µs of a retraining, 25,000 ticks, are over (R22). -/
def retrainOver (s : State) (port : Nat) : Bool := (s.port port).train && decide (25000 ≤ (portTime s port - (s.port port).trainAt).toNat)

/-- RETRAIN_COMPLETE (R22), within 100 µs. -/
def execRetrainComplete (port : Nat) (s : State) : Out3 :=
  let p := s.port port
  if p.train && !retrainOver s port then .next (s.setPort port { p with down := false, train := false }) else .next s

/-- RETRAIN_TIMEOUT (R21, R22): the port stays down, and X0's PF gets a message on entry 1. -/
def execRetrainTimeout (port : Nat) (s : State) : Out3 :=
  let p := s.port port
  if retrainOver s port then .next (portLost (s.setPort port { p with down := true, train := false }) port) else .next s

/-- PPRETR_WRITE (R22): a port that is assigned, down and not retraining starts to. -/
def execPpretrWrite (val : Dword) (s : State) : Out3 :=
  if bits val 63 24 != 0 then .next s
  else
    let go := (List.range 24).filter fun i => val.getLsbD i && (portFence s i).isSome && (s.port i).down && !(s.port i).train
    .next (go.foldl (fun s i => s.setPort i ((s.port i).retrain (portTime s i))) s)

/-! ## Inbound accesses (R144) -/

/-- The peer kind that a fault here has at the originator (R179). -/
def peerKind : XErr → Nat
  | .notPresent => 0 | .protection => 1 | .misaligned => 2 | .bounds => 3 | .stale => 4 | .uncorrectable => 5 | .firewall => 6 | .timeout => 7
  | .walkUnc => 5 | .walkFw => 6 | .walkTime => 7

/-- The operation of an atomic (R267). -/
def PeerOp.atomic? : PeerOp → Option AOp
  | .load => none | .store => none
  | .add => some .add | .and => some .and | .or => some .or | .xor => some .xor | .smin => some .smin | .smax => some .smax | .umin => some .umin
  | .umax => some .umax | .exch => some .exch | .cas => some .cas | .fadd => some .fadd

/-- Answer an inbound access. -/
def answerPeer (s : State) (i kind : Nat) (v : Nat) : State :=
  s.setPort i { s.port i with answers := (s.port i).answers ++ [(kind, BitVec.ofNat 64 v)] }

/-- Widths that an access of a kind may have. -/
def peerWidth (a : PeerAccess) : Bool := if (PeerOp.atomic? a.op).isSome then a.size == 4 || a.size == 8 else a.size == 1 || a.size == 2 || a.size == 4 || a.size == 8

/-- An inbound access at its place: the state after it, and the value that it reads. -/
def peerAt (s : State) (part : Nat) (pasid : BitVec 20) (a : PeerAccess) (pa : Nat) : State × Nat :=
  let m := s.devRead pa a.size
  match a.op with
  | .load => (s, m)
  | .store => (s.devWrite pa (leBytes a.size a.data.toNat), 0)
  | op =>
    match PeerOp.atomic? op with
    | none => (s, m)
    | some f =>
      let w := 8 * a.size
      let v := f.new w m (a.data.toNat % 2 ^ w) (a.data2.toNat % 2 ^ w)
      let s1 := s.devWrite pa (leBytes a.size v)
      (match if op == .add then addReleases s s1 pa a.size else none with
       | some k => (s1.releaseCell (State.dieOfPa pa) part pasid (a.va - BitVec.ofNat 64 (pa - k)) none, m)
       | none => (s1, m))

/-- PEER_INBOUND_ACCESS (R56, R144, R266): the access is made in the space of the port's PPAS, or rejected. One for a partition of another fence is dropped and
counted. From the X-die the access goes on by R15's route, which the firewall may close (R17). -/
def execPeerInboundAccess (port : Nat) (acc : PeerAccess) (s : State) : Out3 :=
  let p := s.port port
  let part := bits p.ppas 25 20
  let pasid : BitVec 20 := p.ppas.setWidth 20
  if p.down then .next s
  else if !p.ppas.getLsbD 63 || !partOn s part then .next (answerPeer s port 6 0)
  else if portFence s port != some (fenceOf s part) then .next (s.setPort port { p with dropped := p.dropped + 1 })
  else if !peerWidth acc then .next (answerPeer s port 2 0)
  else match s.devCheck 104 part pasid.toNat acc.va acc.size (if acc.op == .load then .read else .write) true false with
    | .err e => .next (answerPeer s port (peerKind e) 0)
    | .ok pa =>
      if !xRoute s (State.dieOfPa pa) (port / 12) then .next (answerPeer s port 6 0)
      else if acc.op != .store && s.devPoisoned pa acc.size then .next (answerPeer (s.startTest (pa / 4096)) port 5 0)
      else
        let (s1, v) := peerAt s part pasid acc pa
        .next (answerPeer s1 port 0 v)

end Sys2Proof.Machine
end

