-- ==== Sys2Proof/Machine/Device.lean ====
section
/-!
DEFINITION. Module reset and TIME (R23, R24), the address-space registers and generations (R144, R147 to R149), translation walks and prefetch (R143, R145,
R146).
-/
namespace Sys2Proof.Machine

/-! ## Module reset and TIME (R24) -/

/-- MODULE_RESET (R24): every register has its reset value, and TIME is zero on every die. Host memory lies outside; the inputs still to come and the numbers of
the free values are the model's own. -/
def execModuleReset (s : State) : Out3 := .next { State.reset with agenda := s.agenda, host := s.host, hostPoison := s.hostPoison, free := s.free, nextId := s.nextId }

/-- All copies of TIME agree within one tick (R24): none is more than one from that of X0, and none before it while another is after it. -/
def timesAgree (v : Vector Dword 34) : Bool :=
  let m := v.getD 16 0
  v.all (fun t => t == m || t == m + 1 || t == m - 1) && !(v.any (fun t => t == m + 1) && v.any fun t => t == m - 1)

/-- The ticks that a die counts: none or two where an alignment pulse has said so. -/
def countOf (adj : Nat) : Dword := if adj == 1 then 0 else if adj == 2 then 2 else 1

/-- TIME of every die after a tick; slip names the dies that miss it. -/
def ticked (s : State) (slip : BitVec 34) : Vector Dword 34 :=
  Vector.ofFn fun i => s.times[i] + (if slip.getLsbD i.val && s.timeAdj[i] == 0 then 0 else countOf s.timeAdj[i])

/-- A crew that is not halted has run for one tick more (R61, R66). -/
def Crew.aged (w : Crew) : Crew := if w.halted then w else { w with resid := w.resid + 1 }

/-- What is under way and ends within a stated time (R45, R92). -/
def underBound (s : State) : List Bound :=
  s.fns.flatMap (fun (f, x) => x.pri.map fun q => .page f q.1 q.2.1 q.2.2) ++ s.dies.flatMap fun (d, x) => x.cancels.map fun c => .cancel d c.1 c.2

/-- What has begun to be under way since the last tick counts from then. -/
def noteBounds (s : State) : State :=
  let on := underBound s
  let old := s.since.filter fun e => on.contains e.1
  { s with since := old ++ ((on.filter fun b => !old.any fun e => e.1 == b).eraseDups.map fun b => (b, s.times.getD 16 0)) }

/-- The partitions that hold cores at a tick: by a fence's slice, by a crew that is not halted, or by a request (R62). -/
def holders (s : State) : List Nat :=
  s.slice.filterMap (fun (_, n) => if n == 0 then none else some (n - 1)) ++ (s.allCrews.filter fun x => !x.2.halted).map (·.2.part)
    ++ s.dies.flatMap fun (_, x) => x.held.filterMap fun h => if h.vacated then h.forPart else none

/-- TIME_TICK (R24, R323): every die's TIME advances; a drift that would take two copies more than a tick apart does not occur. Waits are evaluated,
traps and kills that waited for a core's cycles are taken, fault records that wait are posted, and invalidations that wait for nothing are completed. -/
def execTimeTick (slip : BitVec 34) (s : State) : Out3 :=
  let s := noteBounds ((holders s).foldl State.workOf s)
  let v := ticked s slip
  let v := if timesAgree v then v else ticked s 0
  let age : Nat × Core → Nat × Core := fun x => (x.1, { x.2 with crews := x.2.crews.map Crew.aged })
  let s1 := pollWaits { s with times := v, timeAdj := Vector.replicate 34 0, cores := s.cores.map age }
  let s2 := (s1.cores.map (·.1)).foldl (fun s c => settleDoomed (settleTraps (s.caughtUp c) c) c) s1
  .next ((s2.fns.map (·.1)).foldl (fun s f => settleInval (postFaults s f) f) s2)

/-- 4,096 ticks of X0 have gone by since its last alignment pulse (R24). -/
def pulseDue (s : State) : Bool := decide (4096 ≤ (s.times.getD 16 0 - s.pulseAt).toNat)

/-- ALIGNMENT_PULSE (R24), every 4,096 ticks: a die whose TIME is ahead of X0's holds it for its next tick, one behind advances it by two. -/
def execAlignmentPulse (s : State) : Out3 :=
  let m := s.times.getD 16 0
  if !pulseDue s then .next s
  else .next { s with pulseAt := m, timeAdj := s.times.map fun t => if t == m + 1 then 1 else if t == m - 1 then 2 else 0 }

/-! ## Address spaces (R144) -/

/-- ASTB_WRITE (R144). -/
def execAstbWrite (fn : BitVec 6) (val : Dword) (s : State) : Out3 :=
  let f := fn.toNat
  if (List.range 32).any (fun n => (s.aqi f n).en) || !s.holdsFrame f (bits val 18 9 * 2 ^ 30) then .next s
  else .next (s.modFn f fun x => { x with astb := maskNat val 0x800000000007FFFF })

/-- PPAS_WRITE (R144). -/
def execPpasWrite (port : Nat) (val : Dword) (s : State) : Out3 :=
  let p := bits val 25 20
  if 24 ≤ port then .next s
  else if val.getLsbD 63 && !(partOn s p && portFence s port == some (fenceOf s p)) then .next (refuse s 0)
  else .next (s.setPort port { s.port port with ppas := maskNat val 0x8000000003FFFFFF })

/-! ## Generations (R147, R149) -/

/-- The translations of a space, and the instruction and constant lines filled under them, are discarded. -/
def discardSpace (s : State) (f pasid : Nat) : State :=
  let mine := fun (e : Nat × Nat × Nat × Dword) => e.1 == f && e.2.1 == pasid
  { s with
    clusters := s.clusters.map fun (c, k) => (c, { k with tlb := k.tlb.filter fun t => !(t.fn == f && t.pasid == pasid) })
    cores := s.cores.map fun (c, k) => (c, { k with icache := k.icache.filter fun e => !mine e, kcache := k.kcache.filter fun e => !mine e }) }

/-- GCMD_WRITE (R149): steps 1 and 2 of an advance. -/
def execGcmdWrite (fn : BitVec 6) (val : Dword) (s : State) : Out3 :=
  let f := fn.toNat
  let old := (s.fn f).gcmd
  let ps := bits val 19 0
  if !val.getLsbD 63 then .next (s.modFn f fun x => { x with gcmd := setBits x.gcmd 19 0 ps })
  else if old.getLsbD 63 then .next s
  else match s.asEntry? f ps with
    | none => .next (s.modFn f fun x => { x with gcmd := BitVec.ofNat 64 (2 ^ 62 + ps) })
    | some a =>
      let s1 := s.devWrite (a + 8) (leBytes 2 (s.genOf f ps + 1))
      .next ((discardSpace s1 f ps).modFn f fun x => { x with gcmd := BitVec.ofNat 64 (2 ^ 63 + ps) })

/-- GENERATION_ADVANCE_DONE (R149): step 4. What a checker had accepted before is performed at once in this model. -/
def execGenerationAdvanceDone (fn : BitVec 6) (s : State) : Out3 :=
  let f := fn.toNat
  if (s.fn f).gcmd.getLsbD 63 then .next (s.modFn f fun x => { x with gcmd := setBits x.gcmd 63 63 0 }) else .next s

/-! ## Walks and prefetch (R143, R145, R146) -/

/-- TRANSLATION_WALK (R145, R146): a walk that finds a leaf is cached in its cluster under the present generation; a fault is never cached. -/
def execTranslationWalk (cluster : Nat) (fn : BitVec 6) (pasid : BitVec 20) (va : Dword) (s : State) : Out3 :=
  let f := fn.toNat
  let ps := pasid.toNat
  if 96 ≤ cluster || bits va 63 57 != 0 then .next s
  else match s.walkBy (dieOfParty cluster) f ps va.toNat with
    | .err _ => .next s
    | .leaf l =>
      let t : Tlb := { fn := f, pasid := ps, vbase := l.vbase, size := l.size, pbase := l.pbase, w := l.w, x := l.x, gen := s.genOf f ps }
      .next (s.modCluster cluster fun c =>
        { c with tlb := (t :: c.tlb.filter fun u => !(u.fn == f && u.pasid == ps && decide (u.vbase < l.vbase + l.size) && decide (l.vbase < u.vbase + u.size))).take 5120 })

/-- PREFETCH (R143): it changes no value, and no state that a program can reach. -/
def execPrefetch (cluster : Nat) (fn : BitVec 6) (pasid : BitVec 20) (va : Dword) (s : State) : Out3 :=
  match cluster, fn, pasid, va with
  | _, _, _, _ => .next s

end Sys2Proof.Machine
end

