-- ==== Sys2Proof/Machine/Registers.lean ====
section
/-!
DEFINITION. BAR0 of every function: what a write of any size does to it, and what a read returns (R31, R32, R34, R35, R37, R54, R184). A register that has an
event of its own in the opcode table takes that event's meaning.
-/
namespace Sys2Proof.Machine

/-- Bits [56:12], the address field of PWIN_BASE, AQI_RBASE and FQBASE. -/
def addrField (v : Dword) : Dword := maskNat v 0x01FFFFFFFFFFF000

/-- A function is a PF (R29). -/
def isPf (f : Nat) : Bool := f == 0 || f == 32

/-! ## Registers without behaviour of their own -/

/-- A function's window may not change (R34). -/
def windowLocked (s : State) (f : Nat) : Bool := (List.range 32).any (fun n => (s.aqi f n).en) || (s.fn f).fqctl.getLsbD 63

/-- PWIN_BASE and PWIN_LIM of a function, by its PF (R34). -/
def writeWindow (s : State) (f : Nat) (lim : Bool) (val : Dword) : State :=
  if windowLocked s f then s
  else s.modFn f fun x => if lim then { x with pwinLim := addrField val } else { x with pwinBase := addrField val }

/-- The VF that PWSEL of a PF selects. -/
def selectedVf (s : State) (f : Nat) : Option Nat := match bits (s.fn f).pwsel 4 0 with | 0 => none | v => some (f + v)

/-- AQI_RBASE, while EN is 0 (R36). -/
def writeRbase (s : State) (f n : Nat) (val : Dword) : State :=
  let a := s.aqi f n
  if aqiCount s f ≤ n || a.en then s else s.setAqi f n { a with rbase := addrField val }

/-- STATUS: writing 1s to ERR clears them, and FIDX stays (R37). -/
def writeStatus (s : State) (f n : Nat) (val : Dword) : State :=
  let a := s.aqi f n
  if aqiCount s f ≤ n then s else s.setAqi f n { a with status := a.status &&& ~~~(maskNat val 0xF) }

/-- FQBASE, while EN is 0 (R184). -/
def writeFqbase (s : State) (f : Nat) (val : Dword) : State :=
  if (s.fn f).fqctl.getLsbD 63 then s else s.modFn f fun x => { x with fqbase := addrField val }

/-- PCFG word 0 where EN keeps its value (R57). -/
def writePcfg0 (s : State) (p : Nat) (val : Dword) : State :=
  let old := (s.part p).pcfg0
  let v := pcfgWritten old val
  if (if partOn s p then bits v 58 50 != bits old 58 50 else decide (32 < bits v 55 50)) then refuse s 2
  else s.modPart p fun x => { x with pcfg0 := v }

/-- PCFG word 1: SYSFRAME changes only while EN is 0 (R57). -/
def writePcfg1 (s : State) (p : Nat) (val : Dword) : State :=
  let v := maskNat val 0xFFC0000000000000
  if partOn s p && v != (s.part p).pcfg1 then refuse s 2 else s.modPart p fun x => { x with pcfg1 := v }

/-! ## Writes -/

/-- A write to an AQI's notify page or configuration block (R35, R37). -/
def writeQueue (s : State) (fn : BitVec 6) (off : Nat) (val : Dword) : Out3 :=
  let f := fn.toNat
  if off < 0x20000 then
    let n := off / 0x1000
    match off % 0x1000 with
    | 0x000 => execDoorbellWrite fn (BitVec.ofNat 5 n) 8 val s
    | 0x010 => .next (writeStatus s f n val)
    | _ => .next s
  else
    let n := (off - 0x20000) / 0x40
    match off % 0x40 with
    | 0x00 => .next (writeRbase s f n val)
    | 0x08 => execAqiCtlWrite fn (BitVec.ofNat 5 n) val s
    | _ => .next s

/-- FRES (R184). -/
def writeFres (s : State) (fn : BitVec 6) (val : Dword) : Out3 :=
  if bits val 61 32 != 0 then .next s
  else match bits val 63 62 with
    | 1 => execFresRetry fn (val.setWidth 32) s
    | 2 => execFresKill fn (val.setWidth 32) s
    | _ => .next s

/-- A write to the function registers (R34, R144, R149, R184, R186). -/
def writeFunction (s : State) (fn : BitVec 6) (off : Nat) (val : Dword) : Out3 :=
  let f := fn.toNat
  match off with
  | 0x000 => .next (if isPf f then writeWindow s f false val else s)
  | 0x008 => .next (if isPf f then writeWindow s f true val else s)
  | 0x010 => .next (if isPf f then s.modFn f fun x => { x with pwsel := maskNat val 0x1F } else s)
  | 0x018 => .next (if isPf f then (match selectedVf s f with | some v => writeWindow s v false val | none => s) else s)
  | 0x020 => .next (if isPf f then (match selectedVf s f with | some v => writeWindow s v true val | none => s) else s)
  | 0x0C0 => execAstbWrite fn val s
  | 0x0C8 => execGcmdWrite fn val s
  | 0x0D0 => .next (writeFqbase s f val)
  | 0x0D8 => execFqctlWrite fn val s
  | 0x0E0 => execFqheadWrite fn val s
  | 0x0E8 => writeFres s fn val
  | 0x0F0 => .next (s.modFn f fun x => { x with pgerr := x.pgerr &&& ~~~(maskNat val 0xC000000000000000) })
  | _ => .next s

/-- A write to PCFG (R57). -/
def writePcfg (s : State) (p : Nat) (word : Nat) (val : Dword) : Out3 :=
  if word == 1 then .next (writePcfg1 s p val)
  else match partOn s p, val.getLsbD 63 with
    | false, true => execPartitionEnable (BitVec.ofNat 6 p) val s
    | true, false => execPartitionReset (BitVec.ofNat 6 p) val s
    | _, _ => .next (writePcfg0 s p val)

/-- An aligned 8-byte write to the management block (R54). -/
def writeMgmt (s : State) (off : Nat) (val : Dword) : Out3 :=
  if off == 0x100 then execFmapWrite val s
  else if off == 0x108 then execFwallWrite val s
  else if off == 0x110 then .next { s with merr := s.merr &&& ~~~(maskNat val 0x3F) }
  else if off == 0x118 then execPpmapWrite false val s
  else if off == 0x120 then execPpmapWrite true val s
  else if 0x128 ≤ off && off < 0x1E8 then execPpasWrite ((off - 0x128) / 8) val s
  else if off == 0x1F0 then execPpretrWrite val s
  else if 0x200 ≤ off && off < 0x240 then execRswWrite (BitVec.ofNat 3 ((off - 0x200) / 8)) val s
  else if 0x240 ≤ off && off < 0x260 then execRvoltWrite (BitVec.ofNat 2 ((off - 0x240) / 8)) val s
  else if 0x280 ≤ off && off < 0x2C0 then execThermWrite (BitVec.ofNat 3 ((off - 0x280) / 8)) val s
  else if 0x340 ≤ off && off < 0x380 then
    (if val.getLsbD 63 then execSpreRequest (BitVec.ofNat 3 ((off - 0x340) / 8)) val s else execSpreRelease (BitVec.ofNat 3 ((off - 0x340) / 8)) val s)
  else if off == 0x380 then .next { s with capsel := maskNat val 0x3F07 }
  else if off == 0x388 then execCapmaskWrite val s
  else if 0x400 ≤ off && off < 0x800 then writePcfg s ((off - 0x400) / 16) (off / 8 % 2) val
  else if 0xA00 ≤ off && off < 0xC00 then execSctbWrite (BitVec.ofNat 6 ((off - 0xA00) / 8)) val s
  else .next s

/-- REGISTER_WRITE (R31, R37, R54): FOWN takes single bytes, every other register aligned writes of 8 bytes; any other write is ignored. -/
def execRegisterWrite (fn : BitVec 6) (off : BitVec 18) (size : Nat) (val : Dword) (s : State) : Out3 :=
  let o := off.toNat
  let r := o - 0x30000
  if fn == 0 && decide (0x30C00 ≤ o) && decide (o < 0x30F00) then
    (if size == 1 then execFownWrite (BitVec.ofNat 10 (r - 0xC00)) (val.setWidth 8) s else .next s)
  else if size != 8 || o % 8 != 0 then .next s
  else if o < 0x20800 then writeQueue s fn o val
  else if o < 0x30000 then .next s
  else if r < 0x100 then writeFunction s fn r val
  else if fn == 0 then writeMgmt s r val
  else .next s

/-! ## Reads (R31, R32, R34, R54) -/

/-- An AQI's registers; those beyond the partition's count read as zero (R32). -/
def readQueue (s : State) (f off : Nat) : Dword :=
  let n := if off < 0x20000 then off / 0x1000 else (off - 0x20000) / 0x40
  let a := s.aqi f n
  if aqiCount s f ≤ n then 0
  else if off < 0x20000 then
    (match off % 0x1000 with
     | 0x008 => BitVec.ofNat 64 (a.nextseq.toNat * 2 ^ 16 + a.head.toNat)
     | 0x010 => a.status
     | _ => 0)
  else match off % 0x40 with | 0x00 => a.rbase | 0x08 => a.ctl | _ => 0

/-- The function registers; FRES is write-only (R34, R54, R144, R149, R184). -/
def readFunction (s : State) (f off : Nat) : Dword :=
  let x := s.fn f
  match off with
  | 0x000 => x.pwinBase
  | 0x008 => x.pwinLim
  | 0x010 => if isPf f then x.pwsel else 0
  | 0x018 => if isPf f then (match selectedVf s f with | some v => (s.fn v).pwinBase | none => 0) else 0
  | 0x020 => if isPf f then (match selectedVf s f with | some v => (s.fn v).pwinLim | none => 0) else 0
  | 0x080 => (s.part f).pen
  | 0x088 => (s.part f).pcfg0
  | 0x0C0 => x.astb
  | 0x0C8 => x.gcmd
  | 0x0D0 => x.fqbase
  | 0x0D8 => x.fqctl
  | 0x0E0 => x.fqhead
  | 0x0F0 => x.pgerr
  | _ => 0

/-- PPLINK (R22). -/
def pplink (s : State) : Dword :=
  BitVec.ofNat 64 ((List.range 24).foldl (fun a i => a + bit (s.port i).down * 2 ^ i + bit (s.port i).train * 2 ^ (24 + i)) 0)

/-- The management block (R54). -/
def readMgmt (s : State) (off : Nat) : Dword :=
  if off == 0x100 then s.fmap
  else if off == 0x108 then s.fwall
  else if off == 0x110 then s.merr
  else if off == 0x118 then s.ppmap0
  else if off == 0x120 then s.ppmap1
  else if 0x128 ≤ off && off < 0x1E8 then (s.port ((off - 0x128) / 8)).ppas
  else if off == 0x1E8 then pplink s
  else if 0x200 ≤ off && off < 0x240 then (s.die ((off - 0x200) / 8)).rsw
  else if 0x240 ≤ off && off < 0x260 then (s.rail ((off - 0x240) / 8)).rvolt
  else if 0x280 ≤ off && off < 0x2C0 then (s.die ((off - 0x280) / 8)).therm
  else if 0x300 ≤ off && off < 0x340 then (s.die ((off - 0x300) / 8)).ecnt
  else if 0x340 ≤ off && off < 0x380 then (s.die ((off - 0x340) / 8)).spre
  else if off == 0x380 then s.capsel
  else if off == 0x388 then (s.part (bits s.capsel 13 8)).capmask.getD (bits s.capsel 2 0) 0
  else if 0x400 ≤ off && off < 0x800 then (let x := s.part ((off - 0x400) / 16); if off / 8 % 2 == 1 then x.pcfg1 else x.pcfg0)
  else if 0x800 ≤ off && off < 0xA00 then (s.part ((off - 0x800) / 8)).pen
  else if 0xA00 ≤ off && off < 0xC00 then (s.part ((off - 0xA00) / 8)).sctb
  else if 0xC00 ≤ off && off < 0xF00 then BitVec.ofNat 64 (leNat ((List.range 8).map fun i => s.fownOf (off - 0xC00 + i)))
  else if 0xF00 ≤ off && off < 0xF80 then (let x := s.die ((off - 0xF00) / 16); if off / 8 % 2 == 1 then x.sprc1 else x.sprc0)
  else 0

/-- The aligned 8-byte word of BAR0 of a function: holes read as zero (R31). -/
def bar0 (s : State) (f off : Nat) : Dword :=
  if off < 0x20800 then readQueue s f off
  else if off < 0x30000 then 0
  else if off < 0x30100 then readFunction s f (off - 0x30000)
  else if f == 0 then readMgmt s (off - 0x30000)
  else 0

/-- A read of n bytes, at most eight: the addressed bytes of the register, and of the next where they run on into it (R31). So too in the management block, whatever the register's own size. DESIGN CHOICE
(log 70): R54 says what a write of another size does, and not a read. -/
def regRead (s : State) (f off n : Nat) : Nat :=
  let a := off / 8 * 8
  let next := if off % 8 + n ≤ 8 then 0 else (bar0 s f (a + 8)).toNat
  ((bar0 s f a).toNat + 2 ^ 64 * next) / 2 ^ (8 * (off % 8)) % 2 ^ (8 * n)

/-! ## BAR2 (R30, R31, R47): the table from offset 0, the pending bits from 0x200. PRESUMED (log 75) -/

/-- The bytes of a table entry. -/
def MsixEntry.bytes (e : MsixEntry) : List Byte := leBytes 8 e.addr.toNat ++ leBytes 4 e.data.toNat ++ leBytes 4 e.ctl.toNat

/-- The entry that 16 bytes make: the address is one of doublewords, and of the vector control the mask bit alone is kept. -/
def MsixEntry.ofBytes (l : List Byte) : MsixEntry :=
  { addr := maskNat (BitVec.ofNat 64 (leNat (l.take 8))) 0xFFFFFFFFFFFFFFFC, data := BitVec.ofNat 32 (leNat ((l.drop 8).take 4)),
    ctl := BitVec.ofNat 32 (leNat ((l.drop 12).take 4) % 2) }

/-- A write to BAR2 of a function: aligned, of 4 or 8 bytes, to its table; any other is ignored. What pends on an entry that it unmasks is sent (R47). -/
def bar2Write (s : State) (f off : Nat) (bs : List Byte) : State :=
  if 64 ≤ f || 0x200 ≤ off || !(bs.length == 4 || bs.length == 8) || off % bs.length != 0 then s
  else
    let laid := fun (e : MsixEntry) => MsixEntry.ofBytes (e.bytes.take (off % 16) ++ bs ++ e.bytes.drop (off % 16 + bs.length))
    s.modFn f fun x => Fn.unmasked { x with msixTab := vmod x.msixTab (off / 16) laid }

/-- A read of n bytes of BAR2: the table, the pending bits, zero beyond. -/
def bar2Read (s : State) (f off n : Nat) : Nat :=
  let x := s.fn f
  leNat ((((x.msixTab.toList.flatMap MsixEntry.bytes) ++ leBytes 8 x.msixPend.toNat).drop off).take n)

end Sys2Proof.Machine
end

