-- ==== Sys2Proof/Machine/Dispatch.lean ====
section
/-! DEFINITION. exec: the meaning of each instruction and event, one arm for each row of the opcode table. -/
namespace Sys2Proof.Machine

/-- The meaning of an instruction word, for the split that State.cur names, or of an event. -/
def exec (i : Instr) (s : State) : Host.Outcome State Fault Refusal :=
  match i with
  | .moduleReset => Sys2Proof.Machine.execModuleReset s
  | .timeTick slip => Sys2Proof.Machine.execTimeTick slip s
  | .alignmentPulse => Sys2Proof.Machine.execAlignmentPulse s
  | .registerWrite fn off size val => Sys2Proof.Machine.execRegisterWrite fn off size val s
  | .aqiCtlWrite fn n val => Sys2Proof.Machine.execAqiCtlWrite fn n val s
  | .doorbellWrite fn n size val => Sys2Proof.Machine.execDoorbellWrite fn n size val s
  | .packetFetch fn n => Sys2Proof.Machine.execPacketFetch fn n s
  | .tornSubmission fn n => Sys2Proof.Machine.execTornSubmission fn n s
  | .nopPacket id => Sys2Proof.Machine.execNopPacket id s
  | .launch id => Sys2Proof.Machine.execLaunch id s
  | .cancelPacket id => Sys2Proof.Machine.execCancelPacket id s
  | .signal id => Sys2Proof.Machine.execSignal id s
  | .snapcut id => Sys2Proof.Machine.execSnapcut id s
  | .cutSwitch p snap => Sys2Proof.Machine.execCutSwitch p snap s
  | .stream id => Sys2Proof.Machine.execStream id s
  | .snapend id => Sys2Proof.Machine.execSnapend id s
  | .packetCompletion id => Sys2Proof.Machine.execPacketCompletion id s
  | .atsTranslationResponse fn pasid iova ans => Sys2Proof.Machine.execAtsTranslationResponse fn pasid iova ans s
  | .pageRequestResponse fn pasid iova code => Sys2Proof.Machine.execPageRequestResponse fn pasid iova code s
  | .pageRequestTimeout fn pasid iova => Sys2Proof.Machine.execPageRequestTimeout fn pasid iova s
  | .atsInvalidation fn pasid iova len => Sys2Proof.Machine.execAtsInvalidation fn pasid iova len s
  | .flitTransmit port vc => Sys2Proof.Machine.execFlitTransmit port vc s
  | .idleFlit port => Sys2Proof.Machine.execIdleFlit port s
  | .flitReceive port flit => Sys2Proof.Machine.execFlitReceive port flit s
  | .retrainComplete port => Sys2Proof.Machine.execRetrainComplete port s
  | .retrainTimeout port => Sys2Proof.Machine.execRetrainTimeout port s
  | .ppretrWrite val => Sys2Proof.Machine.execPpretrWrite val s
  | .peerInboundAccess port acc => Sys2Proof.Machine.execPeerInboundAccess port acc s
  | .fmapWrite val => Sys2Proof.Machine.execFmapWrite val s
  | .fwallWrite val => Sys2Proof.Machine.execFwallWrite val s
  | .ppmapWrite high val => Sys2Proof.Machine.execPpmapWrite high val s
  | .partitionEnable p val => Sys2Proof.Machine.execPartitionEnable p val s
  | .partitionReset p val => Sys2Proof.Machine.execPartitionReset p val s
  | .fownWrite f val => Sys2Proof.Machine.execFownWrite f val s
  | .frameZeroed f => Sys2Proof.Machine.execFrameZeroed f s
  | .sctbWrite p val => Sys2Proof.Machine.execSctbWrite p val s
  | .rswWrite die val => Sys2Proof.Machine.execRswWrite die val s
  | .rvoltWrite rail val => Sys2Proof.Machine.execRvoltWrite rail val s
  | .quiesceTimeout t => Sys2Proof.Machine.execQuiesceTimeout t s
  | .railChangeApplied t => Sys2Proof.Machine.execRailChangeApplied t s
  | .railOvercurrent rail => Sys2Proof.Machine.execRailOvercurrent rail s
  | .throttleRelease rail => Sys2Proof.Machine.execThrottleRelease rail s
  | .controlIntervalEnd energy => Sys2Proof.Machine.execControlIntervalEnd energy s
  | .thermWrite die val => Sys2Proof.Machine.execThermWrite die val s
  | .temperatureRead core temp => Sys2Proof.Machine.execTemperatureRead core temp s
  | .thermalCutStep core => Sys2Proof.Machine.execThermalCutStep core s
  | .rowTestDone row pass spareLeft => Sys2Proof.Machine.execRowTestDone row pass spareLeft s
  | .spreRequest die val => Sys2Proof.Machine.execSpreRequest die val s
  | .spreRelease die val => Sys2Proof.Machine.execSpreRelease die val s
  | .spreDone die => Sys2Proof.Machine.execSpreDone die s
  | .capmaskWrite val => Sys2Proof.Machine.execCapmaskWrite val s
  | .astbWrite fn val => Sys2Proof.Machine.execAstbWrite fn val s
  | .ppasWrite port val => Sys2Proof.Machine.execPpasWrite port val s
  | .gcmdWrite fn val => Sys2Proof.Machine.execGcmdWrite fn val s
  | .generationAdvanceDone fn => Sys2Proof.Machine.execGenerationAdvanceDone fn s
  | .staleRejection r => Sys2Proof.Machine.execStaleRejection r s
  | .translationWalk cluster fn pasid va => Sys2Proof.Machine.execTranslationWalk cluster fn pasid va s
  | .walkTimeout r => Sys2Proof.Machine.execWalkTimeout r s
  | .prefetch cluster fn pasid va => Sys2Proof.Machine.execPrefetch cluster fn pasid va s
  | .resultReturn r id ans => Sys2Proof.Machine.execResultReturn r id ans s
  | .storeAcknowledge r id ans => Sys2Proof.Machine.execStoreAcknowledge r id ans s
  | .issueCycle core => Sys2Proof.Machine.execIssueCycle core s
  | .generateRecord p launch slot => Sys2Proof.Machine.execGenerateRecord p launch slot s
  | .stepBoundary p launch => Sys2Proof.Machine.execStepBoundary p launch s
  | .dispatchBind die => Sys2Proof.Machine.execDispatchBind die s
  | .workSteal die => Sys2Proof.Machine.execWorkSteal die s
  | .sliceEnd fence => Sys2Proof.Machine.execSliceEnd fence s
  | .groupResume core crew gid => Sys2Proof.Machine.execGroupResume core crew gid s
  | .crewRetire core crew => Sys2Proof.Machine.execCrewRetire core crew s
  | .queueRetry die => Sys2Proof.Machine.execQueueRetry die s
  | .cancelApply die p scope => Sys2Proof.Machine.execCancelApply die p scope s
  | .killTimeout core crew gid => Sys2Proof.Machine.execKillTimeout core crew gid s
  | .cancelAcknowledge p scope => Sys2Proof.Machine.execCancelAcknowledge p scope s
  | .migration core crew target => Sys2Proof.Machine.execMigration core crew target s
  | .migrationStopTimeout core crew gid => Sys2Proof.Machine.execMigrationStopTimeout core crew gid s
  | .fqctlWrite fn val => Sys2Proof.Machine.execFqctlWrite fn val s
  | .fqheadWrite fn val => Sys2Proof.Machine.execFqheadWrite fn val s
  | .fresRetry fn token => Sys2Proof.Machine.execFresRetry fn token s
  | .fresKill fn token => Sys2Proof.Machine.execFresKill fn token s
  | .accumulatorSwitch core crew tile => Sys2Proof.Machine.execAccumulatorSwitch core crew tile s
  | .copyStart core crew => Sys2Proof.Machine.execCopyStart core crew s
  | .copy cmd => Sys2Proof.Machine.execCopy cmd s
  | .transpose cmd => Sys2Proof.Machine.execTranspose cmd s
  | .fill cmd => Sys2Proof.Machine.execFill cmd s
  | .caskAdd cmd => Sys2Proof.Machine.execCaskAdd cmd s
  | .settle cmd => Sys2Proof.Machine.execSettle cmd s
  | .gristLoad cmd => Sys2Proof.Machine.execGristLoad cmd s
  | .cellarStream cmd => Sys2Proof.Machine.execCellarStream cmd s
  | .copyComplete cmd => Sys2Proof.Machine.execCopyComplete cmd s
  | .tunStep core => Sys2Proof.Machine.execTunStep core s
  | .tunOperationDone core => Sys2Proof.Machine.execTunOperationDone core s
  | .peerAddApply core crew tile => Sys2Proof.Machine.execPeerAddApply core crew tile s
  | .ctabDone core => Sys2Proof.Machine.execCtabDone core s
  | .waitTimeout r => Sys2Proof.Machine.execWaitTimeout r s
  | .pairWord f => Sys2Proof.Machine.execPairWord f s
  | .nop f => Sys2Proof.Machine.execNop f s
  | .capq f => Sys2Proof.Machine.execCapq f s
  | .trap f => Sys2Proof.Machine.execTrap f s
  | .rte f => Sys2Proof.Machine.execRte f s
  | .br f => Sys2Proof.Machine.execBr f s
  | .bz f => Sys2Proof.Machine.execBz f s
  | .bnz f => Sys2Proof.Machine.execBnz f s
  | .bk f => Sys2Proof.Machine.execBk f s
  | .bnk f => Sys2Proof.Machine.execBnk f s
  | .call f => Sys2Proof.Machine.execCall f s
  | .ret f => Sys2Proof.Machine.execRet f s
  | .mark f => Sys2Proof.Machine.execMark f s
  | .join f => Sys2Proof.Machine.execJoin f s
  | .exit f => Sys2Proof.Machine.execExit f s
  | .addB64 f => Sys2Proof.Machine.execAddB64 f s
  | .subB64 f => Sys2Proof.Machine.execSubB64 f s
  | .mulB64 f => Sys2Proof.Machine.execMulB64 f s
  | .mulhiI64 f => Sys2Proof.Machine.execMulhiI64 f s
  | .mulhiN64 f => Sys2Proof.Machine.execMulhiN64 f s
  | .andB64 f => Sys2Proof.Machine.execAndB64 f s
  | .orB64 f => Sys2Proof.Machine.execOrB64 f s
  | .xorB64 f => Sys2Proof.Machine.execXorB64 f s
  | .andnB64 f => Sys2Proof.Machine.execAndnB64 f s
  | .shlB64 f => Sys2Proof.Machine.execShlB64 f s
  | .shrN64 f => Sys2Proof.Machine.execShrN64 f s
  | .shrI64 f => Sys2Proof.Machine.execShrI64 f s
  | .minI64 f => Sys2Proof.Machine.execMinI64 f s
  | .maxI64 f => Sys2Proof.Machine.execMaxI64 f s
  | .minN64 f => Sys2Proof.Machine.execMinN64 f s
  | .maxN64 f => Sys2Proof.Machine.execMaxN64 f s
  | .maddB64 f => Sys2Proof.Machine.execMaddB64 f s
  | .addoI64 f => Sys2Proof.Machine.execAddoI64 f s
  | .addoN64 f => Sys2Proof.Machine.execAddoN64 f s
  | .suboI64 f => Sys2Proof.Machine.execSuboI64 f s
  | .suboN64 f => Sys2Proof.Machine.execSuboN64 f s
  | .muloI64 f => Sys2Proof.Machine.execMuloI64 f s
  | .muloN64 f => Sys2Proof.Machine.execMuloN64 f s
  | .addiB64 f => Sys2Proof.Machine.execAddiB64 f s
  | .andiB64 f => Sys2Proof.Machine.execAndiB64 f s
  | .oriB64 f => Sys2Proof.Machine.execOriB64 f s
  | .xoriB64 f => Sys2Proof.Machine.execXoriB64 f s
  | .inshB64 f => Sys2Proof.Machine.execInshB64 f s
  | .moviB64 f => Sys2Proof.Machine.execMoviB64 f s
  | .cmpEqB64 f => Sys2Proof.Machine.execCmpEqB64 f s
  | .cmpNeB64 f => Sys2Proof.Machine.execCmpNeB64 f s
  | .cmpLtI64 f => Sys2Proof.Machine.execCmpLtI64 f s
  | .cmpLeI64 f => Sys2Proof.Machine.execCmpLeI64 f s
  | .cmpLtN64 f => Sys2Proof.Machine.execCmpLtN64 f s
  | .cmpLeN64 f => Sys2Proof.Machine.execCmpLeN64 f s
  | .selB64 f => Sys2Proof.Machine.execSelB64 f s
  | .popcB64 f => Sys2Proof.Machine.execPopcB64 f s
  | .clzB64 f => Sys2Proof.Machine.execClzB64 f s
  | .ctzB64 f => Sys2Proof.Machine.execCtzB64 f s
  | .brevB64 f => Sys2Proof.Machine.execBrevB64 f s
  | .bextB64 f => Sys2Proof.Machine.execBextB64 f s
  | .binsB64 f => Sys2Proof.Machine.execBinsB64 f s
  | .rdfr f => Sys2Proof.Machine.execRdfr f s
  | .wrsr f => Sys2Proof.Machine.execWrsr f s
  | .se f => Sys2Proof.Machine.execSe f s
  | .migr f => Sys2Proof.Machine.execMigr f s
  | .addI32 f => Sys2Proof.Machine.execAddI32 f s
  | .subI32 f => Sys2Proof.Machine.execSubI32 f s
  | .addN32 f => Sys2Proof.Machine.execAddN32 f s
  | .subN32 f => Sys2Proof.Machine.execSubN32 f s
  | .andB32 f => Sys2Proof.Machine.execAndB32 f s
  | .orB32 f => Sys2Proof.Machine.execOrB32 f s
  | .xorB32 f => Sys2Proof.Machine.execXorB32 f s
  | .andnB32 f => Sys2Proof.Machine.execAndnB32 f s
  | .shlB32 f => Sys2Proof.Machine.execShlB32 f s
  | .shrN32 f => Sys2Proof.Machine.execShrN32 f s
  | .shrI32 f => Sys2Proof.Machine.execShrI32 f s
  | .minI32 f => Sys2Proof.Machine.execMinI32 f s
  | .maxI32 f => Sys2Proof.Machine.execMaxI32 f s
  | .minN32 f => Sys2Proof.Machine.execMinN32 f s
  | .maxN32 f => Sys2Proof.Machine.execMaxN32 f s
  | .mulB32 f => Sys2Proof.Machine.execMulB32 f s
  | .mulhiI32 f => Sys2Proof.Machine.execMulhiI32 f s
  | .mulhiN32 f => Sys2Proof.Machine.execMulhiN32 f s
  | .drcpN32 f => Sys2Proof.Machine.execDrcpN32 f s
  | .dcorN32 f => Sys2Proof.Machine.execDcorN32 f s
  | .addI16 f => Sys2Proof.Machine.execAddI16 f s
  | .subI16 f => Sys2Proof.Machine.execSubI16 f s
  | .minI16 f => Sys2Proof.Machine.execMinI16 f s
  | .maxI16 f => Sys2Proof.Machine.execMaxI16 f s
  | .addI8 f => Sys2Proof.Machine.execAddI8 f s
  | .subI8 f => Sys2Proof.Machine.execSubI8 f s
  | .minN8 f => Sys2Proof.Machine.execMinN8 f s
  | .maxN8 f => Sys2Proof.Machine.execMaxN8 f s
  | .absI32 f => Sys2Proof.Machine.execAbsI32 f s
  | .popcB32 f => Sys2Proof.Machine.execPopcB32 f s
  | .clzB32 f => Sys2Proof.Machine.execClzB32 f s
  | .brevB32 f => Sys2Proof.Machine.execBrevB32 f s
  | .addiI32 f => Sys2Proof.Machine.execAddiI32 f s
  | .andiB32 f => Sys2Proof.Machine.execAndiB32 f s
  | .oriB32 f => Sys2Proof.Machine.execOriB32 f s
  | .xoriB32 f => Sys2Proof.Machine.execXoriB32 f s
  | .shliB32 f => Sys2Proof.Machine.execShliB32 f s
  | .shriN32 f => Sys2Proof.Machine.execShriN32 f s
  | .shriI32 f => Sys2Proof.Machine.execShriI32 f s
  | .moviB32 f => Sys2Proof.Machine.execMoviB32 f s
  | .addF32 f => Sys2Proof.Machine.execAddF32 f s
  | .subF32 f => Sys2Proof.Machine.execSubF32 f s
  | .mulF32 f => Sys2Proof.Machine.execMulF32 f s
  | .minF32 f => Sys2Proof.Machine.execMinF32 f s
  | .maxF32 f => Sys2Proof.Machine.execMaxF32 f s
  | .addF16 f => Sys2Proof.Machine.execAddF16 f s
  | .subF16 f => Sys2Proof.Machine.execSubF16 f s
  | .mulF16 f => Sys2Proof.Machine.execMulF16 f s
  | .minF16 f => Sys2Proof.Machine.execMinF16 f s
  | .maxF16 f => Sys2Proof.Machine.execMaxF16 f s
  | .addBf16 f => Sys2Proof.Machine.execAddBf16 f s
  | .subBf16 f => Sys2Proof.Machine.execSubBf16 f s
  | .mulBf16 f => Sys2Proof.Machine.execMulBf16 f s
  | .minBf16 f => Sys2Proof.Machine.execMinBf16 f s
  | .maxBf16 f => Sys2Proof.Machine.execMaxBf16 f s
  | .absF32 f => Sys2Proof.Machine.execAbsF32 f s
  | .negF32 f => Sys2Proof.Machine.execNegF32 f s
  | .absF16 f => Sys2Proof.Machine.execAbsF16 f s
  | .negF16 f => Sys2Proof.Machine.execNegF16 f s
  | .absBf16 f => Sys2Proof.Machine.execAbsBf16 f s
  | .negBf16 f => Sys2Proof.Machine.execNegBf16 f s
  | .fmaF32 f => Sys2Proof.Machine.execFmaF32 f s
  | .fmsF32 f => Sys2Proof.Machine.execFmsF32 f s
  | .fnmaF32 f => Sys2Proof.Machine.execFnmaF32 f s
  | .fnmsF32 f => Sys2Proof.Machine.execFnmsF32 f s
  | .fmaF16 f => Sys2Proof.Machine.execFmaF16 f s
  | .fmaBf16 f => Sys2Proof.Machine.execFmaBf16 f s
  | .cmpEqI32 f => Sys2Proof.Machine.execCmpEqI32 f s
  | .cmpNeI32 f => Sys2Proof.Machine.execCmpNeI32 f s
  | .cmpLtI32 f => Sys2Proof.Machine.execCmpLtI32 f s
  | .cmpLeI32 f => Sys2Proof.Machine.execCmpLeI32 f s
  | .cmpLtN32 f => Sys2Proof.Machine.execCmpLtN32 f s
  | .cmpLeN32 f => Sys2Proof.Machine.execCmpLeN32 f s
  | .cmpEqF32 f => Sys2Proof.Machine.execCmpEqF32 f s
  | .cmpNeF32 f => Sys2Proof.Machine.execCmpNeF32 f s
  | .cmpLtF32 f => Sys2Proof.Machine.execCmpLtF32 f s
  | .cmpLeF32 f => Sys2Proof.Machine.execCmpLeF32 f s
  | .cmpUnF32 f => Sys2Proof.Machine.execCmpUnF32 f s
  | .kand f => Sys2Proof.Machine.execKand f s
  | .kor f => Sys2Proof.Machine.execKor f s
  | .kxor f => Sys2Proof.Machine.execKxor f s
  | .kandn f => Sys2Proof.Machine.execKandn f s
  | .knot f => Sys2Proof.Machine.execKnot f s
  | .kfirst f => Sys2Proof.Machine.execKfirst f s
  | .compressB32 f => Sys2Proof.Machine.execCompressB32 f s
  | .expandB32 f => Sys2Proof.Machine.execExpandB32 f s
  | .slideupB32 f => Sys2Proof.Machine.execSlideupB32 f s
  | .slidednB32 f => Sys2Proof.Machine.execSlidednB32 f s
  | .matchB32 f => Sys2Proof.Machine.execMatchB32 f s
  | .redAddI32 f => Sys2Proof.Machine.execRedAddI32 f s
  | .redAddF32 f => Sys2Proof.Machine.execRedAddF32 f s
  | .redMinI32 f => Sys2Proof.Machine.execRedMinI32 f s
  | .redMaxI32 f => Sys2Proof.Machine.execRedMaxI32 f s
  | .redMinN32 f => Sys2Proof.Machine.execRedMinN32 f s
  | .redMaxN32 f => Sys2Proof.Machine.execRedMaxN32 f s
  | .redMinF32 f => Sys2Proof.Machine.execRedMinF32 f s
  | .redMaxF32 f => Sys2Proof.Machine.execRedMaxF32 f s
  | .redAndB32 f => Sys2Proof.Machine.execRedAndB32 f s
  | .redOrB32 f => Sys2Proof.Machine.execRedOrB32 f s
  | .redXorB32 f => Sys2Proof.Machine.execRedXorB32 f s
  | .scanAddI32 f => Sys2Proof.Machine.execScanAddI32 f s
  | .scanAddF32 f => Sys2Proof.Machine.execScanAddF32 f s
  | .scanMaxI32 f => Sys2Proof.Machine.execScanMaxI32 f s
  | .scanMaxF32 f => Sys2Proof.Machine.execScanMaxF32 f s
  | .cvtF16F32 f => Sys2Proof.Machine.execCvtF16F32 f s
  | .cvtBf16F32 f => Sys2Proof.Machine.execCvtBf16F32 f s
  | .cvtF8e4F32 f => Sys2Proof.Machine.execCvtF8e4F32 f s
  | .cvtF8e5F32 f => Sys2Proof.Machine.execCvtF8e5F32 f s
  | .cvtF32F16 f => Sys2Proof.Machine.execCvtF32F16 f s
  | .cvtF32Bf16 f => Sys2Proof.Machine.execCvtF32Bf16 f s
  | .cvtF32F8e4 f => Sys2Proof.Machine.execCvtF32F8e4 f s
  | .cvtF32F8e5 f => Sys2Proof.Machine.execCvtF32F8e5 f s
  | .cvtF32I32 f => Sys2Proof.Machine.execCvtF32I32 f s
  | .cvtF32N32 f => Sys2Proof.Machine.execCvtF32N32 f s
  | .cvtI32F32 f => Sys2Proof.Machine.execCvtI32F32 f s
  | .cvtN32F32 f => Sys2Proof.Machine.execCvtN32F32 f s
  | .packI16I32 f => Sys2Proof.Machine.execPackI16I32 f s
  | .packI8I16 f => Sys2Proof.Machine.execPackI8I16 f s
  | .cvtHq4F32 f => Sys2Proof.Machine.execCvtHq4F32 f s
  | .rcpF32 f => Sys2Proof.Machine.execRcpF32 f s
  | .rsqrtF32 f => Sys2Proof.Machine.execRsqrtF32 f s
  | .sqrtF32 f => Sys2Proof.Machine.execSqrtF32 f s
  | .exp2F32 f => Sys2Proof.Machine.execExp2F32 f s
  | .log2F32 f => Sys2Proof.Machine.execLog2F32 f s
  | .sinpiF32 f => Sys2Proof.Machine.execSinpiF32 f s
  | .cospiF32 f => Sys2Proof.Machine.execCospiF32 f s
  | .tanhF32 f => Sys2Proof.Machine.execTanhF32 f s
  | .divF32 f => Sys2Proof.Machine.execDivF32 f s
  | .lds f => Sys2Proof.Machine.execLds f s
  | .sts f => Sys2Proof.Machine.execSts f s
  | .ldc f => Sys2Proof.Machine.execLdc f s
  | .stc f => Sys2Proof.Machine.execStc f s
  | .ldd f => Sys2Proof.Machine.execLdd f s
  | .std f => Sys2Proof.Machine.execStd f s
  | .ldp f => Sys2Proof.Machine.execLdp f s
  | .stp f => Sys2Proof.Machine.execStp f s
  | .ldh f => Sys2Proof.Machine.execLdh f s
  | .sth f => Sys2Proof.Machine.execSth f s
  | .ldk f => Sys2Proof.Machine.execLdk f s
  | .atsAdd f => Sys2Proof.Machine.execAtsAdd f s
  | .atsAnd f => Sys2Proof.Machine.execAtsAnd f s
  | .atsOr f => Sys2Proof.Machine.execAtsOr f s
  | .atsXor f => Sys2Proof.Machine.execAtsXor f s
  | .atsSmin f => Sys2Proof.Machine.execAtsSmin f s
  | .atsSmax f => Sys2Proof.Machine.execAtsSmax f s
  | .atsUmin f => Sys2Proof.Machine.execAtsUmin f s
  | .atsUmax f => Sys2Proof.Machine.execAtsUmax f s
  | .atsExch f => Sys2Proof.Machine.execAtsExch f s
  | .atsCas f => Sys2Proof.Machine.execAtsCas f s
  | .atsFadd f => Sys2Proof.Machine.execAtsFadd f s
  | .atcAdd f => Sys2Proof.Machine.execAtcAdd f s
  | .atcAnd f => Sys2Proof.Machine.execAtcAnd f s
  | .atcOr f => Sys2Proof.Machine.execAtcOr f s
  | .atcXor f => Sys2Proof.Machine.execAtcXor f s
  | .atcSmin f => Sys2Proof.Machine.execAtcSmin f s
  | .atcSmax f => Sys2Proof.Machine.execAtcSmax f s
  | .atcUmin f => Sys2Proof.Machine.execAtcUmin f s
  | .atcUmax f => Sys2Proof.Machine.execAtcUmax f s
  | .atcExch f => Sys2Proof.Machine.execAtcExch f s
  | .atcCas f => Sys2Proof.Machine.execAtcCas f s
  | .atcFadd f => Sys2Proof.Machine.execAtcFadd f s
  | .atdAdd f => Sys2Proof.Machine.execAtdAdd f s
  | .atdAnd f => Sys2Proof.Machine.execAtdAnd f s
  | .atdOr f => Sys2Proof.Machine.execAtdOr f s
  | .atdXor f => Sys2Proof.Machine.execAtdXor f s
  | .atdSmin f => Sys2Proof.Machine.execAtdSmin f s
  | .atdSmax f => Sys2Proof.Machine.execAtdSmax f s
  | .atdUmin f => Sys2Proof.Machine.execAtdUmin f s
  | .atdUmax f => Sys2Proof.Machine.execAtdUmax f s
  | .atdExch f => Sys2Proof.Machine.execAtdExch f s
  | .atdCas f => Sys2Proof.Machine.execAtdCas f s
  | .atdFadd f => Sys2Proof.Machine.execAtdFadd f s
  | .atrPAdd f => Sys2Proof.Machine.execAtrPAdd f s
  | .atrPAnd f => Sys2Proof.Machine.execAtrPAnd f s
  | .atrPOr f => Sys2Proof.Machine.execAtrPOr f s
  | .atrPXor f => Sys2Proof.Machine.execAtrPXor f s
  | .atrPSmin f => Sys2Proof.Machine.execAtrPSmin f s
  | .atrPSmax f => Sys2Proof.Machine.execAtrPSmax f s
  | .atrPUmin f => Sys2Proof.Machine.execAtrPUmin f s
  | .atrPUmax f => Sys2Proof.Machine.execAtrPUmax f s
  | .atrPExch f => Sys2Proof.Machine.execAtrPExch f s
  | .atrPCas f => Sys2Proof.Machine.execAtrPCas f s
  | .atrPFadd f => Sys2Proof.Machine.execAtrPFadd f s
  | .atrHAdd f => Sys2Proof.Machine.execAtrHAdd f s
  | .atrHAnd f => Sys2Proof.Machine.execAtrHAnd f s
  | .atrHOr f => Sys2Proof.Machine.execAtrHOr f s
  | .atrHXor f => Sys2Proof.Machine.execAtrHXor f s
  | .atrHSmin f => Sys2Proof.Machine.execAtrHSmin f s
  | .atrHSmax f => Sys2Proof.Machine.execAtrHSmax f s
  | .atrHUmin f => Sys2Proof.Machine.execAtrHUmin f s
  | .atrHUmax f => Sys2Proof.Machine.execAtrHUmax f s
  | .atrHExch f => Sys2Proof.Machine.execAtrHExch f s
  | .atrHCas f => Sys2Proof.Machine.execAtrHCas f s
  | .atrHFadd f => Sys2Proof.Machine.execAtrHFadd f s
  | .fenceAcq f => Sys2Proof.Machine.execFenceAcq f s
  | .fenceRel f => Sys2Proof.Machine.execFenceRel f s
  | .fenceAr f => Sys2Proof.Machine.execFenceAr f s
  | .fenceTot f => Sys2Proof.Machine.execFenceTot f s
  | .xfence f => Sys2Proof.Machine.execXfence f s
  | .fenceI w => Sys2Proof.Machine.execFenceI w s
  | .barArr f => Sys2Proof.Machine.execBarArr f s
  | .barHold f => Sys2Proof.Machine.execBarHold f s
  | .wait f => Sys2Proof.Machine.execWait f s
  | .pass f => Sys2Proof.Machine.execPass f s
  | .cpost f => Sys2Proof.Machine.execCpost f s
  | .cdrain f => Sys2Proof.Machine.execCdrain f s
  | .spawn f => Sys2Proof.Machine.execSpawn f s
  | .spawnOpen f => Sys2Proof.Machine.execSpawnOpen f s
  | .arm f => Sys2Proof.Machine.execArm f s
  | .cancel f => Sys2Proof.Machine.execCancel f s
  | .step f => Sys2Proof.Machine.execStep f s
  | .retire f => Sys2Proof.Machine.execRetire f s
  | .mlda f => Sys2Proof.Machine.execMlda f s
  | .mldaT f => Sys2Proof.Machine.execMldaT f s
  | .mldb f => Sys2Proof.Machine.execMldb f s
  | .mma f => Sys2Proof.Machine.execMma f s
  | .mmaZ f => Sys2Proof.Machine.execMmaZ f s
  | .mzero f => Sys2Proof.Machine.execMzero f s
  | .mdrain f => Sys2Proof.Machine.execMdrain f s
  | .mdrainp f => Sys2Proof.Machine.execMdrainp f s
  | .marm f => Sys2Proof.Machine.execMarm f s
  | .mstat f => Sys2Proof.Machine.execMstat f s
  | .ctab f => Sys2Proof.Machine.execCtab f s
  | .msave f => Sys2Proof.Machine.execMsave f s
  | .mrest f => Sys2Proof.Machine.execMrest f s
  | .hostWriteError r => Sys2Proof.Machine.execHostWriteError r s

end Sys2Proof.Machine
end

