-- ==== Sys2Proof/Machine/Turn.lean ====
section
/-!
DEFINITION. The parts of a step (log 4): the execution of a selected word, the inputs, and what the machine does where no input is left; and the placing of one
word for the next step (log 7).
-/
namespace Sys2Proof.Machine

/-! ## A selected word executes (R112, R116, R228) -/

/-- Two slots of one group. -/
def sameGroup (a b : Cur) : Bool := a.r.core == b.r.core && a.r.crew == b.r.crew && a.r.gid == b.r.gid

/-- What a second word of the group and cycle reads, as it is now (R112). -/
def State.preOf (s : State) (r : SplitRef) : Option Pre :=
  match s.crew? r.core r.crew with
  | none => none
  | some w => (w.group? r.gid).map fun g => ⟨g.s, g.k, g.seq, g.flags, g.ctx, w.round⟩

/-- The first selected word becomes the one that executes. A second word of the same group reads its sources as they are now (R112). -/
def State.popSlot (s : State) (u : Cur) (t : List Cur) : State :=
  { s with
    cur := some u
    issueQ := match t with
      | v :: r => (if sameGroup u v then { v with pre := s.preOf u.r } else v) :: r
      | [] => [] }

/-- Fetch, decode and execute the word of the split that State.cur names. A word that is refused takes its decode code (R181, R228). A split that has ended
since it was selected issues nothing. -/
def runSlot (exec : Instr → State → Out3) (decode : Dword → Decoded) (s : State) : Out3 :=
  match s.ctx with
  | none => .next s
  | some c =>
    match fetch s c with
    | .stop r => finish s c r
    | .word w s1 =>
      match decode w with
      | .instr i => exec i s1
      | .err e => finish s1 c (.trap e.code 0 0)

/-! ## Inputs (log 4) -/

/-- An internal array fails under the next word of a split that runs: its trap, and the row test (R180, R192). The grist's code has its own way (Machine/Tun.lean). -/
def arrayFails (s : State) (r : SplitRef) (code : Byte) : State :=
  match s.group? r.core r.crew r.gid with
  | none => s
  | some g =>
    if groupRuns g && (match g.split? r.split with | some p => p.waiting.isNone && p.parked.isNone | none => false) && 0x90 ≤ code.toNat && code.toNat ≤ 0x97 && code != 0x93 then
      takeTrap (s.startTest (2 ^ 40 + r.core)) r.core r.crew r.gid r.split code 0 0
    else s

/-- A saved crew's record is the one that left a core's slot last. -/
def leftFrom (core slot : Nat) (q : QRec) : Bool := match q.saved with | some w => w.lastCore == core && w.slot == slot | none => false

/-- The image of a saved crew cannot be read back, or is refused: the crew is killed, and its launch names the cause (R180, R183, R191). A cancel that has taken
effect on the die comes first, without the cause (R193). -/
def savedFails (s : State) (core slot : Nat) (code : Byte) : State :=
  let d := dieOf core
  match (s.die d).queue.find? (leftFrom core slot) with
  | none => s
  | some q =>
    let g := ((q.saved.bind fun w => w.groups.find? fun g => g.live).map (·.gid)).getD 0
    let s1 := if s.cancelledOn q.part d 15 q.task.scopeId then s
      else s.countTrap q.part q.task.launch ⟨(s.timeOf d).toNat, 0, (coreReg core).toNat, g, code, 0⟩
    (discardWhere s1 d (leftFrom core slot)).freeScopes q.part

/-- What a crew keeps cannot be read back: its groups that wait for a tile take 0x39 (R190); a crew that is stopped, or saved, ends with the cause, which nobody
deals with (R180, R183), unless a cancel comes first (R193). -/
def imageFails (s : State) (core slot : Nat) (code : Byte) : State :=
  match s.crew? core slot with
  | none => savedFails s core slot code
  | some w =>
    let waiting := w.groups.filter fun g => g.live && (match g.fwait with | some (.context _) => true | _ => false)
    if !waiting.isEmpty then waiting.foldl (fun s g => unhandled s core slot g.gid 0x39 0) s
    else match w.groups.find? fun g => g.live with
    | none => s
    | some g =>
      if !w.groups.all fun g => !g.live || g.stopped then s
      else if groupDoomed s core w g then killDoomed s core slot
      else unhandled s core slot g.gid code 0

/-! ## What the machine does of itself (log 4) -/

/-- The smaller of two by a key; the first where they are equal. -/
def least {α : Type} (key : α → Nat) : List α → Option α
  | [] => none
  | x :: t => match least key t with | none => some x | some y => if key y < key x then some y else some x

/-- A core's elapsed time lies within the present tick of its die. -/
def inTick (s : State) (core : Nat) : Bool := decide ((s.core core).elapsed < tickLength * ((s.timeOf (dieOf core)).toNat + 1))

/-- The core whose cycle is next: one with a word to issue, whose elapsed time lies within the present tick of its die, and the one furthest behind. -/
def nextCore (s : State) : Option Nat :=
  least (fun c => (s.core c).elapsed)
    ((s.cores.map (·.1)).filter fun c => inTick s c && hasWord s c)

/-- The resident groups, each with its crew and core. -/
def allGroups (s : State) : List (Nat × Crew × Group) := s.allCrews.flatMap fun (c, w) => w.groups.map fun g => (c, w, g)

/-- What time has brought due by now: an alignment pulse (R24), a torn submission (R39), the end of a slice that some partition has or takes (R60), the end of
what a kill or a migration waits for (R94, R137), of a quiesce or a ramp (R65), of a retraining (R22), a step of a thermal cut (R66), the bounds of a cancel and
of a page request (R45, R92), and the end of a control interval, whose energies are then free values (R62, R63). -/
def dueEvent (s : State) : Option Instr :=
  if pulseDue s then some .alignmentPulse
  else
    (s.fns.findSome? fun (f, x) => (x.aqis.find? fun a => tornDue s f a.1).map fun a => Instr.tornSubmission (BitVec.ofNat 6 f) (BitVec.ofNat 5 a.1))
    <|> (((List.range 8).find? fun f => sliceDue s f && (s.slice.get f 0 != 0 || (nextSlice s f 0).isSome)).map fun f => Instr.sliceEnd (BitVec.ofNat 3 f))
    <|> (((allGroups s).find? fun (c, w, g) => killDue s c w g).map fun (c, w, g) => Instr.killTimeout c w.slot g.gid)
    <|> (((allGroups s).find? fun (c, w, g) => moveDue s c w g).map fun (c, w, g) => Instr.migrationStopTimeout c w.slot g.gid)
    <|> ((s.changes.find? fun x => !(quiesceOut s x.target).isEmpty).map fun x => Instr.quiesceTimeout x.target)
    <|> ((s.ports.find? fun p => retrainOver s p.1).map fun p => Instr.retrainTimeout p.1)
    <|> ((s.changes.find? fun x => quiesced s x.target && (rampWaits s x.target || rampOver s x.target)).map fun x => Instr.railChangeApplied x.target)
    <|> ((s.cores.find? fun c => cutOver s c.1 && cutNext s c.1 != (s.core c.1).cut).map fun c => Instr.thermalCutStep c.1)
    <|> (s.since.findSome? fun e => match e.1 with
          | .cancel d p x => if 500 ≤ s.ageOf e.1 && (s.die d).cancels.contains (p, x) then some (Instr.cancelApply (BitVec.ofNat 3 d) (BitVec.ofNat 6 p) (BitVec.ofNat 16 x)) else none
          | .page f ps page w => if pageOver s f (ps, page, w) && (s.fn f).pri.contains (ps, page, w) then
              some (Instr.pageRequestTimeout (BitVec.ofNat 6 f) (BitVec.ofNat 20 ps) (4096 * page)) else none)
    <|> (if intervalOver s then some (.controlIntervalEnd (s.worked.map fun p => (p, (Config.freeWord s.free p 0).toNat))) else none)

/-! ## Inputs act (log 4) -/

/-- A tick, or a cycle of a core, that TIME does not allow now: a tick comes once what is due by now has happened and every core with a word to issue has come to
the end of the present tick, and a cycle begins within it (R23, R121, R353, R354). -/
def tooEarly (s : State) (i : Instr) : Bool :=
  match i with
  | .timeTick _ => (dueEvent s).isSome || (nextCore s).isSome
  | .issueCycle c => !inTick s c
  | _ => false

/-- An input acts. An instruction word is no input. -/
def runInput (exec : Instr → State → Out3) (s : State) (x : Input) : Out3 :=
  match x with
  | .event i => if i.isWord || tooEarly s i then .next s else exec i s
  | .hostMem a bs => .next { s with host := s.host.setBytes a bs }
  | .devMem a bs => .next ((List.range bs.length).foldl (fun s i => s.devWrite (a + i) [bs.getD i 0]) s)
  | .devPoison w => .next (if s.poison.contains w then s else { s with poison := s.poison ++ [w] })
  | .spadPoison c w p => .next (s.modCrew c w fun x => if x.spadPoison.contains p then x else { x with spadPoison := x.spadPoison ++ [p] })
  | .gristPoison c p => .next (s.modCore c fun k => if k.gristPoison.contains p then k else { k with gristPoison := k.gristPoison ++ [p] })
  | .hostPoison w => .next (if s.hostPoison.contains w then s else { s with hostPoison := s.hostPoison ++ [w] })
  | .arrayError r code => .next (arrayFails s r code)
  | .imageError c w refused => .next (imageFails s c w (if refused then 0x9B else 0x9A))
  | .priEnable f => .next (s.modFn f fun x => { x with priOn := true })
  | .rowError r => .next (s.startTest r)
  | .bar2Write f off bs => .next (bar2Write s f off bs)

/-! ## The machine goes on alone (log 4) -/

/-- The outstanding accesses and results that the device itself ends, with the group that issued each. -/
def localOuts (s : State) : List (SplitRef × Out) :=
  s.allCrews.flatMap fun (c, w) => w.groups.flatMap fun g =>
    (g.outs.filter fun o => !o.peer && o.kind != .mx).map fun o => (⟨c, w.slot, g.gid, o.split⟩, o)

/-- No input is left: what time has brought due; else a core's next cycle; where none has a word to issue in this tick, the oldest result or acknowledgement that is
due; else a tick. -/
def runAlone (exec : Instr → State → Out3) (s : State) : Out3 :=
  match dueEvent s, nextCore s with
  | some i, _ => exec i s
  | none, some c => exec (.issueCycle c) s
  | none, none =>
    match least (fun x => x.2.id) (localOuts s) with
    | some (r, o) => if o.kind == .store then exec (.storeAcknowledge r o.id (.ok [])) s else exec (.resultReturn r o.id (.ok [])) s
    | none => exec (.timeTick 0) s

/-! ## One word placed for the next step (log 7) -/

/-- The record of the standard crew: one group, 256 M registers, 4 KiB of scratchpad, four accumulator tiles. -/
def standardTask : TaskRec :=
  { code := 0, args := 0, tile := 0, succ := 0, scope := 0, energy := 0, peak := 0, key := 0, shape := 0x90040, launch := 0, rsvd := 0 }

/-- Its code descriptor: both encodings from address 0x10000 on. -/
def standardCode : CodeDesc :=
  { dbase := 0x10000, lbase := 0x10000, smtab := 0, need := 0, mix := 0, genergy := 0, gpeak := 0, cflags := 3, nep := 0, rsvdZero := true }

/-- The standard crew in slot 0 of a core. -/
def standardCrew (seed uid : Nat) (ctx : BitVec 14) : Crew :=
  freshCrew seed uid 0 0 ctx [0, 1, 2, 3] ⟨List.range 8, List.range 4, [], false⟩
    { part := 0, pasid := 0, prio := 0, bin := 0, task := standardTask, root := none, saved := none, byGen := false, spilled := false, addr := 0, pkt := none,
      reset := false } standardCode 0

/-- The split that the next step issues for, where it lives. -/
def headCtx (s : State) : Option Ctx :=
  match s.issueQ with
  | u :: t => (s.popSlot u t).ctx
  | [] => none

/-- A state whose first selected split lives: s itself, or s with the standard crew alone on core 0. -/
def State.selectOne (s : State) : State :=
  match headCtx s with
  | some _ => s
  | none =>
    { s.modCore 0 fun k => { k with crews := [standardCrew s.free s.nextId { k with crews := [] }.freshCtx], ctxNext := { k with crews := [] }.freshCtx + 1 } with
      free := s.free + 1, nextId := s.nextId + 1, issueQ := [⟨⟨0, 0, 0, 0⟩, false, none⟩] }

/-- The word in the instruction cache of the core, at the PC of the split selected first. -/
def State.placeWord (s : State) (w : Dword) : State :=
  match headCtx s with
  | some c => s.modCore c.r.core fun k => { k with icache := (c.crew.part, c.crew.pasid.toNat, (c.crew.addrOf c.r.core c.sp.pc).toNat, w) :: k.icache }
  | none => s

end Sys2Proof.Machine
end

