-- ==== Sys2Proof/Machine/Step.lean ====
section
/-!
DEFINITION. One step of the machine: a selected word executes, or the next input acts, or the machine does what it does of itself (log 4). What a step calls
is defined in the other files; this one only orders it.
-/
namespace Sys2Proof.Machine

/-- A step: a word that is selected executes; else the next input acts; else the machine goes on by itself (log 4). -/
noncomputable def step (s : State) : Host.Outcome State Fault Refusal :=
  match s.issueQ with
  | u :: t => runSlot exec decode (s.popSlot u t)
  | [] =>
    match s.agenda with
    | x :: t => runInput exec { s with agenda := t } x
    | [] => runAlone exec s

/-- The state in which the next step executes a word: the word is in the instruction cache at the PC of the split that is selected first; where none is, of
the one split of a standard crew on core 0, which it selects (log 7). Every word has 64 bits (R213). -/
def State.withFetchWord (s : State) (nbits w : Nat) : State := s.selectOne.placeWord (BitVec.ofNat 64 (w % 2 ^ nbits))

end Sys2Proof.Machine
end

