-- ==== Sys2Proof/Safety.lean ====
section
/-!
DEFINITION. What counts as a safe run, and the conditions on a state that claims use: the canonical form of the memories, and a split that may run the next word.
-/
namespace Sys2Proof.Machine

/-- Device memory and host memory keep their canonical form, so that equal memories are equal data. -/
def MemoryCanonical (s : State) : Prop := s.mem.wf = true ∧ s.host.wf = true

/-- The machine goes on from here: no fault and no refusal. -/
def GoesOn (s : State) : Prop := ∃ t, step s = .next t

/-- A safe run of n steps goes on at each of them. -/
def SafeRun : Nat → State → Prop
  | 0, _ => True
  | n + 1, s => ∃ t, step s = .next t ∧ SafeRun n t

/-- The split that State.cur names lives, no trap of its group waits to be taken, and outside handler mode no completed software trap is held (R332). -/
structure Issues (s : State) (c : Ctx) : Prop where
  ctx : s.ctx = some c
  noTrap : c.g.pendTrap = none
  noHeld : c.g.handler = none → c.g.heldTraps = []

/-- It may execute a word that a closed strand and a strand without its se may not (R131, R243); in handler mode neither is asked (R187). -/
structure MayRun (s : State) (c : Ctx) : Prop extends Issues s c where
  strand : c.g.handler = none → c.sp.closed = false ∧ c.sp.fused = false

/-- It may execute a commit: besides, the group is not in handler mode (R187). -/
structure MayCommit (s : State) (c : Ctx) : Prop extends MayRun s c where
  noHandler : c.g.handler = none

end Sys2Proof.Machine
end

