-- ==== Sys2Proof/Certificates/Slice0/Obligations.lean ====
section
/-!
DEFINITION. The statements about this model, by rule of the spec.
-/
open Sys2Proof Sys2Proof.Machine

/-! ## Vocabulary -/

namespace Sys2Proof.Claim

/-- An exact integer result in 64 bits. -/
def exact64 (r : Int) : Dword := BitVec.ofInt 64 r

/-- A destination of a scalar word: s0 to s63 or k1 to k7 (R232). -/
def scalarDst : Operand → Bool
  | .s _ => true
  | .k i => i != 0
  | _ => false

/-- A source of a scalar word: S-class, but no accumulator and not LANE (R232). -/
def scalarSrc : Operand → Bool
  | .s _ => true
  | .k _ => true
  | .special _ => true
  | .const _ => true
  | _ => false

/-- What a completed word writes to D with an exact result: an s register whole, a k register its low 32 bits (R232, R234). -/
def toScalar (d : Operand) (r : Dword) : List Wr :=
  match d with
  | .s i => [⟨.s i.toNat, BitVec.allOnes 32, .sc r, 0xFFFFFFFF⟩]
  | .k i => [⟨.k i.toNat, BitVec.allOnes 32, .sc (r &&& 0xFFFFFFFF), 0xFFFFFFFF⟩]
  | _ => []

/-- The rows of R233 with two sources and no flag: the exact result and the class. -/
def twoSourceRows : List ((RWord → Instr) × (Dword → Dword → Int) × TClass) :=
  [(.addB64, fun a b => a.toNat + b.toNat, .t1), (.subB64, fun a b => a.toNat - b.toNat, .t1), (.mulB64, fun a b => a.toNat * b.toNat, .t1),
   (.mulhiI64, fun a b => a.toInt * b.toInt / 2 ^ 64, .t4), (.mulhiN64, fun a b => (a.toNat : Int) * b.toNat / 2 ^ 64, .t4),
   (.andB64, fun a b => (a &&& b).toNat, .t1), (.orB64, fun a b => (a ||| b).toNat, .t1), (.xorB64, fun a b => (a ^^^ b).toNat, .t1),
   (.andnB64, fun a b => (a &&& ~~~b).toNat, .t1), (.shlB64, fun a b => a.toNat * 2 ^ (b.toNat % 64), .t1),
   (.shrN64, fun a b => a.toNat / 2 ^ (b.toNat % 64), .t1), (.shrI64, fun a b => a.toInt / 2 ^ (b.toNat % 64), .t1),
   (.minI64, fun a b => min a.toInt b.toInt, .t1), (.maxI64, fun a b => max a.toInt b.toInt, .t1),
   (.minN64, fun a b => min a.toNat b.toNat, .t1), (.maxN64, fun a b => max a.toNat b.toNat, .t1)]

/-- The flagging rows of R233: the exact result, by whether the form is signed. -/
def flaggingRows : List ((RWord → Instr) × Bool × (Int → Int → Int)) :=
  [(.addoI64, true, fun a b => a + b), (.addoN64, false, fun a b => a + b), (.suboI64, true, fun a b => a - b), (.suboN64, false, fun a b => a - b),
   (.muloI64, true, fun a b => a * b), (.muloN64, false, fun a b => a * b)]

/-- A value as a form takes it: Sext or unsigned (R235). -/
def formVal (signed : Bool) (a : Dword) : Int := if signed then a.toInt else a.toNat

/-- The range of a form (R235). -/
def formRange (signed : Bool) (e : Int) : Prop := if signed then -2 ^ 63 ≤ e ∧ e ≤ 2 ^ 63 - 1 else 0 ≤ e ∧ e ≤ 2 ^ 64 - 1

/-- The rows of R236 that read A. -/
def immediateRows : List ((IWord → Instr) × (Dword → Word → Dword)) :=
  [(.addiB64, fun a i => exact64 (a.toNat + i.toInt)), (.andiB64, fun a i => a &&& exact64 i.toInt), (.oriB64, fun a i => a ||| exact64 i.toNat),
   (.xoriB64, fun a i => a ^^^ exact64 i.toNat), (.inshB64, fun a i => exact64 (i.toNat * 2 ^ 32 + a.toNat % 2 ^ 32))]

/-- The compares of R237. -/
def compareRows : List ((RWord → Instr) × (Dword → Dword → Bool)) :=
  [(.cmpEqB64, fun a b => decide (a = b)), (.cmpNeB64, fun a b => decide (a ≠ b)), (.cmpLtI64, fun a b => decide (a.toInt < b.toInt)),
   (.cmpLeI64, fun a b => decide (a.toInt ≤ b.toInt)), (.cmpLtN64, fun a b => decide (a.toNat < b.toNat)), (.cmpLeN64, fun a b => decide (a.toNat ≤ b.toNat))]

/-- The one-source rows of R237, as a relation of source and result. -/
def oneSourceRows : List ((RWord → Instr) × (Dword → Dword → Prop)) :=
  [(.popcB64, fun a r => r.toNat = ((List.range 64).filter fun i => a.getLsbD i).length),
   (.clzB64, fun a r => (a = 0 ∧ r = 64) ∨ (a ≠ 0 ∧ r.toNat < 64 ∧ a.getLsbD (63 - r.toNat) = true ∧ ∀ i < r.toNat, a.getLsbD (63 - i) = false)),
   (.ctzB64, fun a r => (a = 0 ∧ r = 64) ∨ (a ≠ 0 ∧ r.toNat < 64 ∧ a.getLsbD r.toNat = true ∧ ∀ i < r.toNat, a.getLsbD i = false)),
   (.brevB64, fun a r => ∀ i < 64, r.getLsbD (63 - i) = a.getLsbD i)]

/-- The field of bext and bins that c names is one (R238). -/
def fieldGood (c : Dword) : Prop :=
  c.extractLsb' 15 49 = 0 ∧ c.extractLsb' 6 2 = 0 ∧ 1 ≤ (c.extractLsb' 8 7).toNat ∧ (c.extractLsb' 8 7).toNat ≤ 64 ∧
    (c.extractLsb' 0 6).toNat + (c.extractLsb' 8 7).toNat ≤ 64

end Sys2Proof.Claim

open Sys2Proof.Claim

/-! ## Scalar words (13) -/

/-- Two-source scalar words complete with the result of R233 (R232, R233, R234). -/
def Obligations.ScalarTwoSourceResults : Prop :=
  ∀ row ∈ twoSourceRows, ∀ (f : RWord) (s : State) (c : Ctx), MayRun s c → scalarDst f.d = true → scalarSrc f.a = true → scalarSrc f.b = true →
    exec (row.1 f) s = .next (complete s c (toScalar f.d (exact64 (row.2.1 (sval s c 1 f.a) (sval s c 2 f.b)))) 0 row.2.2)

namespace Sys2Proof.Claim

/-- A value of a fault record by word, in the order of R248. -/
def recordWord (r : FaultRec) (n : Nat) : Dword := [r.fstat, r.faddr, r.fpc, r.fpcx, r.fent, r.fentx, r.seq, r.fctx].getD n 0

/-- A leaf of capq before the partition's mask (R254): STEP is a free value (log 10). -/
def leafWord (s : State) (c : Ctx) (n : Nat) : Dword :=
  let fdies := (fenceDies s (fenceOf s c.crew.part)).length
  if n = 0 then 0xDE1D#16 ++ 0x0768#16 ++ Config.stepping ++ 0x0001#16
  else if n = 1 then
    (if isL c.r.core then exact64 (2 ^ 40 + 8 * 2 ^ 32 + 64 * 2 ^ 24 + 16 * 2 ^ 16 + 4 * 2 ^ 8 + fdies)
     else exact64 (32 * 2 ^ 32 + 96 * 2 ^ 24 + 8 * 2 ^ 16 + 2 * 2 ^ 8 + fdies))
  else if n = 2 then 0xF
  else 0

/-- The value of an inline constant as a number, where it is 0 to 7. -/
def smallConst (a : Operand) (n : Nat) : Prop := n < 8 ∧ a = .const (BitVec.ofNat 7 (64 + n))

end Sys2Proof.Claim

/-- Flagging scalar words wrap, set integer overflow, or trap with 0x37 (R233, R235). -/
def Obligations.ScalarFlaggingResults : Prop :=
  ∀ row ∈ flaggingRows, ∀ (f : RWord) (s : State) (c : Ctx), MayRun s c → scalarDst f.d = true → scalarSrc f.a = true → scalarSrc f.b = true →
    let e := row.2.2 (formVal row.2.1 (sval s c 1 f.a)) (formVal row.2.1 (sval s c 2 f.b))
    (formRange row.2.1 e → exec (row.1 f) s = .next (complete s c (toScalar f.d (exact64 e)) 0 .t1)) ∧
    (¬formRange row.2.1 e → c.ctxNow.getLsbD 55 = false → exec (row.1 f) s = .next (complete s c (toScalar f.d (exact64 e)) 0x80 .t1)) ∧
    (¬formRange row.2.1 e → c.ctxNow.getLsbD 55 = true →
      exec (row.1 f) s = .next (takeTrap s c.r.core c.r.crew c.r.gid c.r.split 0x37 0 0))

/-- madd, sel and bins complete with their results (R233, R237, R238). -/
def Obligations.ScalarThreeSourceResults : Prop :=
  ∀ (f : RWord) (s : State) (c : Ctx), MayRun s c → scalarDst f.d = true → scalarSrc f.a = true → scalarSrc f.b = true → scalarSrc f.c = true →
    let a := sval s c 1 f.a
    let b := sval s c 2 f.b
    let v := sval s c 3 f.c
    exec (.maddB64 f) s = .next (complete s c (toScalar f.d (exact64 (a.toNat * b.toNat + v.toNat))) 0 .t1) ∧
    exec (.selB64 f) s = .next (complete s c (toScalar f.d (if v = 0 then b else a)) 0 .t1) ∧
    (fieldGood v → exec (.binsB64 f) s = .next (complete s c (toScalar f.d
      (let pos := (v.extractLsb' 0 6).toNat
       let len := (v.extractLsb' 8 7).toNat
       let m := exact64 ((2 ^ len - 1) * 2 ^ pos)
       (a &&& ~~~m) ||| (exact64 (b.toNat * 2 ^ pos) &&& m))) 0 .t1)) ∧
    (¬fieldGood v → exec (.binsB64 f) s = .next (takeTrap s c.r.core c.r.crew c.r.gid c.r.split 0x14 0 0))

/-- Scalar one-source words, compares and immediates complete with their results (R236, R237, R238). -/
def Obligations.ScalarUnaryCompareImmediate : Prop :=
  (∀ (f : RWord) (s : State) (c : Ctx), MayRun s c → scalarDst f.d = true → scalarSrc f.a = true →
    (∀ row ∈ oneSourceRows, ∃ r, row.2 (sval s c 1 f.a) r ∧ exec (row.1 f) s = .next (complete s c (toScalar f.d r) 0 .t1)) ∧
    (scalarSrc f.c = true → fieldGood (sval s c 3 f.c) → exec (.bextB64 f) s = .next (complete s c (toScalar f.d
      (exact64 ((sval s c 1 f.a).toNat / 2 ^ ((sval s c 3 f.c).extractLsb' 0 6).toNat % 2 ^ ((sval s c 3 f.c).extractLsb' 8 7).toNat))) 0 .t1)) ∧
    (scalarSrc f.c = true → ¬fieldGood (sval s c 3 f.c) → exec (.bextB64 f) s = .next (takeTrap s c.r.core c.r.crew c.r.gid c.r.split 0x14 0 0))) ∧
  (∀ row ∈ compareRows, ∀ (f : RWord) (s : State) (c : Ctx), MayRun s c → scalarDst f.d = true → scalarSrc f.a = true → scalarSrc f.b = true →
    exec (row.1 f) s = .next (complete s c (toScalar f.d
      (if row.2 (sval s c 1 f.a) (sval s c 2 f.b) then (match f.d with | .k _ => 0xFFFFFFFF | _ => 1) else 0)) 0 .t1)) ∧
  ((∀ row ∈ immediateRows, ∀ (f : IWord) (s : State) (c : Ctx), MayRun s c → scalarDst f.d = true → scalarSrc f.a = true →
    exec (row.1 f) s = .next (complete s c (toScalar f.d (row.2 (sval s c 1 f.a) f.imm)) 0 .t1)) ∧
  ∀ (f : IWord) (s : State) (c : Ctx), MayRun s c → scalarDst f.d = true →
    exec (.moviB64 f) s = .next (complete s c (toScalar f.d (exact64 f.imm.toInt)) 0 .t1))

/-- A scalar word with an illegal operand traps with the lowest code that applies (R228, R232). -/
def Obligations.ScalarOperandCauses : Prop :=
  ∀ row ∈ twoSourceRows, ∀ (f : RWord) (s : State) (c : Ctx), s.ctx = some c →
    (∀ i, f.d = .m i ∨ f.d = .o i ∨ f.d = .x i → exec (row.1 f) s = .next (takeTrap s c.r.core c.r.crew c.r.gid c.r.split 0x10 0 0)) ∧
    (scalarSrc f.a = true → scalarSrc f.b = true →
      ((f.d = .k 0 ∨ (∃ x, f.d = .special x) ∨ ∃ x, f.d = .const x) →
        exec (row.1 f) s = .next (takeTrap s c.r.core c.r.crew c.r.gid c.r.split 0x12 0 0)) ∧
      ((∃ x, f.d = .resLow x) ∨ (∃ x, f.d = .resHigh x) → exec (row.1 f) s = .next (takeTrap s c.r.core c.r.crew c.r.gid c.r.split 0x11 0 0)) ∧
      ((∃ x, f.d = .acc x) ∨ f.d = .lane → exec (row.1 f) s = .next (takeTrap s c.r.core c.r.crew c.r.gid c.r.split 0x10 0 0))) ∧
    (scalarDst f.d = true → scalarSrc f.b = true →
      ((∃ x, f.a = .m x) ∨ (∃ x, f.a = .o x) ∨ (∃ x, f.a = .x x) ∨ (∃ x, f.a = .acc x) ∨ f.a = .lane →
        exec (row.1 f) s = .next (takeTrap s c.r.core c.r.crew c.r.gid c.r.split 0x10 0 0)) ∧
      ((∃ x, f.a = .resLow x) ∨ (∃ x, f.a = .resHigh x) → exec (row.1 f) s = .next (takeTrap s c.r.core c.r.crew c.r.gid c.r.split 0x11 0 0)))

/-- capq, rdfr, wrsr and nop read and write what R248 to R255 give them (R248, R249, R252, R253, R254, R255). -/
def Obligations.SpecialReadsAndWrites : Prop :=
  (∀ (f : RWord) (s : State) (c : Ctx), MayRun s c → (∃ i, f.d = .s i) →
    (scalarSrc f.a = true → exec (.capq f) s = .next (complete s c (toScalar f.d
      (if (sval s c 1 f.a).toNat < 8 then leafWord s c (sval s c 1 f.a).toNat &&& ((s.part c.crew.part).capmask.getD (sval s c 1 f.a).toNat (BitVec.allOnes 64)) else 0)) 0 .t1)) ∧
    (∀ n, smallConst f.a n → exec (.rdfr f) s = .next (complete s c (toScalar f.d (recordWord c.g.frec n)) 0 .t1))) ∧
  (∀ (f : RWord) (s : State) (c : Ctx), MayRun s c →
    exec (.nop f) s = .next (complete s c [] 0 .t1) ∧
    (scalarSrc f.a = true → f.d = .special .flags → ∃ t g, exec (.wrsr f) s = .next t ∧ t.group? c.r.core c.r.crew c.r.gid = some g ∧
      g.flags = (sval s c 1 f.a).setWidth 8 ∧ g.ctx = c.g.ctx ∧ g.s = c.g.s ∧ g.k = c.g.k) ∧
    (scalarSrc f.a = true → f.d = .special .ctx → (sval s c 1 f.a).extractLsb' 56 4 = 0 → (sval s c 1 f.a).extractLsb' 32 16 = 0 →
      ∃ t g, exec (.wrsr f) s = .next t ∧ t.group? c.r.core c.r.crew c.r.gid = some g ∧ g.ctx = sval s c 1 f.a ∧ g.flags = c.g.flags ∧ g.s = c.g.s ∧ g.k = c.g.k) ∧
    (scalarSrc f.a = true → f.d = .special .ctx → (sval s c 1 f.a).extractLsb' 56 4 ≠ 0 ∨ (sval s c 1 f.a).extractLsb' 32 16 ≠ 0 →
      exec (.wrsr f) s = .next (takeTrap s c.r.core c.r.crew c.r.gid c.r.split 0x0A 0 0)))

namespace Sys2Proof.Claim

/-- The target of an offset is t, in range (R240). -/
def targetIs (pc : Pcoff) (imm : Word) (t : Pcoff) : Prop := (pc.toNat : Int) + imm.toInt = t.toNat ∧ t.toNat < 2 ^ 32

/-- The target of an offset is negative or at or above 2^32 (R240). -/
def targetBad (pc : Pcoff) (imm : Word) : Prop := (pc.toNat : Int) + imm.toInt < 0 ∨ 2 ^ 32 ≤ (pc.toNat : Int) + imm.toInt

/-- The split may execute a word that a closed split may: it waits for no se (R131, R243). -/
structure MayBranch (s : State) (c : Ctx) : Prop extends Issues s c where
  strand : c.g.handler = none → c.sp.fused = false

/-- The word completes with these writes and the whole split stands at t. -/
def wentTo (s : State) (c : Ctx) (ws : List Wr) (t : Pcoff) : State := completeWith s c ws 0 .t1 fun p => { p with pc := t }

/-- No cancel or kill has taken effect that would end the group where it comes to wait (R93). -/
def spared (s : State) (c : Ctx) : Prop := groupDoomed s c.r.core c.crew c.g = false

/-- The split of the word in a later state. -/
def splitIn (t : State) (c : Ctx) : Option Split := (t.group? c.r.core c.r.crew c.r.gid).bind fun g => g.split? c.r.split

/-- The word traps at the executing split with this cause, no lane and no address. -/
def trapsWith (s : State) (c : Ctx) (code : Byte) : Out3 := .next (takeTrap s c.r.core c.r.crew c.r.gid c.r.split code 0 0)

end Sys2Proof.Claim

/-! ## Control and strand words (13) -/

/-- br, ret, bz, bnz and call move the whole split (R240, R241, R242, R243). -/
def Obligations.UniformBranches : Prop :=
  ∀ (f : IWord) (s : State) (c : Ctx) (t : Pcoff),
    (MayBranch s c → targetIs c.sp.pc f.imm t → exec (.br f) s = .next (wentTo s c [] t)) ∧
    (MayBranch s c → scalarSrc f.a = true → (sval s c 1 f.a).toNat < 2 ^ 32 → exec (.ret f) s = .next (wentTo s c [] ((sval s c 1 f.a).setWidth 54))) ∧
    (MayRun s c → targetIs c.sp.pc f.imm t → scalarSrc f.a = true →
      exec (.bz f) s = .next (if sval s c 1 f.a = 0 then wentTo s c [] t else complete s c [] 0 .t1) ∧
      exec (.bnz f) s = .next (if sval s c 1 f.a = 0 then complete s c [] 0 .t1 else wentTo s c [] t)) ∧
    (MayRun s c → targetIs c.sp.pc f.imm t → ∀ i, f.d = .s i →
      exec (.call f) s = .next (wentTo s c [⟨.s i.toNat, BitVec.allOnes 32, .sc ((c.sp.pc + 1).setWidth 64), 0xFFFFFFFF⟩] t))

/-- A branch whose target is outside the encoding takes 0x1A, taken or not (R240). -/
def Obligations.BranchTargetChecked : Prop :=
  ∀ (f : IWord) (s : State) (c : Ctx), MayRun s c →
    (targetBad c.sp.pc f.imm → exec (.br f) s = trapsWith s c 0x1A ∧
      (scalarSrc f.a = true → exec (.bz f) s = trapsWith s c 0x1A ∧ exec (.bnz f) s = trapsWith s c 0x1A) ∧
      (∀ i, f.a = .k i → exec (.bk f) s = trapsWith s c 0x1A ∧ exec (.bnk f) s = trapsWith s c 0x1A) ∧
      (∀ i, f.d = .s i → exec (.call f) s = trapsWith s c 0x1A)) ∧
    (scalarSrc f.a = true → 2 ^ 32 ≤ (sval s c 1 f.a).toNat → exec (.ret f) s = trapsWith s c 0x1A)

/-- bk and bnk move, fall through, or divide the split (R111, R114, R241). -/
def Obligations.SplitBranchDivides : Prop :=
  ∀ (f : IWord) (s : State) (c : Ctx) (t : Pcoff) (i : BitVec 3) (neg : Bool), MayRun s c → targetIs c.sp.pc f.imm t → f.a = .k i →
    let i' : Instr := if neg then .bnk f else .bk f
    let m := (sval s c 1 f.a).setWidth 32
    let taken := c.sp.mask &&& (if neg then ~~~m else m)
    (taken = c.sp.mask → exec i' s = .next (wentTo s c [] t)) ∧
    (taken ≠ c.sp.mask → taken = 0 → exec i' s = .next (complete s c [] 0 .t1)) ∧
    (taken ≠ c.sp.mask → taken ≠ 0 → ∀ n < 4, (∀ p ∈ c.g.splits, p.num ≠ n) → (∀ k < n, ∃ p ∈ c.g.splits, p.num = k) →
      ∃ u g p q, exec i' s = .next u ∧ u.group? c.r.core c.r.crew c.r.gid = some g ∧ g.split? c.r.split = some p ∧ p.pc = t ∧ p.mask = taken ∧
        p.ent = c.sp.ent ∧ g.split? n = some q ∧ q.pc = c.sp.pc + 1 ∧ q.mask = c.sp.mask &&& ~~~taken ∧ q.ent = c.sp.ent ∧
        g.stack.map (fun e => (e.kind, e.mask, e.arr, e.pcoff)) = c.g.stack.map (fun e => (e.kind, e.mask, e.arr, e.pcoff))) ∧
    (taken ≠ c.sp.mask → taken ≠ 0 → (∀ n < 4, ∃ p ∈ c.g.splits, p.num = n) → c.g.stack.length < 16 →
      ∃ u g p e, exec i' s = .next u ∧ u.group? c.r.core c.r.crew c.r.gid = some g ∧ g.split? c.r.split = some p ∧ p.pc = t ∧ p.mask = taken ∧
        g.stack.head? = some e ∧ e.kind = .park ∧ e.mask = c.sp.mask &&& ~~~taken ∧ e.pcoff = c.sp.pc + 1 ∧ e.ent = c.sp.ent ∧
        g.stack.length = c.g.stack.length + 1) ∧
    (taken ≠ c.sp.mask → taken ≠ 0 → (∀ n < 4, ∃ p ∈ c.g.splits, p.num = n) → 16 ≤ c.g.stack.length → exec i' s = trapsWith s c 0x18)

/-- mark pushes a MARK; join arrives, fuses the last arrival, or takes 0x19 (R114, R244). -/
def Obligations.MarkAndJoin : Prop :=
  ∀ (f : IWord) (s : State) (c : Ctx) (t : Pcoff), MayCommit s c →
    (targetIs c.sp.pc f.imm t → c.g.stack.length < 16 → ∃ u g p e, exec (.mark f) s = .next u ∧ u.group? c.r.core c.r.crew c.r.gid = some g ∧
      g.split? c.r.split = some p ∧ p.pc = c.sp.pc + 1 ∧ p.closed = true ∧ g.seq = c.g.seq ∧ g.stack.head? = some e ∧ e.kind = .mark ∧
      e.mask = c.sp.mask ∧ e.arr = 0 ∧ e.pcoff = t ∧ g.stack.length = c.g.stack.length + 1) ∧
    (16 ≤ c.g.stack.length → exec (.mark f) s = trapsWith s c 0x18) ∧
    (targetBad c.sp.pc f.imm → c.g.stack.length < 16 → exec (.mark f) s = trapsWith s c 0x1A) ∧
    (∀ (e : Entry) (rest : List Entry), c.g.stack = e :: rest → e.kind = .mark → e.pcoff = c.sp.pc → c.sp.mask &&& e.mask = c.sp.mask → c.sp.mask ≠ 0 →
      (∀ x ∈ rest, x.ready = false) → (∀ x ∈ rest, x.kind ≠ .park) →
      (e.arr ||| c.sp.mask = e.mask → c.g.splits = [c.sp] → ∃ u g p, exec (.join f) s = .next u ∧ u.group? c.r.core c.r.crew c.r.gid = some g ∧
        g.splits = [p] ∧ p.num = 0 ∧ p.mask = e.mask ∧ p.pc = c.sp.pc + 1 ∧ p.ent = c.sp.pc + 1 ∧ p.fused = true ∧ p.closed = false ∧
        g.stack.length = rest.length ∧ g.seq = c.g.seq) ∧
      (e.arr ||| c.sp.mask ≠ e.mask → ∃ u g, exec (.join f) s = .next u ∧ u.group? c.r.core c.r.crew c.r.gid = some g ∧
        (g.stack.head?.map fun x => (x.kind, x.mask, x.arr, x.pcoff)) = some (.mark, e.mask, e.arr ||| c.sp.mask, e.pcoff) ∧
        (∀ p ∈ g.splits, p.num ≠ c.r.split) ∧ g.stack.length = c.g.stack.length ∧ g.seq = c.g.seq)) ∧
    ((∀ e ∈ c.g.stack, e.kind = .mark → e.mask &&& c.sp.mask = 0) → exec (.join f) s = trapsWith s c 0x19)

/-- exit ends the lanes of its split, and the group with its last split (R245). -/
def Obligations.ExitEndsLanes : Prop :=
  ∀ (f : IWord) (s : State) (c : Ctx), MayBranch s c → c.g.handler = none →
    (∃ u, exec (.exit f) s = .next u) ∧
    (∀ q, c.g.splits = [c.sp, q] ∨ c.g.splits = [q, c.sp] → q.num ≠ c.sp.num → c.g.stack = [] →
      ∃ u g, exec (.exit f) s = .next u ∧ u.group? c.r.core c.r.crew c.r.gid = some g ∧ g.live = true ∧ g.splits = [q] ∧ g.stack = [] ∧ g.seq = c.g.seq) ∧
    (c.g.splits = [c.sp] → c.g.stack = [] → c.crew.killed = false →
      ∃ u w g, exec (.exit f) s = .next u ∧ u.crew? c.r.core c.r.crew = some w ∧ w.group? c.r.gid = some g ∧ g.live = false ∧ g.splits = [] ∧
        w.flags = c.crew.flags ||| c.g.flags ∧ w.killed = false)

/-- se opens a strand at its equivalence point, or takes 0x1C (R128, R246). -/
def Obligations.StrandEntry : Prop :=
  ∀ (f : IWord) (s : State) (c : Ctx) (e : EqPoint), Issues s c → c.g.doomed = false →
    s.cancelledOn c.crew.part (dieOf c.r.core) 15 c.crew.task.scopeId = false → c.g.migStop = false →
    (c.g.handler = none → eqPoint? s c.crew.part c.crew.pasid.toNat c.crew.code c.crew.task.regs (f.imm.setWidth 16 : BitVec 16).toNat (clusterOf c.r.core) = some e →
      e.off = c.sp.pc.toNat → ∃ u g p, exec (.se f) s = .next u ∧ u.group? c.r.core c.r.crew c.r.gid = some g ∧ g.split? c.r.split = some p ∧
        p.pc = c.sp.pc + 1 ∧ p.ent = c.sp.pc ∧ p.ep = f.imm.setWidth 16 ∧ p.closed = false ∧ p.fused = false ∧ p.mask = c.sp.mask ∧
        (∀ l < 32, c.sp.mask.getLsbD l = true → (∀ i < 4, lane (g.x.getD i zeroLanes) l = 0) ∧ ∀ i < 16, lane (g.o.getD i zeroLanes) l = 0) ∧
        (∀ l < 32, c.sp.mask.getLsbD l = false →
          (∀ i < 4, lane (g.x.getD i zeroLanes) l = lane (c.g.x.getD i zeroLanes) l) ∧ ∀ i < 16, lane (g.o.getD i zeroLanes) l = lane (c.g.o.getD i zeroLanes) l) ∧
        g.m = c.g.m ∧ g.s = c.g.s ∧ g.k = c.g.k ∧ g.seq = c.g.seq ∧ g.flags = c.g.flags) ∧
    (c.g.handler = none → eqPoint? s c.crew.part c.crew.pasid.toNat c.crew.code c.crew.task.regs (f.imm.setWidth 16 : BitVec 16).toNat (clusterOf c.r.core) = none →
      exec (.se f) s = trapsWith s c 0x1C) ∧
    (c.g.handler = none → eqPoint? s c.crew.part c.crew.pasid.toNat c.crew.code c.crew.task.regs (f.imm.setWidth 16 : BitVec 16).toNat (clusterOf c.r.core) = some e →
      e.off ≠ c.sp.pc.toNat → exec (.se f) s = trapsWith s c 0x1C) ∧
    (c.g.handler ≠ none → exec (.se f) s = trapsWith s c 0x0F)

/-- migr registers a migration request, or says why not (R247). -/
def Obligations.MigrationRequest : Prop :=
  ∀ (f : IWord) (s : State) (c : Ctx) (i : BitVec 6), MayCommit s c → f.d = .s i → ((s.part c.crew.part).capmask.getD 2 (BitVec.allOnes 64)).getLsbD 3 = true →
    let other := !isL c.r.core
    let v : Dword := if !(if other then c.crew.code.lpres else c.crew.code.dpres) then 2 else if !affAllows c.crew.task other then 3
      else if !fits c.crew.task other then 4 else if c.crew.migr then 1 else 0
    ∃ u g w p, exec (.migr f) s = .next u ∧ u.crew? c.r.core c.r.crew = some w ∧ w.migr = (c.crew.migr || v == 0) ∧
      w.group? c.r.gid = some g ∧ g.seq = c.g.seq + 1 ∧ g.before none (.s i.toNat) = .sc v ∧ g.split? c.r.split = some p ∧ p.pc = c.sp.pc + 1 ∧ p.closed = true

/-- trap n takes cause 0x20 + n as a completed commit; rte leaves handler mode (R187, R332, R333). -/
def Obligations.SoftwareTrapAndReturn : Prop :=
  ∀ (f : RWord) (s : State) (c : Ctx),
    (MayCommit s c → spared s c → ∀ n, smallConst f.a n → mayInterrupt s c.r.core c.r.crew c.r.gid c.g = true →
      let x := (c.sp.oldSpec.map (·.2)).getD c.g.ctx
      x.getLsbD 63 = true → x.getLsbD 60 = true →
      ∃ u g p, exec (.trap f) s = .next u ∧ u.group? c.r.core c.r.crew c.r.gid = some g ∧ g.handler = some (c.r.split, c.sp.pc + 1) ∧ g.seq = c.g.seq + 1 ∧
        g.frec.cause = BitVec.ofNat 8 (0x20 + n) ∧ g.frec.faddr = 0 ∧ g.frec.fpc = c.crew.addrOf c.r.core c.sp.pc ∧
        g.split? c.r.split = some p ∧ p.pc = (x.extractLsb' 0 32).setWidth 54 ∧ p.closed = true ∧ p.mask = c.sp.mask) ∧
    (Issues s c → c.g.handler = none → c.sp.closed = false → c.sp.fused = false → exec (.rte f) s = trapsWith s c 0x1E) ∧
    (Issues s c → ∀ n back, c.g.handler = some (n, back) → c.g.outs = [] → c.g.heldTraps = [] →
      ∃ u g, exec (.rte f) s = .next u ∧ u.group? c.r.core c.r.crew c.r.gid = some g ∧ g.handler = none ∧ g.seq = c.g.seq ∧ g.frec = c.g.frec ∧ g.ctx = c.g.ctx ∧
        g.s = c.g.s ∧ g.k = c.g.k ∧
        (∀ p ∈ c.g.splits, p.hnd = true → p.closed = true → p.barWait = none → ∃ q ∈ g.splits, q.num = p.num ∧ q.pc = back ∧ q.mask = p.mask) ∧
        (∀ p ∈ c.g.splits, p.closed = false → p.barWait = none → p.atSe = none → ∃ q ∈ g.splits, q.num = p.num ∧ q.pc = p.ent ∧ q.mask = p.mask))

/-! ## Vector words (15) -/

namespace Sys2Proof.Claim

/-- An M, O or X register that the executing crew and core type have (R124). -/
def onCore (c : Ctx) : Operand → Bool
  | .m i => decide (i.toNat < 32 * c.crew.task.regs)
  | .o i => decide (i.toNat < if isL c.r.core then 16 else 8)
  | .x i => decide (i.toNat < if isL c.r.core then 4 else 2)
  | _ => false

/-- A source of a vector word: a present M, O or X register, LANE, or an S-class source that is no accumulator (R217, R218). -/
def laneSrc (c : Ctx) (o : Operand) : Bool := onCore c o || scalarSrc o || o == .lane

/-- A legal source modifier of B (R224). -/
def modGood (m : SrcMod) (b : Operand) : Prop :=
  (m.cls = .none ∧ m.seg = 0 ∧ m.dist = 0) ∨
    (m.cls ≠ .none ∧ m.seg.toNat < 6 ∧ m.dist.toNat < 2 ^ m.seg.toNat ∧ (m.cls = .butterfly → m.dist ≠ 0) ∧ ((∃ i, b = .m i) ∨ (∃ i, b = .o i) ∨ ∃ i, b = .x i))

/-- A rounding that a row with or without directed roundings offers (R222, R276). -/
def rndGood (dirs : Bool) (r : Rnd) : Prop := r = .rne ∨ (dirs = true ∧ (r = .rz ∨ r = .rd ∨ r = .ru))

/-- The rounding that RND names (R222). -/
def roundingOf : Rnd → RMode
  | .rz => .rtz | .rd => .rdn | .ru => .rup | _ => .rne

/-- The active lanes of an MR word: those of the split that the named mask holds (R222). -/
def activeLanes (s : State) (c : Ctx) (mask : BitVec 3) : Mask := c.sp.mask &&& (sval s c 7 (.k mask)).setWidth 32

/-- The lanes of B under its source modifier (R224). -/
def modified (m : SrcMod) (v : Lanes) : Lanes :=
  let g := 2 ^ m.seg.toNat
  ofLanes fun l => lane v (match m.cls with
    | .none => l
    | .rotate => l / g * g + (l % g + m.dist.toNat) % g
    | .butterfly => l ^^^ m.dist.toNat
    | .broadcast => l / g * g + m.dist.toNat)

/-- The class of a word under a source modifier whose segments have 8 lanes or more (R224). -/
def classUnder (m : SrcMod) (t : TClass) : TClass := if m.cls ≠ .none ∧ 3 ≤ m.seg.toNat ∧ t ≠ .t4 then .t3 else t

/-- The flags that the active lanes raise (R188, R275). -/
def flagsOf (act : Mask) (f : Nat → Byte) : Byte := ((List.range 32).filter fun l => act.getLsbD l).foldl (fun a l => a ||| f l) 0

/-- No flag raised is enabled as a trap (R188). -/
def quietly (c : Ctx) (fl : Byte) : Prop := fl &&& c.ctxNow.extractLsb' 48 8 = 0

/-- Flag i is the lowest flag raised that is enabled as a trap (R188). -/
def flagTraps (c : Ctx) (fl : Byte) (i : Nat) : Prop :=
  i < 8 ∧ (fl &&& c.ctxNow.extractLsb' 48 8).getLsbD i = true ∧ ∀ j < i, (fl &&& c.ctxNow.extractLsb' 48 8).getLsbD j = false

/-- A row that works lane by lane: does it read B, has it directed roundings, has it SAT, its class, its inline constants, and the result and flags of a lane. -/
structure LaneRow where
  instr : MRWord → Instr
  two : Bool
  dirs : Bool
  sat : Bool
  cls : TClass
  konst : BitVec 7 → Word
  op : Bool → RMode → Word → Word → Word × Byte

/-- A result with no flag. -/
def plain32 (f : Word → Word → Int) : Bool → RMode → Word → Word → Word × Byte := fun _ _ a b => (BitVec.ofInt 32 (f a b), 0)

/-- A row on integer elements of w bits: the exact result, saturated under SAT, else wrapped with Integer overflow (R278). -/
def exactRow (w : Nat) (signed : Bool) (e : Int → Int → Int) : Bool → RMode → Word → Word → Word × Byte := fun sat _ a b => flagging w signed e sat a b

/-- Major 0x07 (R277, R279). -/
def integerRows : List LaneRow :=
  [⟨.addI32, true, false, true, .t1, const32, exactRow 32 true fun a b => a + b⟩, ⟨.subI32, true, false, true, .t1, const32, exactRow 32 true fun a b => a - b⟩,
   ⟨.addN32, true, false, true, .t1, const32, exactRow 32 false fun a b => a + b⟩, ⟨.subN32, true, false, true, .t1, const32, exactRow 32 false fun a b => a - b⟩,
   ⟨.andB32, true, false, false, .t1, const32, plain32 fun a b => (a &&& b).toNat⟩, ⟨.orB32, true, false, false, .t1, const32, plain32 fun a b => (a ||| b).toNat⟩,
   ⟨.xorB32, true, false, false, .t1, const32, plain32 fun a b => (a ^^^ b).toNat⟩, ⟨.andnB32, true, false, false, .t1, const32, plain32 fun a b => (a &&& ~~~b).toNat⟩,
   ⟨.shlB32, true, false, false, .t1, const32, plain32 fun a b => a.toNat * 2 ^ (b.toNat % 32)⟩,
   ⟨.shrN32, true, false, false, .t1, const32, plain32 fun a b => a.toNat / 2 ^ (b.toNat % 32)⟩,
   ⟨.shrI32, true, false, false, .t1, const32, plain32 fun a b => a.toInt / 2 ^ (b.toNat % 32)⟩,
   ⟨.minI32, true, false, false, .t1, const32, plain32 fun a b => min a.toInt b.toInt⟩, ⟨.maxI32, true, false, false, .t1, const32, plain32 fun a b => max a.toInt b.toInt⟩,
   ⟨.minN32, true, false, false, .t1, const32, plain32 fun a b => min a.toNat b.toNat⟩, ⟨.maxN32, true, false, false, .t1, const32, plain32 fun a b => max a.toNat b.toNat⟩,
   ⟨.mulB32, true, false, false, .t2, const32, plain32 fun a b => a.toNat * b.toNat⟩,
   ⟨.mulhiI32, true, false, false, .t4, const32, plain32 fun a b => a.toInt * b.toInt / 2 ^ 32⟩,
   ⟨.mulhiN32, true, false, false, .t4, const32, plain32 fun a b => (a.toNat : Int) * b.toNat / 2 ^ 32⟩,
   ⟨.drcpN32, false, false, false, .t4, const32, fun _ _ a _ => if a = 0 then (0xFFFFFFFF, 0x02) else (BitVec.ofNat 32 ((2 ^ 32 - 1) / a.toNat), 0)⟩,
   ⟨.dcorN32, true, false, false, .t4, const32, plain32 fun a b => if b.toNat ≤ a.toNat then a.toNat - b.toNat else a.toNat⟩,
   ⟨.addI16, true, false, true, .t1, const16, exactRow 16 true fun a b => a + b⟩, ⟨.subI16, true, false, true, .t1, const16, exactRow 16 true fun a b => a - b⟩,
   ⟨.minI16, true, false, false, .t1, const16, fun _ _ => choose 16 true fun a b => decide (b < a)⟩,
   ⟨.maxI16, true, false, false, .t1, const16, fun _ _ => choose 16 true fun a b => decide (a < b)⟩,
   ⟨.addI8, true, false, true, .t1, const8, exactRow 8 true fun a b => a + b⟩, ⟨.subI8, true, false, true, .t1, const8, exactRow 8 true fun a b => a - b⟩,
   ⟨.minN8, true, false, false, .t1, const8, fun _ _ => choose 8 false fun a b => decide (b < a)⟩,
   ⟨.maxN8, true, false, false, .t1, const8, fun _ _ => choose 8 false fun a b => decide (a < b)⟩,
   ⟨.absI32, false, false, true, .t1, const32, exactRow 32 true fun a _ => if a < 0 then -a else a⟩,
   ⟨.popcB32, false, false, false, .t1, const32, plain32 fun a _ => ((List.range 32).filter fun i => a.getLsbD i).length⟩,
   ⟨.clzB32, false, false, false, .t1, const32, plain32 fun a _ => ((List.range 32).find? fun i => a.getLsbD (31 - i)).getD 32⟩,
   ⟨.brevB32, false, false, false, .t1, const32, plain32 fun a _ => ((List.range 32).map fun i => if a.getLsbD i then 2 ^ (31 - i) else 0).sum⟩]

/-- An element-wise float row. -/
def floatRow (f : FloatFmt) (op : RMode → Nat → Nat → FRes) : Bool → RMode → Word → Word → Word × Byte :=
  fun _ r => onElems f.width fun a b => ((op r a b).bits, (op r a b).flags)

/-- Major 0x09 for one format (R281, R282): the exact result rounded once; min, max, abs and neg exact. -/
def floatRowsOf (f : FloatFmt) (add sub mul mn mx ab ng : MRWord → Instr) : List LaneRow :=
  [⟨add, true, true, false, .t2, constF f, floatRow f fun r a b => sumRes f r [f.val a, f.val b] false⟩,
   ⟨sub, true, true, false, .t2, constF f, floatRow f fun r a b => sumRes f r [f.val a, (f.val b).flip] false⟩,
   ⟨mul, true, true, false, .t2, constF f, floatRow f fun r a b => mulRes f r (f.val a) (f.val b)⟩,
   ⟨mn, true, false, false, .t2, constF f, floatRow f fun _ a b => ⟨f.minmax false a b, 0⟩⟩, ⟨mx, true, false, false, .t2, constF f, floatRow f fun _ a b => ⟨f.minmax true a b, 0⟩⟩,
   ⟨ab, false, false, false, .t2, constF f, floatRow f fun _ a _ => ⟨if f.isNan a then f.nan else a % 2 ^ (f.ebits + f.frac), 0⟩⟩,
   ⟨ng, false, false, false, .t2, constF f, floatRow f fun _ a _ => ⟨if f.isNan a then f.nan else a ^^^ f.sign true, 0⟩⟩]

/-- Major 0x09 (R281). -/
def floatRows : List LaneRow :=
  floatRowsOf .f32 .addF32 .subF32 .mulF32 .minF32 .maxF32 .absF32 .negF32 ++ floatRowsOf .f16 .addF16 .subF16 .mulF16 .minF16 .maxF16 .absF16 .negF16 ++
    floatRowsOf .bf16 .addBf16 .subBf16 .mulBf16 .minBf16 .maxBf16 .absBf16 .negBf16

/-- A widening conversion from element p (R292). -/
noncomputable def widenRow (i : CvtWord → Instr) (f : FloatFmt) (p : BitVec 2) : LaneRow :=
  ⟨fun v => i ⟨p, v⟩, false, false, false, .t3, (if f.width = 16 then const16 else const8), fun _ _ a _ => (BitVec.ofNat 32 ((f.val (elem f.width p.toNat a)).to .f32 .rne).bits, 0)⟩

/-- The conversions of major 0x0E that write whole lanes (R201, R291, R292, R294). -/
noncomputable def conversionRows : List LaneRow :=
  [widenRow .cvtF32F16 .f16 0, widenRow .cvtF32F16 .f16 1, widenRow .cvtF32Bf16 .bf16 0, widenRow .cvtF32Bf16 .bf16 1,
   widenRow .cvtF32F8e4 .f8e4 0, widenRow .cvtF32F8e4 .f8e4 1, widenRow .cvtF32F8e4 .f8e4 2, widenRow .cvtF32F8e4 .f8e4 3,
   widenRow .cvtF32F8e5 .f8e5 0, widenRow .cvtF32F8e5 .f8e5 1, widenRow .cvtF32F8e5 .f8e5 2, widenRow .cvtF32F8e5 .f8e5 3,
   ⟨.cvtF32I32, false, true, false, .t3, const32, fun _ r a _ => let x := roundExact .f32 r a.toInt 0 false; (BitVec.ofNat 32 x.bits, x.flags)⟩,
   ⟨.cvtF32N32, false, true, false, .t3, const32, fun _ r a _ => let x := roundExact .f32 r a.toNat 0 false; (BitVec.ofNat 32 x.bits, x.flags)⟩,
   ⟨.cvtI32F32, false, true, false, .t3, const32, fun _ r a _ => let x := toIntRes r (-2 ^ 31) (2 ^ 31 - 1) (FloatFmt.f32.val a.toNat); (BitVec.ofInt 32 x.1, x.2)⟩,
   ⟨.cvtN32F32, false, true, false, .t3, const32, fun _ r a _ => let x := toIntRes r 0 (2 ^ 32 - 1) (FloatFmt.f32.val a.toNat); (BitVec.ofInt 32 x.1, x.2)⟩,
   ⟨.packI16I32, true, false, true, .t3, const32, fun sat _ a b => packElems 16 [narrowInt 16 sat a.toInt, narrowInt 16 sat b.toInt]⟩,
   ⟨.packI8I16, true, false, true, .t3, const16, fun sat _ a b =>
      let n := fun (v : Word) (i : Nat) => narrowInt 8 sat (elInt 16 true (elem 16 i v))
      packElems 8 [n a 0, n a 1, n b 0, n b 1]⟩,
   ⟨.cvtHq4F32, true, false, false, .t3, const32, fun _ _ a b => let x := hq4Quant (FloatFmt.f32.val a.toNat) (FloatFmt.f32.val b.toNat); (BitVec.ofNat 32 x.1, x.2)⟩]

/-- A row completes with its results in the active lanes of D, or takes the flag trap of the lowest enabled flag. -/
def laneRowCompletes (row : LaneRow) : Prop :=
  ∀ (f : MRWord) (s : State) (c : Ctx) (r : Rnd) (b : Operand) (m : SrcMod), MayRun s c → onCore c f.d = true → laneSrc c f.a = true →
    f.tail = .src r b m → rndGood row.dirs r → (row.two = true → laneSrc c b = true ∧ modGood m b) → (row.two = false → m = ⟨.none, 0, 0⟩) →
    (f.sat = true → row.sat = true) →
    let act := activeLanes s c f.mask
    let av := vval s c row.konst 1 f.a
    let bv := modified m (vval s c row.konst 2 b)
    let res := fun (l : Nat) => row.op f.sat (roundingOf r) (lane av l) (lane bv l)
    let fl := flagsOf act fun l => (res l).2
    (quietly c fl → exec (row.instr f) s = .next (complete s c (wrLanes f.d act (ofLanes fun l => (res l).1)) fl (classUnder m row.cls))) ∧
    (∀ i, flagTraps c fl i → exec (row.instr f) s = trapsWith s c (BitVec.ofNat 8 (0x30 + i)))

end Sys2Proof.Claim

/-- Integer vector words complete with the result of R277 in the active lanes (R188, R222, R224, R275, R277, R278, R279). -/
def Obligations.IntegerLaneResults : Prop :=
  ∀ row ∈ integerRows, laneRowCompletes row

/-- Float vector words and whole-lane conversions complete with the once-rounded result (R188, R199, R201, R281, R282, R291, R292, R294). -/
def Obligations.FloatAndConversionLaneResults : Prop :=
  (∀ row ∈ floatRows, laneRowCompletes row) ∧
  (∀ row ∈ conversionRows, laneRowCompletes row)

namespace Sys2Proof.Claim

/-- The rows of R283: the format, and whether the product and the addend are negated. -/
def fmaRows : List ((FmaWord → Instr) × FloatFmt × Bool × Bool) :=
  [(.fmaF32, .f32, false, false), (.fmsF32, .f32, false, true), (.fnmaF32, .f32, true, false), (.fnmsF32, .f32, true, true), (.fmaF16, .f16, false, false),
   (.fmaBf16, .bf16, false, false)]

/-- The value with its sign inverted where n holds. -/
def signed (n : Bool) (v : FVal) : FVal := if n then v.flip else v

/-- FN[56:55] (R283). -/
def fmaRounding (r : BitVec 2) : RMode := if r = 0 then .rne else if r = 1 then .rtz else if r = 2 then .rdn else .rup

/-- The immediates of R280, and whether the row shifts. -/
def laneImmediateRows : List ((IWord → Instr) × Bool × (Word → Word → Int)) :=
  [(.addiI32, false, fun a i => a.toNat + i.toNat), (.andiB32, false, fun a i => (a &&& i).toNat), (.oriB32, false, fun a i => (a ||| i).toNat),
   (.xoriB32, false, fun a i => (a ^^^ i).toNat), (.shliB32, true, fun a i => a.toNat * 2 ^ i.toNat), (.shriN32, true, fun a i => a.toNat / 2 ^ i.toNat),
   (.shriI32, true, fun a i => a.toInt / 2 ^ i.toNat), (.moviB32, false, fun _ i => i.toNat)]

/-- FP32 values as they are ordered, NaN apart (R198): minus infinity and plus infinity beyond every finite value, both zeros equal. -/
def f32Order (a : Word) : Int := FloatFmt.f32.cmpKey a.toNat

/-- An FP32 NaN. -/
def nan32? (a : Word) : Bool := a.extractLsb' 23 8 == 0xFF#8 && a.extractLsb' 0 23 != 0

/-- The compares of R284. -/
def laneCompareRows : List ((MRWord → Instr) × (BitVec 7 → Word) × (Word → Word → Bool)) :=
  [(.cmpEqI32, const32, fun a b => decide (a = b)), (.cmpNeI32, const32, fun a b => decide (a ≠ b)), (.cmpLtI32, const32, fun a b => decide (a.toInt < b.toInt)),
   (.cmpLeI32, const32, fun a b => decide (a.toInt ≤ b.toInt)), (.cmpLtN32, const32, fun a b => decide (a.toNat < b.toNat)),
   (.cmpLeN32, const32, fun a b => decide (a.toNat ≤ b.toNat)),
   (.cmpEqF32, constF .f32, fun a b => !nan32? a && !nan32? b && decide (f32Order a = f32Order b)),
   (.cmpNeF32, constF .f32, fun a b => nan32? a || nan32? b || decide (f32Order a ≠ f32Order b)),
   (.cmpLtF32, constF .f32, fun a b => !nan32? a && !nan32? b && decide (f32Order a < f32Order b)),
   (.cmpLeF32, constF .f32, fun a b => !nan32? a && !nan32? b && decide (f32Order a ≤ f32Order b)),
   (.cmpUnF32, constF .f32, fun a b => nan32? a || nan32? b)]

/-- Mask logic (R285), and whether B is read. -/
def maskRows : List ((MRWord → Instr) × Bool × (Word → Word → Word)) :=
  [(.kand, true, fun a b => a &&& b), (.kor, true, fun a b => a ||| b), (.kxor, true, fun a b => a ^^^ b), (.kandn, true, fun a b => a &&& ~~~b),
   (.knot, false, fun a _ => ~~~a), (.kfirst, false, fun a _ => a &&& -a)]

/-- Lanes of a mask in ascending order. -/
def inOrder (m : Mask) : List Nat := (List.range 32).filter fun l => m.getLsbD l

/-- The one-source permutes of R287, as relations: the split's mask, the active lanes, A, and the lanes written with their values. -/
def permuteRows : List ((MRWord → Instr) × (Mask → Mask → Lanes → Mask → Lanes → Prop)) :=
  [(.compressB32, fun sm act a w v => (∀ l < 32, w.getLsbD l = true ↔ l ∈ (inOrder sm).take (inOrder act).length) ∧
      ∀ i < (inOrder act).length, ∀ u ∈ (inOrder sm)[i]?, ∀ t ∈ (inOrder act)[i]?, lane v u = lane a t),
   (.expandB32, fun sm act a w v => w = act ∧ ∀ i < (inOrder act).length, ∀ t ∈ (inOrder act)[i]?, ∀ u ∈ (inOrder sm)[i]?, lane v t = lane a u),
   (.matchB32, fun _ act a w v => w = act ∧ ∀ l < 32, act.getLsbD l = true → ∀ m < 32, (lane v l).getLsbD m = (act.getLsbD m && decide (lane a m = lane a l)))]

/-- The reductions of R288: Hold, directed roundings, SAT, whether an s register receives Sext, and the value of the set. -/
noncomputable def reductionRows : List ((MRWord → Instr) × Nat × Bool × Bool × Bool × (Bool → RMode → List Word → Word × Byte)) :=
  [(.redAddI32, 6, false, true, true, fun sat _ => sumI32 sat), (.redAddF32, 8, true, false, false, fun _ r => sumF32 r),
   (.redMinI32, 6, false, false, true, fun _ _ l => (BitVec.ofInt 32 (l.foldl (fun a v => min a v.toInt) (2 ^ 31 - 1)), 0)),
   (.redMaxI32, 6, false, false, true, fun _ _ l => (BitVec.ofInt 32 (l.foldl (fun a v => max a v.toInt) (-2 ^ 31)), 0)),
   (.redMinN32, 6, false, false, false, fun _ _ l => (BitVec.ofNat 32 (l.foldl (fun a v => min a v.toNat) (2 ^ 32 - 1)), 0)),
   (.redMaxN32, 6, false, false, false, fun _ _ l => (BitVec.ofNat 32 (l.foldl (fun a v => max a v.toNat) 0), 0)),
   (.redMinF32, 8, false, false, false, fun _ _ => minmaxF32 false), (.redMaxF32, 8, false, false, false, fun _ _ => minmaxF32 true),
   (.redAndB32, 6, false, false, false, fun _ _ l => (l.foldl (fun a v => a &&& v) 0xFFFFFFFF, 0)),
   (.redOrB32, 6, false, false, false, fun _ _ l => (l.foldl (fun a v => a ||| v) 0, 0)),
   (.redXorB32, 6, false, false, false, fun _ _ l => (l.foldl (fun a v => a ^^^ v) 0, 0))]

/-- The scans of R288: Hold, directed roundings, SAT, and the value of the set. -/
noncomputable def scanRows : List ((MRWord → Instr) × Nat × Bool × Bool × (Bool → RMode → List Word → Word × Byte)) :=
  [(.scanAddI32, 10, false, true, fun sat _ => sumI32 sat), (.scanAddF32, 16, true, false, fun _ r => sumF32 r),
   (.scanMaxI32, 10, false, false, fun _ _ l => (BitVec.ofInt 32 (l.foldl (fun a v => max a v.toInt) (-2 ^ 31)), 0)),
   (.scanMaxF32, 12, false, false, fun _ _ => minmaxF32 true)]

/-- The group of the word issues nothing further until the word has left E3 (R290). -/
def held (s t : State) (c : Ctx) (n : Nat) : State :=
  t.modGroup c.r.core c.r.crew c.r.gid fun g => { g with holdUntil := (s.core c.r.core).cyc.toNat + 2 + n }

/-- The special functions of R295, and whether they read B. -/
noncomputable def specialRows : List ((MRWord → Instr) × Bool × (FVal → FVal → FRes)) :=
  [(.rcpF32, false, fun a _ => rcpRes a), (.rsqrtF32, false, fun a _ => rsqrtRes a), (.sqrtF32, false, fun a _ => sqrtRes a), (.exp2F32, false, fun a _ => exp2Res a),
   (.log2F32, false, fun a _ => log2Res a), (.sinpiF32, false, fun a _ => sinpiRes a), (.cospiF32, false, fun a _ => cospiRes a), (.tanhF32, false, fun a _ => tanhRes a),
   (.divF32, true, divRes)]

/-- The narrowing conversions of R292. -/
noncomputable def narrowRows : List ((CvtWord → Instr) × FloatFmt) := [(.cvtF16F32, .f16), (.cvtBf16F32, .bf16), (.cvtF8e4F32, .f8e4), (.cvtF8e5F32, .f8e5)]

/-- The contents of a register of lanes, which a narrowing keeps outside its position. -/
def contentsOf (c : Ctx) : Operand → Lanes
  | .m i => c.g.readM i.toNat
  | .o i => c.g.o.getD i.toNat zeroLanes
  | .x i => c.g.x.getD i.toNat zeroLanes
  | _ => zeroLanes

/-- A short operand as a long one (R216). -/
def longOperand : ShortOperand → Operand
  | .m i => .m (i.setWidth 8) | .o i => .o (i.setWidth 8) | .x i => .x (i.setWidth 8) | .s i => .s i

/-- The rows that the short opcodes stand for (R227). -/
def shortRow : Sop → Word → Word → Word × Byte
  | .mov => fun a _ => (a, 0)
  | .addI32 => flagging 32 true (fun a b => a + b) false
  | .subI32 => flagging 32 true (fun a b => a - b) false
  | .andB32 => fun a b => (a &&& b, 0)
  | .orB32 => fun a b => (a ||| b, 0)
  | .xorB32 => fun a b => (a ^^^ b, 0)
  | .shlB32 => fun a b => (a <<< (b.toNat % 32), 0)
  | .shrN32 => fun a b => (a >>> (b.toNat % 32), 0)
  | .shrI32 => fun a b => (a.sshiftRight (b.toNat % 32), 0)
  | .minI32 => fun a b => (BitVec.ofInt 32 (min a.toInt b.toInt), 0)
  | .maxI32 => fun a b => (BitVec.ofInt 32 (max a.toInt b.toInt), 0)
  | .minN32 => fun a b => (BitVec.ofNat 32 (min a.toNat b.toNat), 0)
  | .maxN32 => fun a b => (BitVec.ofNat 32 (max a.toNat b.toNat), 0)
  | .addF32 => fun a b => floatRow .f32 (fun r x y => sumRes .f32 r [FloatFmt.f32.val x, FloatFmt.f32.val y] false) false .rne a b
  | .subF32 => fun a b => floatRow .f32 (fun r x y => sumRes .f32 r [FloatFmt.f32.val x, (FloatFmt.f32.val y).flip] false) false .rne a b
  | .mulF32 => fun a b => floatRow .f32 (fun r x y => mulRes .f32 r (FloatFmt.f32.val x) (FloatFmt.f32.val y)) false .rne a b
  | .minF32 => fun a b => floatRow .f32 (fun _ x y => ⟨FloatFmt.f32.minmax false x y, 0⟩) false .rne a b
  | .maxF32 => fun a b => floatRow .f32 (fun _ x y => ⟨FloatFmt.f32.minmax true x y, 0⟩) false .rne a b
  | .addBf16 => fun a b => floatRow .bf16 (fun r x y => sumRes .bf16 r [FloatFmt.bf16.val x, FloatFmt.bf16.val y] false) false .rne a b
  | .mulBf16 => fun a b => floatRow .bf16 (fun r x y => mulRes .bf16 r (FloatFmt.bf16.val x) (FloatFmt.bf16.val y)) false .rne a b

end Sys2Proof.Claim

/-- Fused multiply-adds round the exact result once (R188, R199, R283). -/
def Obligations.FusedMultiplyAddResults : Prop :=
  ∀ row ∈ fmaRows, ∀ (f : FmaWord) (s : State) (c : Ctx), MayRun s c → onCore c f.d = true → laneSrc c f.a = true → laneSrc c f.b = true → laneSrc c f.c = true →
    modGood f.mod f.b →
    let g := row.2.1
    let av := vval s c (constF g) 1 f.a
    let bv := modified f.mod (vval s c (constF g) 2 f.b)
    let cv := vval s c (constF g) 3 f.c
    let res := fun (l : Nat) => onElems3 g.width (fun x y z =>
      let r := fmaRes g (fmaRounding f.rnd) (signed row.2.2.1 (g.val x)) (g.val y) (signed row.2.2.2 (g.val z))
      (r.bits, r.flags)) (lane av l) (lane bv l) (lane cv l)
    let fl := flagsOf c.sp.mask fun l => (res l).2
    (quietly c fl → exec (row.1 f) s = .next (complete s c (wrLanes f.d c.sp.mask (ofLanes fun l => (res l).1)) fl (classUnder f.mod .t2))) ∧
    (∀ i, flagTraps c fl i → exec (row.1 f) s = trapsWith s c (BitVec.ofNat 8 (0x30 + i)))

/-- Vector compares write a mask register or lanes, and raise no flag (R198, R284). -/
def Obligations.LaneCompareResults : Prop :=
  ∀ row ∈ laneCompareRows, ∀ (f : MRWord) (s : State) (c : Ctx) (b : Operand) (m : SrcMod), MayRun s c → laneSrc c f.a = true → f.tail = .src .rne b m →
    laneSrc c b = true → modGood m b → f.sat = false →
    let act := activeLanes s c f.mask
    let av := vval s c row.2.1 1 f.a
    let bv := modified m (vval s c row.2.1 2 b)
    let hit := fun (l : Nat) => row.2.2 (lane av l) (lane bv l)
    (onCore c f.d = true → exec (row.1 f) s = .next (complete s c (wrLanes f.d act (ofLanes fun l => if hit l then 0xFFFFFFFF else 0)) 0 (classUnder m .t2))) ∧
    (∀ i : BitVec 3, i ≠ 0 → f.d = .k i → ∃ v : Word, exec (row.1 f) s = .next (complete s c [⟨.k i.toNat, BitVec.allOnes 32, .sc (v.setWidth 64), 0xFFFFFFFF⟩] 0 (classUnder m .t2)) ∧
      ∀ l < 32, v.getLsbD l = if act.getLsbD l then hit l else (scalarFile c (.k i.toNat)).getLsbD l) ∧
    (f.d = .k 0 → exec (row.1 f) s = trapsWith s c 0x12)

/-- Integer immediates complete in every lane; mask logic writes all 32 bits of a mask register (R280, R285). -/
def Obligations.LaneImmediatesAndMaskLogic : Prop :=
  (∀ row ∈ laneImmediateRows, ∀ (f : IWord) (s : State) (c : Ctx), MayRun s c → onCore c f.d = true → laneSrc c f.a = true →
    (row.2.1 = true → f.imm.toNat < 32) →
    exec (row.1 f) s = .next (complete s c (wrLanes f.d c.sp.mask (ofLanes fun l => BitVec.ofInt 32 (row.2.2 (lane (vval s c const32 1 f.a) l) f.imm))) 0 .t1)) ∧
  (∀ row ∈ maskRows, ∀ (f : MRWord) (s : State) (c : Ctx) (i j k : BitVec 3), MayRun s c → i ≠ 0 → f.d = .k i → f.a = .k j → f.sat = false → f.mask = 0 →
    f.tail = .src .rne (if row.2.1 then .k k else .m 0) ⟨.none, 0, 0⟩ →
    exec (row.1 f) s = .next (complete s c [⟨.k i.toNat, BitVec.allOnes 32, .sc ((row.2.2 ((sval s c 1 (.k j)).setWidth 32) ((sval s c 2 (.k k)).setWidth 32)).setWidth 64), 0xFFFFFFFF⟩] 0 .t1))

/-- Permutes write the lanes that R287 names (R286, R287). -/
def Obligations.PermuteResults : Prop :=
  ∀ (f : MRWord) (s : State) (c : Ctx) (b : Operand), MayRun s c → onCore c f.d = true → laneSrc c f.a = true → f.tail = .src .rne b ⟨.none, 0, 0⟩ → f.sat = false →
    let act := activeLanes s c f.mask
    let av := vval s c const32 1 f.a
    (∀ row ∈ permuteRows, b = .m 0 → ∃ w v, row.2 c.sp.mask act av w v ∧ exec (row.1 f) s = .next (complete s c (wrLanes f.d w v) 0 .t3)) ∧
    (scalarSrc b = true → (sval s c 2 b).toNat ≤ 31 → ∃ w v, exec (.slideupB32 f) s = .next (complete s c (wrLanes f.d w v) 0 .t3) ∧
      ∀ l < 32, (w.getLsbD l = true ↔ act.getLsbD l = true ∧ (sval s c 2 b).toNat ≤ l) ∧ (w.getLsbD l = true → lane v l = lane av (l - (sval s c 2 b).toNat))) ∧
    (scalarSrc b = true → (sval s c 2 b).toNat ≤ 31 → ∃ w v, exec (.slidednB32 f) s = .next (complete s c (wrLanes f.d w v) 0 .t3) ∧
      ∀ l < 32, (w.getLsbD l = true ↔ act.getLsbD l = true ∧ l + (sval s c 2 b).toNat ≤ 31) ∧ (w.getLsbD l = true → lane v l = lane av (l + (sval s c 2 b).toNat))) ∧
    (scalarSrc b = true → 31 < (sval s c 2 b).toNat → exec (.slideupB32 f) s = trapsWith s c 0x14 ∧ exec (.slidednB32 f) s = trapsWith s c 0x14)

/-- Reductions and scans deliver the value of their set and hold their group (R288, R289, R290). -/
def Obligations.ReductionAndScanResults : Prop :=
  ∀ (f : MRWord) (s : State) (c : Ctx) (r : Rnd), MayRun s c → laneSrc c f.a = true → f.tail = .src r (.m 0) ⟨.none, 0, 0⟩ →
    let act := activeLanes s c f.mask
    let av := vval s c const32 1 f.a
    let set := (inOrder act).map (lane av)
    (∀ row ∈ reductionRows, rndGood row.2.2.1 r → (f.sat = true → row.2.2.2.1 = true) →
      let res := row.2.2.2.2.2 f.sat (roundingOf r) set
      (quietly c res.2 → onCore c f.d = true →
        exec (row.1 f) s = .next (held s (complete s c (wrLanes f.d act (Vector.replicate 32 res.1)) res.2 .t3) c row.2.1)) ∧
      (∀ i, flagTraps c res.2 i → (onCore c f.d = true ∨ ∃ j, f.d = .s j) → exec (row.1 f) s = trapsWith s c (BitVec.ofNat 8 (0x30 + i))) ∧
      (∀ i, quietly c res.2 → f.d = .s i → exec (row.1 f) s = .next (held s (complete s c
        [⟨.s i.toNat, BitVec.allOnes 32, .sc (if row.2.2.2.2.1 then exact64 res.1.toInt else exact64 res.1.toNat), 0xFFFFFFFF⟩] res.2 .t3) c row.2.1))) ∧
    (∀ row ∈ scanRows, rndGood row.2.2.1 r → (f.sat = true → row.2.2.2.1 = true) → onCore c f.d = true →
      let res := fun (l : Nat) => row.2.2.2.2 f.sat (roundingOf r) (((inOrder act).filter fun m => decide (m ≤ l)).map (lane av))
      quietly c (flagsOf act fun l => (res l).2) →
      exec (row.1 f) s = .next (held s (complete s c (wrLanes f.d act (ofLanes fun l => (res l).1)) (flagsOf act fun l => (res l).2) .t3) c row.2.1))

/-- Narrowing conversions replace one element, with error feedback where it is named (R292, R293). -/
def Obligations.NarrowingConversions : Prop :=
  ∀ row ∈ narrowRows, ∀ (f : CvtWord) (s : State) (c : Ctx), MayRun s c → onCore c f.v.d = true → laneSrc c f.v.a = true → f.v.sat = false →
    let g := row.2
    let act := activeLanes s c f.v.mask
    let av := vval s c const32 1 f.v.a
    let old := contentsOf c f.v.d
    let pos : Word := putElem g.width f.p.toNat 0 (2 ^ g.width - 1)
    (∀ r b, f.v.tail = .src r b ⟨.none, 0, 0⟩ → rndGood true r →
      let res := fun (l : Nat) => (FloatFmt.f32.val (lane av l).toNat).to g (roundingOf r)
      quietly c (flagsOf act fun l => (res l).flags) →
      exec (row.1 f) s = .next (complete s c (wrLanes f.v.d act (ofLanes fun l => putElem g.width f.p.toNat (lane old l) (res l).bits) pos) (flagsOf act fun l => (res l).flags) .t3)) ∧
    (∀ i j, f.v.tail = .ef (.m i) (.m j) → onCore c (.m i) = true → onCore c (.m j) = true →
      let rin := vval s c const32 2 (.m i)
      let res := fun (l : Nat) => efRes g (lane av l).toNat (lane rin l).toNat
      quietly c (flagsOf act fun l => (res l).2.2) →
      (f.v.d ≠ .m j → exec (row.1 f) s = .next (complete s c (wrLanes (.m j) act (ofLanes fun l => BitVec.ofNat 32 (res l).2.1) ++
        wrLanes f.v.d act (ofLanes fun l => putElem g.width f.p.toNat (lane old l) (res l).1) pos) (flagsOf act fun l => (res l).2.2) .t3)) ∧
      (f.v.d = .m j → ∃ v, exec (row.1 f) s = .next (complete s c (wrLanes (.m j) act v) (flagsOf act fun l => (res l).2.2) .t3) ∧
        ∀ l < 32, lane v l &&& ~~~pos = BitVec.ofNat 32 (res l).2.1 &&& ~~~pos))

/-- Special functions raise their flags at once and leave an outstanding result (R118, R295, R296). -/
def Obligations.SpecialFunctionResults : Prop :=
  ∀ row ∈ specialRows, ∀ (f : MRWord) (s : State) (c : Ctx) (b : Operand) (m : SrcMod) (i : BitVec 8), MayRun s c → f.d = .m i → onCore c (.m i) = true → laneSrc c f.a = true →
    f.tail = .src .rne b m → (row.2.1 = true → laneSrc c b = true ∧ modGood m b) → (row.2.1 = false → m = ⟨.none, 0, 0⟩) → f.sat = false →
    let act := activeLanes s c f.mask
    let av := vval s c (constF .f32) 1 f.a
    let bv := modified m (vval s c (constF .f32) 2 b)
    let res := fun (l : Nat) => row.2.2 (FloatFmt.f32.val (lane av l).toNat) (FloatFmt.f32.val (lane bv l).toNat)
    let fl := flagsOf act fun l => (res l).flags
    (quietly c fl → ∃ u g p, exec (row.1 f) s = .next u ∧ u.group? c.r.core c.r.crew c.r.gid = some g ∧ g.split? c.r.split = some p ∧ p.pc = c.sp.pc + 1 ∧
      g.flags = c.g.flags ||| fl ∧ g.m = c.g.m ∧
      (act ≠ 0 → ∃ o, g.outs.getLast? = some o ∧ o.id = s.nextId ∧ o.kind = .special ∧ o.lanes = act ∧ o.split = c.r.split ∧
        o.dests = [(.m i.toNat, .vec (ofLanes fun l => BitVec.ofNat 32 (res l).bits))])) ∧
    (∀ j, flagTraps c fl j → exec (row.1 f) s = trapsWith s c (BitVec.ofNat 8 (0x30 + j)))

/-- A pair word performs both operations, each reading before either writes (R117, R188, R227). -/
def Obligations.PairWordResults : Prop :=
  ∀ (f : PairWord) (s : State) (c : Ctx), MayRun s c → onCore c (longOperand f.op1.d) = true → onCore c (longOperand f.op2.d) = true →
    laneSrc c (longOperand f.op1.a) = true → laneSrc c (longOperand f.op1.b) = true → laneSrc c (longOperand f.op2.a) = true → laneSrc c (longOperand f.op2.b) = true →
    let r1 := fun (l : Nat) => shortRow f.op1.op (lane (vval s c const32 1 (longOperand f.op1.a)) l) (lane (vval s c const32 2 (longOperand f.op1.b)) l)
    let r2 := fun (l : Nat) => shortRow f.op2.op (lane (vval s c const32 3 (longOperand f.op2.a)) l) (lane (vval s c const32 4 (longOperand f.op2.b)) l)
    let fl := flagsOf c.sp.mask fun l => (r1 l).2 ||| (r2 l).2
    (quietly c fl → exec (.pairWord f) s = .next (complete s c
      (wrLanes (longOperand f.op1.d) c.sp.mask (ofLanes fun l => (r1 l).1) ++ wrLanes (longOperand f.op2.d) c.sp.mask (ofLanes fun l => (r2 l).1)) fl
      (if f.op1.op.isT2 then .t2 else .t1))) ∧
    (∀ i, flagTraps c fl i → exec (.pairWord f) s = trapsWith s c (BitVec.ofNat 8 (0x30 + i)))

/-! ## Memory words (14) -/

namespace Sys2Proof.Claim

/-- The leaf of capabilities does not mask the words of a space (R255, R256). -/
def unmasked (s : State) (c : Ctx) (sp : Space) : Prop := ∀ b, sp.cap = some b → ((s.part c.crew.part).capmask.getD 2 (BitVec.allOnes 64)).getLsbD b = true

/-- BASE and IDX: per lane from a present M, O or X register or LANE, uniform from an s register, a special or an inline constant (R259; LANE: log 16). -/
def addressOperand (c : Ctx) (o : Operand) : Prop :=
  onCore c o = true ∨ o = .lane ∨ (∃ i, o = .s i) ∨ (∃ x, o = .special x) ∨ ∃ x, o = .const x

/-- An even pair of present M registers (R220). -/
def evenPair (c : Ctx) (i : BitVec 8) : Prop := i.toNat % 2 = 0 ∧ i.toNat + 1 < 32 * c.crew.task.regs

/-- D of a load in its vector form, or in its scalar form with a uniform address (R259, R260). -/
def loadTarget (c : Ctx) (f : MWord) : Prop :=
  (∃ i, f.d = .m i ∧ onCore c (.m i) = true ∧ (f.size = .b64 → evenPair c i)) ∨ ((∃ i, f.d = .s i) ∧ perLane f.base = false ∧ perLane f.idx = false)

/-- D of a store (R259). -/
def storeSource (c : Ctx) (f : MWord) : Prop :=
  (∃ i, f.d = .m i ∧ onCore c (.m i) = true ∧ (f.size = .b64 → evenPair c i)) ∨
    (((∃ i, f.d = .o i) ∨ ∃ i, f.d = .x i) ∧ onCore c f.d = true ∧ f.size ≠ .b64) ∨ scalarSrc f.d = true ∨ f.d = .lane

/-- Bytes of an access: 2^SIZE (R260). -/
def bytesOf (f : MWord) : Nat := match f.size with | .b8 => 1 | .b16 => 2 | .b32 => 4 | .b64 => 8

/-- A byte of the machine that a word can write. -/
inductive Place where
  | dev (pa : Nat)
  | host (pa : Nat)
  | spad (core slot off : Nat)

/-- What a byte holds. -/
def byteIn (s : State) : Place → Byte
  | .dev a => s.mem.get a
  | .host a => s.host.get a
  | .spad core slot off => match s.crew? core slot with | some w => w.spadByte off | none => 0

/-- Which byte of the n at a location a place is. -/
def offsetIn (n : Nat) : Loc → Place → Option Nat
  | .dev a, .dev b => if a ≤ b ∧ b < a + n then some (b - a) else none
  | .host a, .host b => if a ≤ b ∧ b < a + n then some (b - a) else none
  | .spad core slot off, .spad core' slot' b => if core = core' ∧ slot = slot' ∧ off ≤ b ∧ b < off + n then some (b - off) else none
  | _, _ => none

/-- A view of the bytes after n bytes of a value are written at a location, little-endian (R2). -/
def writtenAt (n v : Nat) (l : Loc) (view : Place → Byte) : Place → Byte :=
  fun p => match offsetIn n l p with | some i => BitVec.ofNat 8 (v / 256 ^ i) | none => view p

/-- The place of byte i of a location; what a peer holds is not in this machine. -/
def placeOf (i : Nat) : Loc → Option Place
  | .dev a => some (.dev (a + i))
  | .host a => some (.host (a + i))
  | .spad core slot off => some (.spad core slot (off + i))
  | .peer _ => none
  | .image _ _ => none

/-- The n bytes at a location as a little-endian number (R2). -/
def readThere (n : Nat) (l : Loc) (view : Place → Byte) : Nat :=
  ((List.range n).map fun i => (match placeOf i l with | some p => (view p).toNat | none => 0) * 256 ^ i).sum

/-- Every memory lists its bytes in the canonical form. -/
def canonical (s : State) : Prop := s.mem.wf = true ∧ s.host.wf = true ∧ ∀ core slot w, s.crew? core slot = some w → w.spad.wf = true

/-- No snapshot journals the pages of these locations (R158). -/
def unjournalled (s : State) (ls : List (Nat × Loc)) : Prop := ∀ x ∈ ls, ∀ a, x.2 = .dev a → s.snapsOf (a / 4096 * 4096) = []

/-- Every register of the group, its flags, CTX, SEQ and record are as before; its split stands at the next word, and one access is outstanding. -/
def goesOnWith (s u : State) (c : Ctx) (o : Out) : Prop :=
  ∃ g p, u.group? c.r.core c.r.crew c.r.gid = some g ∧ g.split? c.r.split = some p ∧ p.pc = c.sp.pc + 1 ∧ p.closed = c.sp.closed ∧ g.m = c.g.m ∧ g.o = c.g.o ∧
    g.x = c.g.x ∧ g.s = c.g.s ∧ g.k = c.g.k ∧ g.seq = c.g.seq ∧ g.flags = c.g.flags ∧ g.ctx = c.g.ctx ∧ g.frec = c.g.frec ∧ g.outs = c.g.outs ++ [o] ∧
    o.id = s.nextId ∧ o.split = c.r.split

/-- The loads of R258, with their spaces. -/
noncomputable def loadRows : List ((MWord → Instr) × Space) := [(.lds, .spad), (.ldc, .cluster), (.ldd, .dev), (.ldp, .peer), (.ldh, .host), (.ldk, .const)]

/-- The stores of R258, with their spaces. -/
noncomputable def storeRows : List ((MWord → Instr) × Space) := [(.sts, .spad), (.stc, .cluster), (.std, .dev), (.stp, .peer), (.sth, .host)]

/-- What a load's destination receives: Zext of each lane's bytes, a pair for b64, or one number in an s register (R260). -/
def loadedInto (f : MWord) (vs : List (Nat × Nat)) (ds : List (Reg × Val)) : Prop :=
  (∀ i, f.d = .s i → ∀ x ∈ vs.head?, ds = [(.s i.toNat, .sc (exact64 x.2))]) ∧
  (∀ i, f.d = .m i → ∃ lo hi : Lanes,
    ds = (.m i.toNat, .vec lo) :: (if f.size = .b64 then [(.m (i.toNat + 1), .vec hi)] else []) ∧
    ∀ x ∈ vs, x.1 < 32 → (lane lo x.1).toNat = x.2 % 2 ^ 32 ∧ (lane hi x.1).toNat = x.2 / 2 ^ 32)

/-- The number that a lane stores (R260). -/
def storedBy (s : State) (c : Ctx) (f : MWord) (l : Nat) : Nat :=
  match f.d with
  | .m i =>
    if f.size = .b64 then (lane (readLanes s c 0 (.m (i.toNat + 1))) l).toNat * 2 ^ 32 + (lane (readLanes s c 0 (.m i.toNat)) l).toNat
    else (lane (readLanes s c 0 (.m i.toNat)) l).toNat
  | .o _ => (lane (vval s c const32 0 f.d) l).toNat
  | .x _ => (lane (vval s c const32 0 f.d) l).toNat
  | .lane => l
  | d => (sval s c 0 d).toNat

/-- The bytes after every access of a store, in ascending lane order (R260, R261). -/
def storedView (s : State) (c : Ctx) (f : MWord) : List (Nat × Loc) → (Place → Byte) → Place → Byte
  | [], view => view
  | (l, x) :: t, view => storedView s c f t (writtenAt (bytesOf f) (storedBy s c f l) x view)

end Sys2Proof.Claim

/-- Loads complete, and their outstanding result holds the bytes of each lane (R258, R259, R260, R262). -/
def Obligations.LoadsComplete : Prop :=
  ∀ row ∈ loadRows, ∀ (f : MWord) (s : State) (c : Ctx) (ls : List (Nat × Loc)), MayRun s c → unmasked s c row.2 → addressOperand c f.base → addressOperand c f.idx →
    loadTarget c f → accessWaits c false false (f.ord == .acq) = [] →
    checkLanes s c row.2 (bytesOf f) false (memAddrs s c f (isScalar f.d)) = .ok ls → (∀ x ∈ ls, poisonedAt s (bytesOf f) x.2 = false) →
    let s0 := hostBefores s c.crew.part (bytesOf f) ls
    ∃ u o, exec (row.1 f) s = .next u ∧ goesOnWith s u c o ∧ o.kind = .load ∧ o.lanes = (if isScalar f.d then BitVec.allOnes 32 else c.sp.mask) ∧
      (∀ p, byteIn u p = byteIn s0 p) ∧ o.addrs = memAddrs s c f (isScalar f.d) ∧
      (row.2 ≠ .peer → row.2 ≠ .const → o.far = none ∧ loadedInto f (ls.map fun x => (x.1, readThere (bytesOf f) x.2 (byteIn s0))) o.dests) ∧
      (row.2 = .const → (s.core c.r.core).kcache = [] → (s.cluster (clusterOf c.r.core)).tlb = [] →
        o.far = none ∧ loadedInto f (ls.map fun x => (x.1, readThere (bytesOf f) x.2 (byteIn s0))) o.dests) ∧
      (row.2 = .peer → ls ≠ [] → o.far ≠ none)

/-- Stores complete: each lane writes its bytes, later lanes last, and no other byte (R258, R259, R260, R261, R262, R266). The model's reading here: when a host store's bytes are written (log 83, DEDUCED). -/
def Obligations.StoresComplete : Prop :=
  ∀ row ∈ storeRows, ∀ (f : MWord) (s : State) (c : Ctx) (ls : List (Nat × Loc)), MayRun s c → unmasked s c row.2 → addressOperand c f.base → addressOperand c f.idx →
    storeSource c f → accessWaits c true (f.ord == .rel) false = [] → canonical s →
    checkLanes s c row.2 (bytesOf f) true (memAddrs s c f false) = .ok ls → unjournalled s ls →
    ∃ u o, exec (row.1 f) s = .next u ∧ goesOnWith s u c o ∧ o.kind = .store ∧ o.lanes = c.sp.mask ∧ o.dests = [] ∧
      (row.2 ≠ .host → ∀ p, byteIn u p = storedView s c f ls (byteIn s) p) ∧
      (row.2 = .host →
        let s0 := hostBefores s c.crew.part (bytesOf f) ls
        o.far = some .host ∧ (∀ p, byteIn u p = byteIn s0 p) ∧
        (c.g.outs = [] → c.g.heldTraps = [] → c.crew.killed = false → (∀ x ∈ s.hostRmw, x.id ≠ s.nextId) →
          (∀ x ∈ s.allCrews, ∀ g ∈ x.2.groups, ∀ y ∈ g.outs, y.host = true → s.nextId ≤ y.id) →
          ∃ v, exec (.storeAcknowledge c.r s.nextId (.ok [])) u = .next v ∧ ∀ p, byteIn v p = storedView s c f ls (byteIn s0) p))

/-- The lowest faulting lane of a load or store traps, with the code of its space (R139, R140, R146, R263). -/
def Obligations.MemoryAddressFaults : Prop :=
  (∀ row ∈ loadRows, ∀ (f : MWord) (s : State) (c : Ctx) (code : Byte) (l : Nat) (a : Dword), MayRun s c → unmasked s c row.2 → addressOperand c f.base →
    addressOperand c f.idx → loadTarget c f → accessWaits c false false (f.ord == .acq) = [] →
    ∀ before after, memAddrs s c f (isScalar f.d) = before ++ (l, a) :: after → (∀ x ∈ before, ∃ k, checkLane s c row.2 (bytesOf f) false x.2 = .ok k) →
    checkLane s c row.2 (bytesOf f) false a = .err code → exec (row.1 f) s = .next (takeTrap s c.r.core c.r.crew c.r.gid c.r.split code l a)) ∧
  (∀ row ∈ storeRows, ∀ (f : MWord) (s : State) (c : Ctx) (code : Byte) (l : Nat) (a : Dword), MayRun s c → unmasked s c row.2 → addressOperand c f.base →
    addressOperand c f.idx → storeSource c f → accessWaits c true (f.ord == .rel) false = [] →
    ∀ before after, memAddrs s c f false = before ++ (l, a) :: after → (∀ x ∈ before, ∃ k, checkLane s c row.2 (bytesOf f) true x.2 = .ok k) →
    checkLane s c row.2 (bytesOf f) true a = .err code → exec (row.1 f) s = .next (takeTrap s c.r.core c.r.crew c.r.gid c.r.split code l a)) ∧
  (∀ (s : State) (c : Ctx) (n : Nat) (wr : Bool) (a : Dword), n = 1 ∨ n = 2 ∨ n = 4 ∨ n = 8 →
    ((2 ^ 19 ≤ a.toNat ∨ c.crew.task.spad * 1024 ≤ a.toNat) → checkLane s c .spad n wr a = .err 0x43) ∧
    (a.toNat < 2 ^ 19 → a.toNat < c.crew.task.spad * 1024 → a.toNat % n ≠ 0 → checkLane s c .spad n wr a = .err 0x42) ∧
    (a.toNat < 2 ^ 19 → a.toNat < c.crew.task.spad * 1024 → a.toNat % n = 0 → 2 ≤ c.crew.task.spad → c.crew.task.spad * 1024 ≤ a.toNat + 2048 →
      checkLane s c .spad n wr a = .err 0x41) ∧
    (2 ^ 27 ≤ a.toNat → checkLane s c .cluster n wr a = .err 0x4B) ∧ (a.toNat < 2 ^ 27 → a.toNat % n ≠ 0 → checkLane s c .cluster n wr a = .err 0x4A) ∧
    (2 ^ 57 ≤ a.toNat → checkLane s c .dev n wr a = .err 0x53 ∧ checkLane s c .const n wr a = .err 0x6B ∧ checkLane s c .host n wr a = .err 0x63) ∧
    (a.toNat < 2 ^ 57 → a.toNat % n ≠ 0 → checkLane s c .dev n wr a = .err 0x52 ∧ checkLane s c .const n wr a = .err 0x6A ∧ checkLane s c .host n wr a = .err 0x62) ∧
    ((2 ^ 62 ≤ a.toNat ∨ 23 < a.toNat / 2 ^ 57 % 32) → checkLane s c .peer n wr a = .err 0x5B) ∧
    (a.toNat < 2 ^ 62 → a.toNat / 2 ^ 57 % 32 ≤ 23 → a.toNat % n ≠ 0 → checkLane s c .peer n wr a = .err 0x5A) ∧
    (a.toNat < 2 ^ 62 → a.toNat / 2 ^ 57 % 32 ≤ 23 → a.toNat % n = 0 →
      let port := a.toNat / 2 ^ 57 % 32
      let open_ := portFence s port = some (fenceOf s c.crew.part) ∧ xRoute s (dieOf c.r.core) (port / 12) = true
      (¬open_ → checkLane s c .peer n wr a = .err 0x5E) ∧ (open_ → (s.port port).down = true → checkLane s c .peer n wr a = .err 0x5F)))

namespace Sys2Proof.Claim

/-- The operations of R267 on N-bit numbers m (old), b and c, in the order of FN. -/
def atomEffects : List (Nat → Nat → Nat → Nat → Nat) :=
  [fun w m b _ => (m + b) % 2 ^ w, fun _ m b _ => m &&& b, fun _ m b _ => m ||| b, fun _ m b _ => m ^^^ b,
   fun w m b _ => if (BitVec.ofNat w b).toInt < (BitVec.ofNat w m).toInt then b else m, fun w m b _ => if (BitVec.ofNat w m).toInt < (BitVec.ofNat w b).toInt then b else m,
   fun _ m b _ => min m b, fun _ m b _ => max m b, fun _ _ b _ => b, fun _ m b c => if m = b then c else m,
   fun _ m b _ => (sumRes .f32 .rne [FloatFmt.f32.val m, FloatFmt.f32.val b] false).bits]

/-- The atomics of R267 by space, in the order of FN. -/
noncomputable def atomInstrs : Space → List (AWord → Instr)
  | .spad => [.atsAdd, .atsAnd, .atsOr, .atsXor, .atsSmin, .atsSmax, .atsUmin, .atsUmax, .atsExch, .atsCas, .atsFadd]
  | .cluster => [.atcAdd, .atcAnd, .atcOr, .atcXor, .atcSmin, .atcSmax, .atcUmin, .atcUmax, .atcExch, .atcCas, .atcFadd]
  | .dev => [.atdAdd, .atdAnd, .atdOr, .atdXor, .atdSmin, .atdSmax, .atdUmin, .atdUmax, .atdExch, .atdCas, .atdFadd]
  | .peer => [.atrPAdd, .atrPAnd, .atrPOr, .atrPXor, .atrPSmin, .atrPSmax, .atrPUmin, .atrPUmax, .atrPExch, .atrPCas, .atrPFadd]
  | .host => [.atrHAdd, .atrHAnd, .atrHOr, .atrHXor, .atrHSmin, .atrHSmax, .atrHUmin, .atrHUmax, .atrHExch, .atrHCas, .atrHFadd]
  | .const => []

/-- B or C of an atomic: uniform, or per lane from a present register, an even pair for b64 (R268). -/
def atomOperand (c : Ctx) (wide : Bool) (o : Operand) : Prop :=
  scalarSrc o = true ∨ (∃ i, o = .m i ∧ onCore c o = true ∧ (wide = true → evenPair c i)) ∨ (((∃ i, o = .o i) ∨ ∃ i, o = .x i) ∧ onCore c o = true ∧ wide = false)

/-- The operands that R268 allows, for cas or another operation. -/
def atomGood (c : Ctx) (sp : Space) (f : AWord) (cas : Bool) : Prop :=
  atomOperand c (sp != .spad && sp != .cluster) f.a ∧ atomOperand c (f.asz == 3) f.b ∧ (cas = true → atomOperand c (f.asz == 3) f.c) ∧
    ((∃ i, f.d = .m i ∧ onCore c (.m i) = true ∧ (f.asz = 3 → evenPair c i)) ∨
      ((∃ i, f.d = .s i) ∧ scalarSrc f.a = true ∧ scalarSrc f.b = true ∧ (cas = true → scalarSrc f.c = true)))

/-- B or C as the lanes read it, N bits (R268). -/
def atomIn (s : State) (c : Ctx) (pos : Nat) (wide : Bool) (o : Operand) (l : Nat) : Nat :=
  match o with
  | .m i =>
    if wide then (lane (readLanes s c pos (.m (i.toNat + 1))) l).toNat * 2 ^ 32 + (lane (readLanes s c pos (.m i.toNat)) l).toNat
    else (lane (readLanes s c pos (.m i.toNat)) l).toNat
  | .o _ => (lane (vval s c const32 pos o) l).toNat
  | .x _ => (lane (vval s c const32 pos o) l).toNat
  | o => (sval s c pos o).toNat % 2 ^ (if wide then 64 else 32)

/-- The lanes of an atomic in ascending order, each reading and writing its location: the bytes after, and the old values (R269). -/
def inTurn (n : Nat) (b cc : Nat → Nat) (op : Nat → Nat → Nat → Nat) :
    List (Nat × Loc) → (Place → Byte) → (Place → Byte) × List (Nat × Nat)
  | [], view => (view, [])
  | (l, x) :: t, view =>
    let m := readThere n x view
    let r := inTurn n b cc op t (writtenAt n (op m (b l) (cc l)) x view)
    (r.1, (l, m) :: r.2)

/-- What the destination of an atomic receives: the old value, a pair for b64, or one number in an s register (R268). -/
def oldInto (f : AWord) (vs : List (Nat × Nat)) (ds : List (Reg × Val)) : Prop :=
  (∀ i, f.d = .s i → ∀ x ∈ vs.head?, ds = [(.s i.toNat, .sc (exact64 x.2))]) ∧
  (∀ i, f.d = .m i → ∃ lo hi : Lanes,
    ds = (.m i.toNat, .vec lo) :: (if f.asz = 3 then [(.m (i.toNat + 1), .vec hi)] else []) ∧
    ∀ x ∈ vs, x.1 < 32 → (lane lo x.1).toNat = x.2 % 2 ^ 32 ∧ (lane hi x.1).toNat = x.2 / 2 ^ 32)

end Sys2Proof.Claim

/-- Atomics read and write each lane in turn, deliver the old value and complete as commits (R267, R268, R269, R270, R271). -/
def Obligations.AtomicsComplete : Prop :=
  ∀ (sp : Space) (n : Nat) (row : AWord → Instr) (op : Nat → Nat → Nat → Nat → Nat) (f : AWord) (s : State) (c : Ctx) (ls : List (Nat × Loc)), MayCommit s c →
    unmasked s c sp → (atomInstrs sp)[n]? = some row → atomEffects[n]? = some op → (f.asz = 2 ∨ (f.asz = 3 ∧ n ≠ 10)) → atomGood c sp f (n == 9) →
    accessWaits c true (f.ord == .rel || f.ord == .ar) (f.ord == .acq || f.ord == .ar) = [] →
    checkLanes s c sp (if f.asz = 3 then 8 else 4) true (atomAddrs s c sp f) = .ok ls →
    (∀ x ∈ ls, poisonedAt s (if f.asz = 3 then 8 else 4) x.2 = false) →
    let bytes := if f.asz = 3 then 8 else 4
    let s0 := hostBefores s c.crew.part bytes ls
    let done := inTurn bytes (atomIn s c 2 (f.asz == 3) f.b) (atomIn s c 3 (f.asz == 3) f.c) (op (8 * bytes)) ls (byteIn s0)
    (sp ≠ .peer → sp ≠ .host → canonical s → unjournalled s ls → (n = 0 → deviceScope f = true → ∀ x ∈ ls, ∀ a, x.2 = .dev a → cellAt? s a bytes = none) →
      ∃ u g p o, exec (row f) s = .next u ∧ u.group? c.r.core c.r.crew c.r.gid = some g ∧ g.split? c.r.split = some p ∧ p.pc = c.sp.pc + 1 ∧ p.closed = true ∧
        g.seq = c.g.seq + 1 ∧ g.flags = c.g.flags ∧ g.m = c.g.m ∧ g.s = c.g.s ∧ g.k = c.g.k ∧ g.o = c.g.o ∧ g.x = c.g.x ∧ g.outs = c.g.outs ++ [o] ∧
        o.kind = .atomic ∧ o.far = none ∧ o.lanes = (if isScalar f.d then BitVec.allOnes 32 else c.sp.mask) ∧ oldInto f done.2 o.dests ∧
        ∀ q, byteIn u q = done.1 q) ∧
    (sp = .host → canonical s → c.g.outs = [] → (∀ x ∈ s.hostRmw, x.id ≠ s.nextId) →
      ∃ u v g h p q o, exec (row f) s = .next u ∧ u.group? c.r.core c.r.crew c.r.gid = some g ∧ g.split? c.r.split = some p ∧ p.pc = c.sp.pc ∧ g.seq = c.g.seq ∧
        p.parked = some (.release [s.nextId]) ∧ g.outs = [o] ∧ oldInto f done.2 o.dests ∧ (∀ x, byteIn u x = byteIn s0 x) ∧
        exec (.resultReturn c.r s.nextId (.ok [])) u = .next v ∧ v.group? c.r.core c.r.crew c.r.gid = some h ∧ h.split? c.r.split = some q ∧
        q.pc = c.sp.pc + 1 ∧ q.closed = true ∧ q.parked = none ∧ h.seq = c.g.seq + 1 ∧ h.flags = c.g.flags ∧ h.outs = [] ∧ h.k = c.g.k ∧
        (∀ i, f.d = .s i → ∀ x ∈ done.2.head?, h.s.getD i.toNat 0 = exact64 x.2) ∧ ∀ x, byteIn v x = done.1 x) ∧
    (sp = .peer → ls ≠ [] → c.g.outs = [] → ∀ data : List Dword, data.length = ls.length →
      ∃ u g p, exec (row f) s = .next u ∧ u.group? c.r.core c.r.crew c.r.gid = some g ∧ g.split? c.r.split = some p ∧ p.pc = c.sp.pc ∧ g.seq = c.g.seq ∧
        p.parked = some (.release [s.nextId]) ∧
        ∀ ps : SMap Port, (∀ i, s.nextId ∉ (ps.get i Port.reset).reqs ∧ s.nextId ∉ (ps.get i Port.reset).await ∧ ∀ e ∈ (ps.get i Port.reset).bulk, e.1 ≠ s.nextId) →
          ∃ v h q, exec (.resultReturn c.r s.nextId (.ok data)) { u with ports := ps } = .next v ∧ v.group? c.r.core c.r.crew c.r.gid = some h ∧
            h.split? c.r.split = some q ∧ q.pc = c.sp.pc + 1 ∧ q.closed = true ∧ q.parked = none ∧ h.seq = c.g.seq + 1 ∧ h.flags = c.g.flags ∧ h.outs = [] ∧
            h.k = c.g.k ∧ (∀ i, f.d = .s i → ∀ d ∈ data.head?, h.s.getD i.toNat 0 = exact64 (d.toNat % 2 ^ (8 * bytes))))

/-- Fences complete where nothing they await is outstanding, and park where something is (R165, R170, R171, R273). -/
def Obligations.FencesComplete : Prop :=
  ∀ (s : State) (c : Ctx) (f : FenceWord), MayRun s c →
    let of := fun (p : OutKind → Bool) => (c.g.outs.filter fun o => (o.split == c.sp.num || c.sp.past.contains o.id) && p o.kind).map (·.id)
    let goesOn := (Host.Outcome.next (complete s c [] 0 .t1) : Out3)
    let dropped := fun (t : State) => t.modCore c.r.core fun k => { k with icache := [], kcache := [] }
    let goesX := fun (x : XfenceWord) => (Host.Outcome.next (if x.b = .instr then dropped (complete s c [] 0 .t1) else complete s c [] 0 .t1) : Out3)
    let parks := fun (q : Park) => (Host.Outcome.next (s.modSplit c.r fun p => { p with parked := some q }) : Out3)
    (of (fun k => k == .load || k == .atomic) = [] → exec (.fenceAcq f) s = goesOn) ∧
    (spared s c → of (fun k => k == .load || k == .atomic) ≠ [] → exec (.fenceAcq f) s = parks (.access (of fun k => k == .load || k == .atomic))) ∧
    (of (fun k => k != .special && k != .mx) = [] → exec (.fenceAr f) s = goesOn ∧ exec (.fenceTot f) s = goesOn) ∧
    (spared s c → of (fun k => k != .special && k != .mx) ≠ [] → exec (.fenceAr f) s = parks (.access (of fun k => k != .special && k != .mx)) ∧
      exec (.fenceTot f) s = parks (.access (of fun k => k != .special && k != .mx))) ∧
    (∃ u p, exec (.fenceRel f) s = .next u ∧ splitIn u c = some p ∧ p.pc = c.sp.pc + 1 ∧ p.relIds = c.sp.relIds ++ of (fun k => k != .special && k != .mx) ∧ p.parked = none) ∧
    (∀ w, exec (.fenceI w) s = .next (dropped (complete s c [] 0 .t1))) ∧
    (∀ x : XfenceWord, (x.a = .cp ∨ x.a = .instr) → exec (.xfence x) s = goesX x) ∧
    (∀ x : XfenceWord, x.a = .ls → of (fun k => k != .special && k != .mx) = [] → exec (.xfence x) s = goesX x) ∧
    (∀ x : XfenceWord, spared s c → x.a = .ls → of (fun k => k != .special && k != .mx) ≠ [] → exec (.xfence x) s = parks (.access (of fun k => k != .special && k != .mx))) ∧
    (∀ x : XfenceWord, x.a = .mx → (∀ t ∈ (s.core c.r.core).tun, ¬(t.crew = c.r.crew ∧ t.gid = c.r.gid ∧ (t.split = c.sp.num ∨ t.id ∈ c.sp.tunPast))) →
      exec (.xfence x) s = goesX x) ∧
    (∀ x : XfenceWord, spared s c → x.a = .mx → ∀ t ∈ (s.core c.r.core).tun, t.crew = c.r.crew → t.gid = c.r.gid → (t.split = c.sp.num ∨ t.id ∈ c.sp.tunPast) →
      ∃ n, t.id < n ∧ exec (.xfence x) s = parks (.tun n)) ∧
    (∀ row ∈ storeRows, ∀ m : MWord, spared s c → unmasked s c row.2 → addressOperand c m.base → addressOperand c m.idx → storeSource c m →
      ∀ i ∈ c.sp.relIds, (∃ o ∈ c.g.outs, o.id = i) →
        ∃ u p ids, exec (row.1 m) s = .next u ∧ splitIn u c = some p ∧ p.pc = c.sp.pc ∧ p.parked = some (.release ids) ∧ i ∈ ids ∧ ∀ q, byteIn u q = byteIn s q)

/-! ## Synchronisation, copy, task and matrix words (16, 17) -/

namespace Sys2Proof.Claim

/-- An operand that a word reads as a value: an s register, a special or an inline constant (R217). -/
def valueOperand (o : Operand) : Prop := (∃ i, o = .s i) ∨ (∃ x, o = .special x) ∨ ∃ x, o = .const x

/-- The word has completed as a commit: SEQ gains 1, the strand is closed, the split stands at the next word; the specials and flags are as before. -/
def committed (u : State) (c : Ctx) (g : Group) (p : Split) : Prop :=
  u.group? c.r.core c.r.crew c.r.gid = some g ∧ g.split? c.r.split = some p ∧ p.pc = c.sp.pc + 1 ∧ p.closed = true ∧ p.mask = c.sp.mask ∧ g.seq = c.g.seq + 1 ∧
    g.flags = c.g.flags ∧ g.ctx = c.g.ctx ∧ g.frec = c.g.frec ∧ g.m = c.g.m ∧ g.k = c.g.k ∧ g.o = c.g.o ∧ g.x = c.g.x ∧ g.handler = none

/-- s register i holds v, and every other one is as before. -/
def onlyS (c : Ctx) (g : Group) (i : BitVec 6) (v : Dword) : Prop := ∀ j < 64, g.s.getD j 0 = if j = i.toNat then v else c.g.s.getD j 0

/-- The phase that b's next arrival of the group belongs to, and the state of the barrier (R320). -/
def phaseOf (c : Ctx) (b : Nat) : Nat := c.g.arrived.getD b 0
def barrierOf (w : Crew) (b : Nat) : Barrier := w.bars.getD b ⟨0, [], none⟩

/-- Groups that count at a phase when these have arrived: they and the ended groups that have not (R320). -/
def countedAt (w : Crew) (arr : List Nat) : Nat := arr.length + (w.groups.filter fun g => !g.live && !arr.contains g.gid).length

end Sys2Proof.Claim

/-- bar.arr and bar.hold arrive at their phase, complete it, wait for it, or trap (R320, R321). -/
def Obligations.BarrierArrivals : Prop :=
  ∀ (f : RWord) (s : State) (c : Ctx) (i : BitVec 6) (hold : Bool), MayCommit s c → (hold = false → f.d = .s i) → valueOperand f.a → valueOperand f.b →
    let word : Instr := if hold then .barHold f else .barArr f
    let b := (sval s c 1 f.a).toNat
    let n := if (sval s c 2 f.b) = 0 then c.crew.n else (sval s c 2 f.b).toNat
    let p := phaseOf c b
    (7 < b → exec word s = trapsWith s c 0x80) ∧
    (b ≤ 7 → c.crew.n < n → exec word s = trapsWith s c 0x81) ∧
    (b ≤ 7 → n ≤ c.crew.n → spared s c → accessWaits c true true false ≠ [] →
      exec word s = .next (s.modSplit c.r fun q => { q with parked := some (.release (accessWaits c true true false)) })) ∧
    (b ≤ 7 → n ≤ c.crew.n → spared s c → accessWaits c true true false = [] → (barrierOf c.crew b).bph ≠ BitVec.ofNat 64 p →
      exec word s = .next (s.modSplit c.r fun q => { q with parked := some (.phase b (BitVec.ofNat 64 p)) })) ∧
    (b ≤ 7 → n ≤ c.crew.n → spared s c → accessWaits c true true false = [] → (barrierOf c.crew b).bph = BitVec.ofNat 64 p → (∃ k, (barrierOf c.crew b).count = some k ∧ k ≠ n) →
      exec word s = trapsWith s c 0x81) ∧
    (b ≤ 7 → n ≤ c.crew.n → spared s c → accessWaits c true true false = [] → (barrierOf c.crew b).bph = BitVec.ofNat 64 p → (∀ k, (barrierOf c.crew b).count = some k → k = n) →
      ∃ u w g q, exec word s = .next u ∧ u.crew? c.r.core c.r.crew = some w ∧ committed u c g q ∧ g.arrived.getD b 0 = p + 1 ∧
        (hold = false → onlyS c g i (BitVec.ofNat 64 (p + 1)) ∧ q.barWait = none) ∧
        (hold = true → g.s = c.g.s ∧ q.barWait = some (b, BitVec.ofNat 64 (p + 1))) ∧
        (n ≤ countedAt c.crew ((barrierOf c.crew b).arr ++ [c.r.gid]) → barrierOf w b = ⟨(barrierOf c.crew b).bph + 1, [], none⟩) ∧
        (countedAt c.crew ((barrierOf c.crew b).arr ++ [c.r.gid]) < n →
          barrierOf w b = ⟨(barrierOf c.crew b).bph, (barrierOf c.crew b).arr ++ [c.r.gid], some n⟩))

namespace Sys2Proof.Claim

/-- The two words of condition k of a wait at s register a (R322). -/
def condWords (s : State) (c : Ctx) (a k : Nat) : Dword × Dword := (readScalar s c 2 (.s (a + 2 * k)), readScalar s c 2 (.s (a + 2 * k + 1)))

/-- KIND, SP and ARG of a condition word (R322). -/
def condKind (w : Dword) : Nat := w.toNat / 2 ^ 60
def condSp (w : Dword) : Nat := w.toNat / 2 ^ 57 % 8
def condAddr (w : Dword) : Nat := w.toNat % 2 ^ 57

/-- A well-formed condition (R322). -/
def condWell (w : Dword × Dword) : Prop :=
  (condKind w.1 = 1 ∧ (condSp w.1 = 0 ∨ condSp w.1 = 2) ∧ condAddr w.1 % 8 = 0) ∨ (condKind w.1 = 2 ∧ condSp w.1 = 0 ∧ condAddr w.1 ≤ 7) ∨
    (condKind w.1 = 4 ∧ condSp w.1 = 0 ∧ condAddr w.1 < 65536 ∧ w.2 = 0) ∨ (condKind w.1 = 5 ∧ condSp w.1 = 0 ∧ condAddr w.1 = 0)

/-- Where the counter of a condition lies, if it can be read (R322). -/
def counterPlace (s : State) (c : Ctx) (w : Dword) : LaneRes := counterAt s c.r.core c.crew false (condSp w == 2) (condAddr w)

/-- A condition other than that of the paddle holds (R323). -/
def condMet (s : State) (c : Ctx) (w : Dword × Dword) : Prop :=
  (condKind w.1 = 1 ∧ ∃ l, counterPlace s c w.1 = .ok l ∧ w.2.toNat ≤ readThere 8 l (byteIn s)) ∨
    (condKind w.1 = 2 ∧ w.2.toNat ≤ (barrierOf c.crew (condAddr w.1)).bph.toNat) ∨
    (condKind w.1 = 4 ∧ s.cancelledOn c.crew.part (dieOf c.r.core) 15 (condAddr w.1) = true) ∨
    (condKind w.1 = 5 ∧ w.2.toNat ≤ (s.timeOf (dieOf c.r.core)).toNat)

/-- The word of a group goes on with its split waiting, or with its status under way (R323). -/
def afterWait (u : State) (c : Ctx) (g : Group) (p : Split) : Prop :=
  u.group? c.r.core c.r.crew c.r.gid = some g ∧ g.split? c.r.split = some p ∧ p.pc = c.sp.pc + 1 ∧ p.closed = c.sp.closed ∧ g.seq = c.g.seq ∧ g.s = c.g.s ∧
    g.k = c.g.k ∧ g.m = c.g.m ∧ g.flags = c.g.flags ∧ g.ctx = c.g.ctx

end Sys2Proof.Claim

/-- wait evaluates its conditions at once, returns its status, or waits (R322, R323). -/
def Obligations.WaitEvaluates : Prop :=
  ∀ (f : RWord) (s : State) (c : Ctx) (i j : BitVec 6), MayRun s c → f.d = .s i → f.a = .s j → valueOperand f.b →
    let ctl := sval s c 3 f.b
    let n := ctl.toNat % 8
    let ws := fun (k : Nat) => condWords s c j.toNat k
    (64 < j.toNat + 2 * n → exec (.wait f) s = trapsWith s c 0x15) ∧
    (j.toNat + 2 * n ≤ 64 → (n = 0 ∨ 4 < n ∨ ctl.extractLsb' 4 28 ≠ 0) → exec (.wait f) s = trapsWith s c 0x82) ∧
    (j.toNat + 2 * n ≤ 64 → 1 ≤ n → n ≤ 4 → ctl.extractLsb' 4 28 = 0 → (∀ k < n, condWell (ws k)) → spared s c → c.g.walkOut = none → s.poison = [] → c.crew.spadPoison = [] →
      ((∃ k < n, condKind (ws k).1 = 1) → accessWaits c false false true = []) → (∀ k < n, condKind (ws k).1 = 1 → ∃ l, counterPlace s c (ws k).1 = .ok l) →
      (∀ sat < 16, (∀ k < 4, sat.testBit k = true ↔ k < n ∧ condMet s c (ws k)) →
        let ends := (ctl.getLsbD 3 = true ∧ sat = 2 ^ n - 1) ∨ (ctl.getLsbD 3 = false ∧ sat ≠ 0)
        (ends ∨ ctl.extractLsb' 32 32 = 0 →
          ∃ u g p o, exec (.wait f) s = .next u ∧ afterWait u c g p ∧ p.waiting = none ∧ g.outs = c.g.outs ++ [o] ∧ o.kind = .special ∧ o.far = none ∧
            ∃ v : Dword, o.dests = [(.s i.toNat, .sc v)] ∧ (ends → v.toNat = sat) ∧ (¬ends → v.toNat = 16 + sat)) ∧
        (¬ends → ctl.extractLsb' 32 32 ≠ 0 →
          ∃ u g p x, exec (.wait f) s = .next u ∧ afterWait u c g p ∧ p.waiting = some x ∧ x.dst = i.toNat ∧ x.t0 = s.timeOf (dieOf c.r.core) ∧
            x.tmo = ctl.extractLsb' 32 32 ∧ x.all = ctl.getLsbD 3 ∧ x.conds.length = n ∧ g.outs = c.g.outs)))

/-- cpost writes its command to the ring and publishes it; cdrain waits for commands (R325, R326). -/
def Obligations.CopyPostAndDrain : Prop :=
  ∀ (f : RWord) (s : State) (c : Ctx) (i j : BitVec 6),
    (MayCommit s c → f.d = .s i → f.a = .s j → 60 < j.toNat → exec (.cpost f) s = trapsWith s c 0x15) ∧
    (MayCommit s c → f.d = .s i → f.a = .s j → j.toNat ≤ 60 → c.crew.task.spad < 2 → exec (.cpost f) s = trapsWith s c 0x71) ∧
    (MayCommit s c → f.d = .s i → f.a = .s j → j.toNat ≤ 60 → 2 ≤ c.crew.task.spad → c.crew.take.toNat + 64 ≤ c.crew.pub.toNat → spared s c →
      exec (.cpost f) s = .next (s.modSplit c.r fun q => { q with parked := some .ring })) ∧
    (MayCommit s c → f.d = .s i → f.a = .s j → j.toNat ≤ 60 → 2 ≤ c.crew.task.spad → c.crew.pub.toNat < c.crew.take.toNat + 64 → accessWaits c true true false = [] → canonical s →
      ∃ u w g p, exec (.cpost f) s = .next u ∧ u.crew? c.r.core c.r.crew = some w ∧ w.pub = c.crew.pub + 1 ∧ w.take = c.crew.take ∧ committed u c g p ∧
        onlyS c g i c.crew.pub ∧
        ∀ q, byteIn u q = [0, 1, 2, 3].foldl (fun (v : Place → Byte) k => writtenAt 8 (readScalar s c 1 (.s (j.toNat + k))).toNat
          (.spad c.r.core c.r.crew (c.crew.task.spad * 1024 - 2048 + 32 * (c.crew.pub.toNat % 64) + 8 * k)) v) (byteIn s) q) ∧
    (MayRun s c → c.sp.parked = none →
      let dsp := bits f.c.bits 9 7
      (dsp ≤ 5 → (c.crew.task.spad < 2 ∨ c.crew.drainPending c.crew.pub.toNat dsp = false) → exec (.cdrain f) s = .next (complete s c [] 0 .t1)) ∧
      (dsp ≤ 5 → 2 ≤ c.crew.task.spad → c.crew.drainPending c.crew.pub.toNat dsp = true → spared s c →
        exec (.cdrain f) s = .next (s.modSplit c.r fun q => { q with parked := some (.drain c.crew.pub dsp) })) ∧
      (5 < dsp → exec (.cdrain f) s = trapsWith s c 0x14))

namespace Sys2Proof.Claim

/-- What the queue of a die receives for a spawned record (R81, R327). -/
def queuedAs (s u : State) (d : Nat) (p : Nat) (pasid : BitVec 20) (t : TaskRec) (root : Option RootExt) (addr : Dword) : Prop :=
  ∃ q, (u.die d).queue = (s.die d).queue ++ [q] ∧ q.part = p ∧ q.pasid = pasid ∧ q.task = t ∧ q.root = root ∧ q.saved = none ∧ q.byGen = false ∧
    q.prio = t.prio ∧ q.addr = addr

/-- The record that spawn reads, and whether R71 or R78 calls it malformed. -/
def spawnedTask (s : State) (c : Ctx) (a : Dword) : TaskRec := readTask s c.crew.part c.crew.pasid.toNat a (96 + dieOf c.r.core)
def spawnedRoot (s : State) (c : Ctx) (a : Dword) : Option RootExt :=
  if (spawnedTask s c a).isRoot then some (readRoot s c.crew.part c.crew.pasid.toNat a (96 + dieOf c.r.core)) else none
def malformedAt (s : State) (c : Ctx) (a : Dword) : Bool :=
  taskBad s c.crew.part c.crew.pasid.toNat (spawnedTask s c a) (96 + dieOf c.r.core) || (match spawnedRoot s c a with | some e => rootBad s c.crew.part e | none => false)

/-- The copy that is queued: the LAUNCH of the spawning crew, unless it is a root (R327). -/
def spawnedCopy (s : State) (c : Ctx) (a : Dword) : TaskRec :=
  if (spawnedTask s c a).isRoot then spawnedTask s c a else { spawnedTask s c a with launch := c.crew.task.launch }

/-- Every word of the record can be read (R327). -/
def recordReadable (s : State) (c : Ctx) (a : Dword) : Prop :=
  recordCheck s c a 8 = none ∧ ((spawnedTask s c a).isRoot = true → recordCheck s c a 16 = none)

end Sys2Proof.Claim

/-- spawn and spawn.open queue a copy of the record, or give the status that says why not (R71, R78, R81, R88, R327). -/
def Obligations.SpawnOutcomes : Prop :=
  ∀ (f : RWord) (s : State) (c : Ctx) (i : BitVec 6) (opens : Bool), MayCommit s c → f.d = .s i → valueOperand f.a → (opens = true → valueOperand f.b) →
    accessWaits c true true false = [] →
    let word : Instr := if opens then .spawnOpen f else .spawn f
    let a := sval s c 1 f.a
    let t := spawnedTask s c a
    let p := c.crew.part
    let d := dieOf c.r.core
    (opens = true → (sval s c 2 f.b).toNat % 8 ≠ 0 → exec word s = trapsWith s c 0x14) ∧
    ((opens = true → (sval s c 2 f.b).toNat % 8 = 0) → a.toNat < 2 ^ 57 → a.toNat % 64 ≠ 0 →
      exec word s = .next (takeTrap s c.r.core c.r.crew c.r.gid c.r.split 0x52 0 a)) ∧
    ((opens = true → (sval s c 2 f.b).toNat % 8 = 0) → recordReadable s c a →
      let ends := fun (v : Nat) (also : State → Prop) => ∃ u g q, exec word s = .next u ∧ committed u c g q ∧ onlyS c g i (BitVec.ofNat 64 v) ∧ also u
      let same := fun (u : State) => (u.die d).queue = (s.die d).queue
      (malformedAt s c a = true → ends 3 same) ∧
      (malformedAt s c a = false → opens = false →
        ((s.scope p t.scopeId).st = .free → ends 4 same) ∧
        ((s.scope p t.scopeId).st = .cancelling ∨ (s.scope p t.scopeId).st = .cancelled → ends 1 same) ∧
        ((s.scope p t.scopeId).st = .opened → s.queueRoom d p = false → ends 2 same) ∧
        ((s.scope p t.scopeId).st = .opened → s.queueRoom d p = true →
          ends 0 fun u => queuedAs s u d p c.crew.pasid (spawnedCopy s c a) (spawnedRoot s c a) a)) ∧
      (malformedAt s c a = false → opens = true →
        ((s.scope p t.scopeId).st = .opened ∨ (s.scope p t.scopeId).st = .cancelling → ends 4 same) ∧
        ((s.scope p c.crew.task.scopeId).st ≠ .opened ∨ (s.scope p c.crew.task.scopeId).depth.toNat = 15 → ends 4 same) ∧
        ((s.scope p t.scopeId).st = .free → (s.scope p c.crew.task.scopeId).st = .opened → (s.scope p c.crew.task.scopeId).depth.toNat < 15 →
          s.queueRoom d p = true →
          ends 0 fun u => queuedAs s u d p c.crew.pasid (spawnedCopy s c a) (spawnedRoot s c a) a ∧
            u.scope p t.scopeId = { ScopeEnt.free with st := .opened, parent := BitVec.ofNat 16 c.crew.task.scopeId, depth := (s.scope p c.crew.task.scopeId).depth + 1, acka := sval s c 2 f.b, opas := c.crew.pasid })))

/-- arm adds its count and delivers the old COUNT; a cell released queues its record, discards it, or counts a trap (R71, R76, R87, R328). -/
def Obligations.ArmAndJoinCells : Prop :=
  (∀ (f : RWord) (s : State) (c : Ctx) (i : BitVec 6) (pa : Nat), MayCommit s c → f.d = .s i → valueOperand f.a → valueOperand f.b →
    let a := sval s c 1 f.a
    let n := (sval s c 2 f.b).toNat
    (a.toNat % 128 ≠ 0 → exec (.arm f) s = .next (takeTrap s c.r.core c.r.crew c.r.gid c.r.split 0x8B 0 a)) ∧
    (a.toNat % 128 = 0 → (n = 0 ∨ 2 ^ 31 ≤ n) → exec (.arm f) s = .next (takeTrap s c.r.core c.r.crew c.r.gid c.r.split 0x8D 0 a)) ∧
    (a.toNat % 128 = 0 → 1 ≤ n → n < 2 ^ 31 → accessWaits c true true false = [] → checkLane s c .dev 8 true a = .ok (.dev pa) → poisonedAt s 8 (.dev pa) = false →
      canonical s → unjournalled s [(0, .dev pa)] →
      let named := (s.nameCell c.crew.part c.crew.pasid.toNat a).cells
      (∀ k ∈ named, k < pa + 8 → pa < k + 8 → k = pa) →
      let old := readThere 8 (.dev pa) (byteIn s)
      let sum := (old + n) % 2 ^ 64
      (∃ u g p, exec (.arm f) s = .next u ∧ committed u c g p ∧ onlyS c g i (BitVec.ofNat 64 old)) ∧
      (old = 0 ∨ sum ≠ 0 → ∃ u, exec (.arm f) s = .next u ∧ (∀ q, byteIn u q = writtenAt 8 sum (.dev pa) (byteIn s) q) ∧
        ∀ d, (u.die d).queue = (s.die d).queue) ∧
      (old ≠ 0 → sum = 0 → named.contains pa = true → ∃ t, (∀ q, byteIn t q = writtenAt 8 0 (.dev pa) (byteIn s) q) ∧
        exec (.arm f) s = .next (commit (t.releaseCell (State.dieOfPa pa) c.crew.part c.crew.pasid a (some c.crew.task.launch)) c (toScalar f.d (BitVec.ofNat 64 old)) .t1)))) ∧
  (∀ (s : State) (d p : Nat) (pasid : BitVec 20) (cell : Dword) (launch : Option Word),
    let ps := pasid.toNat
    let t0 := readTask s p ps (cell + 64) (96 + d)
    let t : TaskRec := { t0 with launch := launch.getD t0.launch }
    let good := s.vaFault p ps cell 16 (96 + d) = none ∧ (∀ i < 7, wordAt s p ps cell (i + 1) (96 + d) = 0) ∧ t.isRoot = false ∧ taskBad s p ps t (96 + d) = false
    let r := s.releaseCell d p pasid cell launch
    (good → (s.scope p t.scopeId).st = .opened → s.queueRoom d p = true → queuedAs s r d p pasid t none (cell + 64) ∧ r.mem = s.mem) ∧
    (good → (s.scope p t.scopeId).st = .opened → s.queueRoom d p = false → r = s.modDie d fun x => { x with cells := x.cells ++ [⟨p, pasid, cell, t, false⟩] }) ∧
    (good → (s.scope p t.scopeId).st = .cancelling ∨ (s.scope p t.scopeId).st = .cancelled → r = s) ∧
    (good → (s.scope p t.scopeId).st = .free → r = s.countFault p t.launch d 0x8F cell) ∧
    (s.vaFault p ps cell 16 (96 + d) = none → (∃ i < 7, wordAt s p ps cell (i + 1) (96 + d) ≠ 0) → r = s.countFault p t.launch d 0x8A cell) ∧
    (s.vaFault p ps cell 16 (96 + d) = none → (∀ i < 7, wordAt s p ps cell (i + 1) (96 + d) = 0) → t.isRoot = true ∨ taskBad s p ps t (96 + d) = true →
      r = (s.testWords p ps t.code 8 (96 + d)).countFault p t.launch d 0x88 (cell + 64)) ∧
    (∀ e, s.vaFault p ps cell 16 (96 + d) = some e → r = (s.testWords p ps cell 16 (96 + d)).countFault p (launch.getD 0) d (e.code 0x50) cell))

/-- cancel counts and broadcasts a cancel; step reads or marks the steps; retire ends the group (R92, R329, R330, R331). The model's reading here: that a cancel takes effect on its own die at once (log 85, DEDUCED). -/
def Obligations.CancelStepAndRetire : Prop :=
  ∀ (f : RWord) (s : State) (c : Ctx) (i : BitVec 6),
    (MayCommit s c → f.d = .s i → valueOperand f.a →
      let v := sval s c 1 f.a
      let e := s.scope c.crew.part v.toNat
      (2 ^ 16 ≤ v.toNat → exec (.cancel f) s = trapsWith s c 0x14) ∧
      (v.toNat < 2 ^ 16 → e.st = .free → ∃ u g p, exec (.cancel f) s = .next u ∧ committed u c g p ∧ onlyS c g i 1 ∧ u.scope c.crew.part v.toNat = e) ∧
      (v.toNat < 2 ^ 16 → e.st ≠ .free → e.pend = 0xFFFFFFFF →
        ∃ u g p, exec (.cancel f) s = .next u ∧ committed u c g p ∧ onlyS c g i 2 ∧ u.scope c.crew.part v.toNat = e) ∧
      (v.toNat < 2 ^ 16 → e.st = .opened ∨ e.st = .cancelling → e.pend ≠ 0xFFFFFFFF →
        (∀ h ∈ c.crew.groups, h.gid = c.r.gid → c.crew.groupWaits h = false) →
        ∃ u g p, exec (.cancel f) s = .next u ∧ committed u c g p ∧ onlyS c g i 0 ∧ (u.scope c.crew.part v.toNat).st = .cancelling ∧
          (u.scope c.crew.part v.toNat).pend = e.pend + 1 ∧
          ∀ d ∈ fenceDies s (fenceOf s c.crew.part), dieRoute s (dieOf c.r.core) d = true →
            if d = dieOf c.r.core then d ∈ (u.scope c.crew.part v.toNat).applied else (c.crew.part, v.toNat) ∈ (u.die d).cancels)) ∧
    (MayRun s c → f.d = .s i → ∀ n, n ≤ 1 → smallConst f.a n →
      (c.crew.byGen = false → exec (.step f) s = trapsWith s c 0x8C) ∧
      (c.crew.byGen = true → ∀ l, s.launch? c.crew.part c.crew.task.launch = some l →
        (n = 0 → exec (.step f) s = .next (complete s c (toScalar f.d (BitVec.ofNat 64 (if l.last then 0 else l.ext.steps - 1 - l.step))) 0 .t1)) ∧
        (n = 1 → ∃ u, exec (.step f) s = .next u ∧ u.launch? c.crew.part c.crew.task.launch = some { l with last := true } ∧
          u.group? c.r.core c.r.crew c.r.gid = (complete s c (toScalar f.d 0) 0 .t1).group? c.r.core c.r.crew c.r.gid))) ∧
    (MayBranch s c → c.g.handler = none → c.crew.killed = false →
      ∃ u w g, exec (.retire f) s = .next u ∧ u.crew? c.r.core c.r.crew = some w ∧ w.group? c.r.gid = some g ∧ g.live = false ∧ g.splits = [] ∧ g.stack = [] ∧
        w.flags = c.crew.flags ||| c.g.flags ∧ w.killed = false ∧ g.seq = c.g.seq ∧
        ∀ h ∈ c.crew.groups, h.gid ≠ c.r.gid → ∃ h' ∈ w.groups, h'.gid = h.gid ∧ h'.live = h.live ∧ h'.splits = h.splits ∧ h'.s = h.s) ∧
    (s.ctx = some c → c.g.handler ≠ none → exec (.retire f) s = trapsWith s c 0x0F)

namespace Sys2Proof.Claim

/-- The group holds stage 0 and its crew owns the paddle (R108). -/
def hasPaddle (s : State) (c : Ctx) : Prop := c.crew.stage c.r.gid = 0 ∧ (s.core c.r.core).paddle = some c.r.crew

/-- A word of majors 0x23 and 0x24 on tile t is accepted: the tile is the crew's, allocated and armed by nothing open, and the Tun has room (R299, R300, R311). -/
def tileReady (s : State) (c : Ctx) (t : BitVec 2) : Prop :=
  t.toNat < c.crew.task.acc ∧ ownsTile s c t.toNat = true ∧ c.crew.armedOpen t.toNat = false ∧ tunFull (s.core c.r.core) = false

/-- The Tun of the core has accepted one operation more, of this kind, for the split. -/
def acceptedAs (s u : State) (c : Ctx) (k : TunKind) : Prop :=
  (u.core c.r.core).tun = (s.core c.r.core).tun ++ [⟨(s.core c.r.core).tunNext, c.r.crew, c.r.gid, c.r.split, k⟩] ∧
    (u.core c.r.core).tunNext = (s.core c.r.core).tunNext + 1 ∧ (u.core c.r.core).tiles = (s.core c.r.core).tiles

/-- The rows of a matrix word: those of the split that the mask of MOD[11:9] holds (R299). -/
def matrixRows (s : State) (c : Ctx) (mod : BitVec 12) : Mask := c.sp.mask &&& (sval s c 7 (.k (mod.extractLsb' 9 3))).setWidth 32

end Sys2Proof.Claim

/-- mlda, mlda.t and mldb complete: the run loaded, or the grist write accepted (R301, R302, R303). -/
def Obligations.MatrixLoads : Prop :=
  ∀ (f : MWord) (s : State) (c : Ctx) (i : BitVec 8) (j : BitVec 6), MayRun s c → f.d = .m i → f.idx = .s j → valueOperand f.base →
    let v := sval s c 2 f.idx
    let len := v.toNat % 512
    let str := v.toNat / 2 ^ 16 % 2 ^ 20
    let a0 := (sval s c 1 f.base + f.off.signExtend 64).toNat
    (∀ tr : Bool, (f.size = .b8 ∨ f.size = .b16) → v.toNat < 2 ^ 36 → v.toNat / 2 ^ 9 % 2 ^ 7 = 0 → 1 ≤ len → len ≤ 256 → len * bytesOf f % 4 = 0 →
      i.toNat + len * bytesOf f / 4 ≤ 32 * c.crew.task.regs → accessWaits c false false false = [] → a0 % bytesOf f = 0 → str % bytesOf f = 0 → c.crew.spadPoison = [] →
      let word : Instr := if tr then .mldaT f else .mlda f
      let addr := fun (l k : Nat) => if tr then a0 + k * str + l * bytesOf f else a0 + l * str + k * bytesOf f
      (∀ l < 32, c.sp.mask.getLsbD l = true → ∀ k < len, addr l k + bytesOf f + (if 2 ≤ c.crew.task.spad then 2048 else 0) ≤ c.crew.task.spad * 1024) →
      a0 + 31 * 2 ^ 20 + 256 * 2 ^ 20 < 2 ^ 64 →
      ∃ u o, exec word s = .next u ∧ goesOnWith s u c o ∧ o.kind = .load ∧ o.far = none ∧ o.lanes = c.sp.mask ∧ o.dests.length = len * bytesOf f / 4 ∧
        ∀ l < 32, c.sp.mask.getLsbD l = true → ∀ k < len, ∃ w : Lanes, o.dests[k * bytesOf f / 4]? = some (.m (i.toNat + k * bytesOf f / 4), .vec w) ∧
          (lane w l).toNat / 2 ^ (8 * (k * bytesOf f % 4)) % 2 ^ (8 * bytesOf f) = readThere (bytesOf f) (.spad c.r.core c.r.crew (addr l k)) (byteIn s)) ∧
    (f.size = .b8 → v.toNat < 2 ^ 9 → 1 ≤ len → len ≤ 256 → i.toNat + len ≤ 32 * c.crew.task.regs →
      (a0 % 4 ≠ 0 ∨ 0x40000 < a0 + 4 * len → exec (.mldb f) s = trapsWith s c 0x2E) ∧
      (a0 % 4 = 0 → a0 + 4 * len ≤ 0x40000 → accessWaits c true false false = [] → (s.core c.r.core).gristPart = c.crew.part → ∃ u o, exec (.mldb f) s = .next u ∧ goesOnWith s u c o ∧ o.kind = .mx ∧
        acceptedAs s u c (.mldb a0 c.sp.mask ((List.range len).map fun r => readLanes s c 0 (.m (i.toNat + r))) s.nextId)))

/-- mzero, marm, mdrain and mdrainp are accepted by the Tun; mstat reads the arming (R299, R300, R308, R309, R311, R312, R314). -/
def Obligations.MatrixWordsAccepted : Prop :=
  ∀ (f : RWord) (s : State) (c : Ctx) (t : BitVec 2),
    let rows := matrixRows s c f.mod
    (MayCommit s c → f.d = .acc t → hasPaddle s c → tileReady s c t →
      ∃ u g p, exec (.mzero f) s = .next u ∧ committed u c g p ∧ g.s = c.g.s ∧ acceptedAs s u c (.mzero t.toNat rows)) ∧
    (MayCommit s c → f.d = .acc t → hasPaddle s c → tileReady s c t → ∀ j, f.a = .s j → senderBad c.r.core (sval s c 1 f.a) = false →
      ∃ u w g p, exec (.marm f) s = .next u ∧ committed u c g p ∧ g.s = c.g.s ∧ acceptedAs s u c (.marm t.toNat) ∧ u.crew? c.r.core c.r.crew = some w ∧
        ∀ m, c.crew.tiles[t.toNat]? = some m → ∃ m' a, w.tiles[t.toNat]? = some m' ∧ m'.arming = some a ∧ a.f32 = !f.mod.getLsbD 1 ∧ a.after = (s.core c.r.core).tunNext ∧
          (∀ n < 4, ((sval s c 1 f.a).getLsbD (16 * n + 15) = true ↔ ∃ e ∈ a.entries, e.idx = n)) ∧
          ∀ e ∈ a.entries, e.core = (sval s c 1 f.a).toNat / 2 ^ (16 * e.idx) % 128 ∧ e.crew = (sval s c 1 f.a).toNat / 2 ^ (16 * e.idx + 7) % 32 ∧
            e.reserved = none ∧ e.applied = false ∧ e.cancelled = false) ∧
    (f.a = .acc t → valueOperand f.b → ((∃ j, f.c = .s j) ∨ ∃ x, f.c = .const x) → hasPaddle s c → tileReady s c t → tilePoison s c t.toNat = none →
      let rnd := f.mod.extractLsb' 6 3
      let fmt := f.mod.extractLsb' 2 4
      let dst := (sval s c 2 f.b).toNat
      let str := (sval s c 3 f.c).toNat
      drainOk (f.mod.getLsbD 1) fmt rnd.toNat = true →
      (MayRun s c → rnd ≠ 4 → accessWaits c true false false = [] → drainFault c.crew rows dst str ((fmtBits fmt).getD 32 / 8) none = none →
        ∃ u g p, exec (.mdrain f) s = .next u ∧ u.group? c.r.core c.r.crew c.r.gid = some g ∧ g.split? c.r.split = some p ∧ p.pc = c.sp.pc + 1 ∧ g.seq = c.g.seq ∧
          g.s = c.g.s ∧ g.m = c.g.m ∧ g.flags = c.g.flags ∧ acceptedAs s u c (.mdrain t.toNat rows dst str fmt (f.mod.getLsbD 1) rnd none 0)) ∧
      (MayCommit s c → rnd = 4 → ∀ j, f.d = .s j → accessWaits c true false false = [] → c.crew.spadPoison = [] →
        drainFault c.crew rows dst str ((fmtBits fmt).getD 32 / 8) (some (sval s c 0 f.d).toNat) = none →
        ∃ u g p, exec (.mdrain f) s = .next u ∧ committed u c g p ∧ g.s = c.g.s ∧
          acceptedAs s u c (.mdrain t.toNat rows dst str fmt (f.mod.getLsbD 1) rnd (some (sval s c 0 f.d).toNat) 0))) ∧
    (MayCommit s c → f.a = .acc t → hasPaddle s c → tileReady s c t → tilePoison s c t.toNat = none → ∀ j, f.b = .s j → (sval s c 2 f.b).toNat < 2 ^ 14 →
      let v := (sval s c 2 f.b).toNat
      let found := consult s c.r.core c.r.crew c.crew.part c.crew.task.launch (v % 128) (v / 128 % 32) (v / 4096)
      (found = .refuse → exec (.mdrainp f) s = trapsWith s c 0x2D) ∧
      (found = .wait → spared s c → exec (.mdrainp f) s = .next (s.modSplit c.r fun q => { q with parked := some (.target (dieOf c.r.core * 96 + v % 128) (v / 128 % 32) (v / 4096)) })) ∧
      (found = .accept → accessWaits c true false false = [] → ∃ u g p, exec (.mdrainp f) s = .next u ∧ committed u c g p ∧ g.s = c.g.s ∧
        acceptedAs s u c (.mdrainp t.toNat rows (dieOf c.r.core * 96 + v % 128) (v / 128 % 32) (v / 4096)))) ∧
    (MayRun s c → f.a = .acc t → ∀ i, f.d = .s i →
      (t.toNat < c.crew.task.acc → exec (.mstat f) s = .next (complete s c (toScalar f.d (armStatus c.crew t.toNat)) 0 .t2)) ∧
      (c.crew.task.acc ≤ t.toNat → exec (.mstat f) s = trapsWith s c 0x29))

/-- mma and mma.z copy their operands and are accepted by the Tun (R304, R305, R306). -/
def Obligations.MultiplyAccumulateAccepted : Prop :=
  ∀ (f : RWord) (s : State) (c : Ctx) (t : BitVec 2) (i : BitVec 8) (j : BitVec 6) (z : Bool) (ws : List Dword) (s2 : State), MayCommit s c → f.d = .acc t → f.a = .m i →
    onCore c (.m i) = true → f.b = .s j → ((∃ j, f.c = .s j) ∨ ∃ x, f.c = .const x) → hasPaddle s c → accessWaits c false false false = [] →
    let word : Instr := if z then .mmaZ f else .mma f
    let k := f.mod.toNat % 512
    (c.crew.task.acc ≤ t.toNat → exec word s = trapsWith s c 0x29) ∧
    (t.toNat < c.crew.task.acc → (k = 0 ∨ 256 < k) → exec word s = trapsWith s c 0x2C) ∧
    (t.toNat < c.crew.task.acc → 1 ≤ k → k ≤ 256 → readBlock s c (sval s c 2 f.b) = .ok ws s2 →
      let ea := descEf (ws.getD 0 0)
      let eb := descEf (ws.getD 2 0)
      (∀ w, ea ≠ 12 → eb ≠ 12 → fmtBits ea = some w → 1024 * c.crew.task.regs + 32 ≤ 32 * i.toNat + k * w → exec word s = trapsWith s c 0x15) ∧
      (tileReady s c t → tilePoison s c t.toNat = none → blockChecks s2 c f k ws = none → (s.core c.r.core).gristPart = c.crew.part → (s.core c.r.core).bankPart = c.crew.part →
        ∃ u g p o, exec word s = .next u ∧ committed u c g p ∧ g.s = c.g.s ∧ acceptedAs s u c (.mma o) ∧ o.z = z ∧ o.tile = t.toNat ∧ o.act = matrixRows s c f.mod ∧
          o.k = k ∧ o.af = ea ∧ o.bf = eb ∧ o.pos = 0 ∧ o.goff = (sval s c 3 f.c).toNat ∧
          o.a = (List.range (ceilDiv (k * (fmtBits ea).getD 8) 32)).map fun r => readLanes s c 1 (.m (i.toNat + r))))

/-- pass advances ROUND and hands the paddle on; a word that needs it traps, asks, or is granted it (R108, R109, R298, R324). -/
def Obligations.PassAndPaddle : Prop :=
  (∀ (f : RWord) (s : State) (c : Ctx), MayCommit s c →
    (c.crew.stage c.r.gid ≠ 0 → exec (.pass f) s = trapsWith s c 0x85) ∧
    (c.crew.stage c.r.gid = 0 → (s.core c.r.core).paddle ≠ some c.r.crew → exec (.pass f) s = trapsWith s c 0x86) ∧
    (c.crew.stage c.r.gid = 0 → (s.core c.r.core).paddle = some c.r.crew → accessWaits c true true false = [] →
      (∃ g ∈ c.crew.groups, g.live = true ∧ ({ c.crew with round := c.crew.round + 1 } : Crew).stage g.gid = 0) →
      ∃ u w g p, exec (.pass f) s = .next u ∧ u.crew? c.r.core c.r.crew = some w ∧ w.round = c.crew.round + 1 ∧ committed u c g p ∧ g.s = c.g.s ∧
        ((s.core c.r.core).paddleReq = [] → (u.core c.r.core).paddle = some c.r.crew) ∧
        (∀ d t, (s.core c.r.core).paddleReq = d :: t → (u.core c.r.core).paddle = some d ∧ (u.core c.r.core).paddleReq = t ++ [c.r.crew]))) ∧
  (∀ (f : RWord) (s : State) (c : Ctx) (t : BitVec 2), MayCommit s c → f.d = .acc t → (c.crew.stage c.r.gid ≠ 0 → exec (.mzero f) s = trapsWith s c 0x28) ∧
    (c.crew.stage c.r.gid = 0 → ∀ x, (s.core c.r.core).paddle = some x → x ≠ c.r.crew → ¬(c.r.crew ∈ (s.core c.r.core).paddleReq) → (s.core c.r.core).passed = none →
      ∃ u p, exec (.mzero f) s = .next u ∧ splitIn u c = some p ∧ p.pc = c.sp.pc ∧ p.parked = some .paddle ∧ (u.core c.r.core).paddle = some x ∧
        (u.core c.r.core).paddleReq = (s.core c.r.core).paddleReq ++ [c.r.crew]) ∧
    (c.crew.stage c.r.gid = 0 → ∀ x, (s.core c.r.core).paddle = some x → x ≠ c.r.crew → (s.core c.r.core).paddleReq = [] → (s.core c.r.core).passed = some x →
      tileReady s c t → ∃ u, exec (.mzero f) s = .next u ∧ (u.core c.r.core).paddle = some c.r.crew ∧ (u.core c.r.core).paddleReq = [x] ∧
        acceptedAs s u c (.mzero t.toNat (matrixRows s c f.mod))) ∧
    (c.crew.stage c.r.gid = 0 → (s.core c.r.core).paddle = none → (s.core c.r.core).paddleReq = [] → tileReady s c t →
      ∃ u, exec (.mzero f) s = .next u ∧ (u.core c.r.core).paddle = some c.r.crew ∧ acceptedAs s u c (.mzero t.toNat (matrixRows s c f.mod))))

/-- ctab reads sixteen entries for the idle bank; msave writes an image; mrest reads one (R59, R191, R208, R315, R316). The model's choices here: that mrest refuses a header with a non-zero reserved field too, where R191 and R316 name IVER, CHECK and PART (log 77, DESIGN CHOICE); what stands in the image's body, and that one that records no work restores none (log 17). -/
def Obligations.TablesAndImages : Prop :=
  ∀ (f : RWord) (s : State) (c : Ctx) (j : BitVec 6), MayCommit s c → f.a = .s j → c.crew.spadPoison = [] →
    let a := (sval s c 1 f.a).toNat
    let room := fun (n : Nat) => a + n + (if 2 ≤ c.crew.task.spad then 2048 else 0) ≤ c.crew.task.spad * 1024
    (((s.part c.crew.part).capmask.getD 2 (BitVec.allOnes 64)).getLsbD 2 = true → a % 32 = 0 → room 32 → accessWaits c false false false = [] →
      ((s.core c.r.core).bankPart = c.crew.part ∨ (s.core c.r.core).ctabPend = []) →
      ∃ u g p, exec (.ctab f) s = .next u ∧ u.group? c.r.core c.r.crew c.r.gid = some g ∧ g.split? c.r.split = some p ∧ p.pc = c.sp.pc + 1 ∧ p.closed = true ∧
        g.seq = c.g.seq ∧ g.s = c.g.s ∧ (u.core c.r.core).bankPart = c.crew.part ∧
        ((s.core c.r.core).bankPart ≠ c.crew.part → (u.core c.r.core).bank0 = List.replicate 16 0 ∧ (u.core c.r.core).bank1 = List.replicate 16 0) ∧
        (u.core c.r.core).ctabPend = (s.core c.r.core).ctabPend ++ [(c.r.crew, c.r.gid,
          (List.range 16).map fun q => BitVec.ofNat 16 (readThere 2 (.spad c.r.core c.r.crew (a + 2 * q)) (byteIn s)))]) ∧
    (((s.part c.crew.part).capmask.getD 2 (BitVec.allOnes 64)).getLsbD 2 = false → exec (.ctab f) s = trapsWith s c 0x0E) ∧
    (hasPaddle s c → a % 64 = 0 → room 24576 → accessWaits c true false false = [] → tunFull (s.core c.r.core) = false → canonical s → (∀ o ∈ (s.core c.r.core).tun, o.crew ≠ c.r.crew) →
      (∃ u g p, exec (.msave f) s = .next u ∧ committed u c g p ∧ g.s = c.g.s ∧ (u.core c.r.core).tun = (s.core c.r.core).tun ∧
        (∀ q, (∀ b, offsetIn 24576 (.spad c.r.core c.r.crew a) q ≠ some b) → byteIn u q = byteIn s q) ∧
        readThere 2 (.spad c.r.core c.r.crew a) (byteIn u) = 1 ∧ readThere 2 (.spad c.r.core c.r.crew (a + 2)) (byteIn u) = 384) ∧
      (∀ img, img = c.crew.spadRead a 24576 →
        (imageBad c.crew.part (img.take 64) (img.drop 64) = true → exec (.mrest f) s = trapsWith s c 0x2F) ∧
        (imageBad c.crew.part (img.take 64) (img.drop 64) = false → imageWork s (img.drop 64) = [] →
          ∃ u g p, exec (.mrest f) s = .next u ∧ committed u c g p ∧ g.s = c.g.s ∧ (u.core c.r.core).tun = (s.core c.r.core).tun)))

/-! ## Management and host events (01 to 05) -/

namespace Sys2Proof.Claim

/-- A write of the management block is refused: its bit of MERR is set, and nothing else changes (R54). -/
def refusedAs (s t : State) (b : Nat) : Prop := t = { s with merr := t.merr } ∧ ∀ i < 64, t.merr.getLsbD i = (s.merr.getLsbD i || i == b)

/-- No enabled partition runs in any of these fences (R55). -/
def atRest (s : State) (fs : Nat → Prop) : Prop := ∀ p < 64, partOn s p = true → ¬fs (fenceOf s p)

/-- The fence of die d in a value of FMAP, and a port's assignment in a value of PPMAP (R55). -/
def fidIn (v : Dword) (d : Nat) : Nat := v.toNat / 8 ^ d % 8
def portIn (v : Dword) (i : Nat) : Nat := v.toNat / 16 ^ i % 16

/-- The fences that a write of each register changes (R55). -/
def fmapMoves (s : State) (v : Dword) (f : Nat) : Prop := ∃ d < 8, fidIn s.fmap d ≠ fidIn v d ∧ (f = fidIn s.fmap d ∨ f = fidIn v d)
def fwallMoves (s : State) (v : Dword) (f : Nat) : Prop :=
  ∃ i < 10, linkIn s.fwall i ≠ linkIn v i ∧ (f = fidIn s.fmap (dieLinks.getD i (0, 0)).1 ∨ f = fidIn s.fmap (dieLinks.getD i (0, 0)).2)
def ppmapMoves (old v : Dword) (f : Nat) : Prop := ∃ i < 12, portIn old i ≠ portIn v i ∧ (f + 8 = portIn old i ∨ f + 8 = portIn v i)

/-- A port after a PPMAP write (R22): assigned anew it retrains, unassigned it is down. -/
def remapped (old v : Dword) (i : Nat) (p q : Port) : Prop :=
  (portIn old i < 8 → 8 ≤ portIn v i → q.down = true ∧ q.train = true ∧ q.txSeq = 0 ∧ q.rxSeq = 0 ∧ q.retry = []) ∧
    (8 ≤ portIn old i → portIn v i < 8 → q = { p with down := true, train := false }) ∧ ((8 ≤ portIn old i ↔ 8 ≤ portIn v i) → q = p)

end Sys2Proof.Claim

/-- Writes of FMAP, FWALL, PPMAP, SCTB, CAPMASK, THERM, PPAS and PPRETR take effect or are refused (R22, R54, R55, R67, R89, R144, R255). -/
def Obligations.ManagementWrites : Prop :=
  ∀ (s : State) (val : Dword),
    (atRest s (fmapMoves s (val &&& 0xFFFFFF)) → exec (.fmapWrite val) s = .next { s with fmap := val &&& 0xFFFFFF }) ∧
    (¬atRest s (fmapMoves s (val &&& 0xFFFFFF)) → ∃ t, exec (.fmapWrite val) s = .next t ∧ refusedAs s t 0) ∧
    (atRest s (fwallMoves s (val &&& 0xFFFFF)) → (∀ i < 10, linkIn val i ≠ 3) → exec (.fwallWrite val) s = .next { s with fwall := val &&& 0xFFFFF }) ∧
    (¬atRest s (fwallMoves s (val &&& 0xFFFFF)) ∨ (∃ i < 10, linkIn val i = 3) → ∃ t, exec (.fwallWrite val) s = .next t ∧ refusedAs s t 1) ∧
    (∀ high : Bool, let old := if high then s.ppmap1 else s.ppmap0
      let v := val &&& 0xFFFFFFFFFFFF
      let base := if high then 12 else 0
      (¬atRest s (ppmapMoves old v) → ∃ t, exec (.ppmapWrite high val) s = .next t ∧ refusedAs s t 0) ∧
      (atRest s (ppmapMoves old v) → (∀ i < 12, 8 ≤ portIn old i → portIn v i < 8 → (s.port (base + i)).down = true) →
        ∃ t, exec (.ppmapWrite high val) s = .next t ∧ (∀ i < 12, remapped old v i (s.port (base + i)) (t.port (base + i))) ∧
          (∀ j, j < base ∨ base + 12 ≤ j → t.port j = s.port j) ∧
          t = { s with ports := t.ports, ppmap0 := if high then s.ppmap0 else v, ppmap1 := if high then v else s.ppmap1 })) ∧
    (∀ p : BitVec 6, (partOn s p.toNat = false → s.holdsFrame p.toNat ((val.extractLsb' 9 10).toNat * 2 ^ 30) = true →
        exec (.sctbWrite p val) s = .next (s.modPart p.toNat fun x => { x with sctb := val &&& 0x7FFFF })) ∧
      (partOn s p.toNat = true ∨ s.holdsFrame p.toNat ((val.extractLsb' 9 10).toNat * 2 ^ 30) = false →
        ∃ t, exec (.sctbWrite p val) s = .next t ∧ refusedAs s t 2)) ∧
    (let p := (s.capsel.extractLsb' 8 6).toNat
      let leaf := (s.capsel.extractLsb' 0 3).toNat
      (partOn s p = true → ∃ t, exec (.capmaskWrite val) s = .next t ∧ refusedAs s t 2) ∧
      (partOn s p = false → ∃ t, exec (.capmaskWrite val) s = .next t ∧ t = { s with parts := t.parts } ∧ (∀ q, q ≠ p → t.part q = s.part q) ∧
        t.part p = { s.part p with capmask := (t.part p).capmask } ∧
        ∀ i < 8, (t.part p).capmask.getD i 0 = if i = leaf then val else (s.part p).capmask.getD i 0)) ∧
    (∀ die : BitVec 3, exec (.thermWrite die val) s =
        if (val.extractLsb' 0 8).toNat + 8 ≤ (val.extractLsb' 8 8).toNat ∧ (val.extractLsb' 8 8).toNat ≤ 115 then
          .next (s.modDie die.toNat fun x => { x with therm := (x.therm &&& 0xFF0000) ||| (val &&& 0xFFFF) })
        else .next (refuse s 5)) ∧
    (∃ t, t = refuse s 5 ∧ refusedAs s t 5) ∧
    (∀ i < 24, (val.getLsbD 63 = true → ¬(partOn s (val.extractLsb' 20 6).toNat = true ∧ portFence s i = some (fenceOf s (val.extractLsb' 20 6).toNat)) →
        ∃ t, exec (.ppasWrite i val) s = .next t ∧ refusedAs s t 0) ∧
      (val.getLsbD 63 = false ∨ (partOn s (val.extractLsb' 20 6).toNat = true ∧ portFence s i = some (fenceOf s (val.extractLsb' 20 6).toNat)) →
        exec (.ppasWrite i val) s = .next (s.setPort i { s.port i with ppas := val &&& 0x8000000003FFFFFF }))) ∧
    (val.extractLsb' 24 40 ≠ 0 → exec (.ppretrWrite val) s = .next s) ∧
    (val.extractLsb' 24 40 = 0 → ∃ t, exec (.ppretrWrite val) s = .next t ∧ t = { s with ports := t.ports } ∧
      ∀ i, t.port i = if i < 24 ∧ val.getLsbD i = true ∧ (portFence s i).isSome = true ∧ (s.port i).down = true ∧ (s.port i).train = false
        then (s.port i).retrain (s.times.getD (16 + i / 12) 0) else s.port i)

namespace Sys2Proof.Claim

/-- A write that sets EN is accepted (R57); AQICNT above 32 is refused by the model (a log entry). -/
def mayEnable (s : State) (p : Nat) (v : Dword) : Prop :=
  let f := (v.extractLsb' 56 3).toNat
  let cnt := (v.extractLsb' 50 6).toNat
  (∃ d < 8, fidIn s.fmap d = f) ∧
    (∀ i < 10, let l := dieLinks.getD i (0, 0)
      (fidIn s.fmap l.1 = f ∨ fidIn s.fmap l.2 = f) → (linkIn s.fwall i = 0 ↔ fidIn s.fmap l.1 = fidIn s.fmap l.2)) ∧
    (∀ d < 8, fidIn s.fmap d = f → ∀ c < 3, (if p < 32 then c < d % 4 else d % 4 ≤ c) → linkIn s.fwall (3 * (d / 4) + c) ≠ 1) ∧
    s.holdsFrame p (((s.part p).pcfg1.extractLsb' 54 10).toNat * 2 ^ 30) = true ∧ cnt ≤ 32 ∧
    (((List.range 64).filter fun q => q != p && partOn s q).map fun q => ((s.part q).pcfg0.extractLsb' 50 6).toNat).sum + cnt ≤ 512

/-- PCFG word 0 as a write leaves it: CUT is read-only (R57). -/
def pcfg0Of (s : State) (p : Nat) (val : Dword) : Dword := (val &&& 0x87FCFFFFFFFF0000) ||| ((s.part p).pcfg0 &&& 3)

/-- The partition has no crew, queued record, scope in use, launch or packet, and no cancel on its way. -/
def idlePart (s : State) (p : Nat) : Prop :=
  (∀ x ∈ s.allCrews, x.2.part ≠ p) ∧ (∀ d < 8, (∀ q ∈ (s.die d).queue, q.part ≠ p) ∧ ∀ k ∈ (s.die d).cancels, k.1 ≠ p) ∧
    (∀ e ∈ s.scopes, e.1 / 65536 = p → e.2.st = .free) ∧ (∀ l ∈ s.launches, l.part ≠ p) ∧ ∀ k ∈ s.packets, k.fn ≠ p

end Sys2Proof.Claim

/-- Enabling and resetting a partition, granting and zeroing a frame, and a write of any register (R31, R54, R57, R58, R59, R89, R144, R184, R255). -/
def Obligations.PartitionsAndFrames : Prop :=
  ∀ (s : State) (val : Dword) (b : BitVec 6) (f : BitVec 10) (own : Byte),
    let p := b.toNat
    let v := pcfg0Of s p val
    (partOn s p = false → val.getLsbD 63 = true → ¬mayEnable s p v → ∃ t, exec (.partitionEnable b val) s = .next t ∧ refusedAs s t 2) ∧
    (partOn s p = false → val.getLsbD 63 = true → mayEnable s p v → (∀ d < 8, ∀ k ∈ (s.die d).cancels, k.1 ≠ p) → s.snapPagesIn (s.sctbBase p) (s.sctbBase p + 2 ^ 21) = [] →
      ∃ t, exec (.partitionEnable b val) s = .next t ∧ t = { s with parts := t.parts, scopes := t.scopes, mem := t.mem, poison := t.poison, slice := t.slice, sliceAt := t.sliceAt } ∧
        t.part p = { s.part p with pcfg0 := v, pen := 0 } ∧ (∀ q, q ≠ p → t.part q = s.part q) ∧
        (∀ i < 65536, t.scope p i = ScopeEnt.free) ∧ (∀ q i, q ≠ p → i < 65536 → t.scope q i = s.scope q i) ∧
        (∀ a, t.mem.get a = if s.ownsFrame p (s.sctbBase p) = true ∧ s.sctbBase p ≤ a ∧ a < s.sctbBase p + 2 ^ 21 then 0 else s.mem.get a)) ∧
    (partOn s p = true → val.getLsbD 63 = false → v.extractLsb' 50 9 ≠ (s.part p).pcfg0.extractLsb' 50 9 →
      ∃ t, exec (.partitionReset b val) s = .next t ∧ refusedAs s t 2) ∧
    (partOn s p = true → val.getLsbD 63 = false → v.extractLsb' 50 9 = (s.part p).pcfg0.extractLsb' 50 9 → idlePart s p →
      ∃ t, exec (.partitionReset b val) s = .next t ∧ (t.part p).pcfg0 = v ∧ (t.part p).pen = (s.part p).pen ∧ (t.part p).sctb = (s.part p).sctb ∧
        (t.part p).capmask = (s.part p).capmask ∧ (t.part p).pcfg1 = (s.part p).pcfg1 ∧ (∀ q, q ≠ p → t.part q = s.part q) ∧
        t.fn p = { s.fn p with aqis := [], posts := [] } ∧ (∀ q, q ≠ p → t.fn q = s.fn q) ∧ t.mem = s.mem ∧ t.fown = s.fown ∧ t.packets = s.packets ∧
        ∀ c, t.core c = { s.core c with rowLast := (t.core c).rowLast, blockLast := (t.core c).blockLast, gristPart := (t.core c).gristPart, bankPart := (t.core c).bankPart } ∧
          ((∃ x ∈ s.cores, x.1 = c) → (t.core c).gristPart ≠ p ∧ (t.core c).bankPart ≠ p ∧ (∀ i, (t.core c).rowLast.get i 0 ≠ p + 1) ∧
            ∀ i, (t.core c).blockLast.get i 0 ≠ p + 1)) ∧
    (f.toNat < 768 → own.getLsbD 6 = false → ∃ t, exec (.fownWrite f own) s = .next t ∧ t = { s with fown := t.fown } ∧
      t.fownOf f.toNat = (s.fownOf f.toNat &&& 0x80) ||| (own &&& 0x3F) ∧ ∀ g, g ≠ f.toNat → t.fownOf g = s.fownOf g) ∧
    (f.toNat < 768 → own.getLsbD 6 = true →
      let ok := (s.fownOf f.toNat).getLsbD 6 = false ∧ (s.fownOf f.toNat).getLsbD 7 = false ∧
        fenceOf s (own.extractLsb' 0 6).toNat = fidIn s.fmap (f.toNat / 96)
      (¬ok → ∃ t, exec (.fownWrite f own) s = .next t ∧ refusedAs s t 3) ∧
      (ok → ∃ t, exec (.fownWrite f own) s = .next t ∧ t = { s with fown := t.fown } ∧
        t.fownOf f.toNat = 0xC0 ||| (own &&& 0x3F) ∧ ∀ g, g ≠ f.toNat → t.fownOf g = s.fownOf g)) ∧
    (f.toNat < 768 → (s.fownOf f.toNat).getLsbD 7 = true →
      ∃ t, exec (.frameZeroed f) s = .next t ∧ t = { s with mem := t.mem, poison := t.poison, cells := t.cells, fown := t.fown } ∧
        (∀ a, t.mem.get a = if a / 2 ^ 30 = f.toNat then 0 else s.mem.get a) ∧
        t.fownOf f.toNat = s.fownOf f.toNat &&& 0x7F ∧ ∀ g, g ≠ f.toNat → t.fownOf g = s.fownOf g) ∧
    (∀ (fn : BitVec 6) (off : BitVec 18) (size : Nat),
      (fn = 0 → 0x30C00 ≤ off.toNat → off.toNat < 0x30F00 → size = 1 →
        exec (.registerWrite fn off size val) s = exec (.fownWrite (BitVec.ofNat 10 (off.toNat - 0x30C00)) (val.setWidth 8)) s) ∧
      (¬(fn = 0 ∧ 0x30C00 ≤ off.toNat ∧ off.toNat < 0x30F00 ∧ size = 1) → (size ≠ 8 ∨ off.toNat % 8 ≠ 0) →
        exec (.registerWrite fn off size val) s = .next s) ∧
      (size = 8 → fn = 0 → off = 0x30110 → exec (.registerWrite fn off size val) s = .next { s with merr := s.merr &&& ~~~(val &&& 0x3F) }) ∧
      (size = 8 → fn = 0 → off = 0x30380 → exec (.registerWrite fn off size val) s = .next { s with capsel := val &&& 0x3F07 }) ∧
      (size = 8 → fn = 0 → off = 0x30100 → exec (.registerWrite fn off size val) s = exec (.fmapWrite val) s) ∧
      (size = 8 → off = 0x300C0 → exec (.registerWrite fn off size val) s = exec (.astbWrite fn val) s) ∧
      (size = 8 → off = 0x300D0 → (s.fn fn.toNat).fqctl.getLsbD 63 = false →
        exec (.registerWrite fn off size val) s = .next (s.modFn fn.toNat fun x => { x with fqbase := val &&& 0x01FFFFFFFFFFF000 })))

namespace Sys2Proof.Claim

/-- The ring of an AQI as a control value gives it lies in the function's host window (R34, R35). -/
def ringInWindow (s : State) (f : Nat) (base : Dword) (logn : Nat) : Prop :=
  (s.fn f).pwinBase.toNat / 4096 % 2 ^ 45 * 4096 ≤ base.toNat / 4096 % 2 ^ 45 * 4096 ∧
    base.toNat / 4096 % 2 ^ 45 * 4096 + 64 * 2 ^ logn ≤ (s.fn f).pwinLim.toNat / 4096 % 2 ^ 45 * 4096

/-- An AQI has entered error state (R37, R40): STATUS holds the code and the slot, and a message goes out on VECE,
or pends where that entry is masked (R47). -/
def aqiHalted (s t : State) (f n code fidx : Nat) : Prop :=
  let e := ((s.aqi f n).ctl.extractLsb' 26 5).toNat
  let m := (s.fn f).msixTab.getD e MsixEntry.reset
  t = s.setFn f (t.fn f) ∧
    (m.ctl.getLsbD 0 = false →
      t.fn f = { s.fn f with aqis := (t.fn f).aqis, msix := (s.fn f).msix ++ [e], msixOut := (s.fn f).msixOut ++ [(m.addr, m.data)] }) ∧
    (m.ctl.getLsbD 0 = true →
      t.fn f = { s.fn f with aqis := (t.fn f).aqis, msix := (s.fn f).msix ++ [e], msixPend := (t.fn f).msixPend } ∧
        ∀ i < 32, (t.fn f).msixPend.getLsbD i = ((s.fn f).msixPend.getLsbD i || i == e)) ∧
    (∀ m, m ≠ n → t.aqi f m = s.aqi f m) ∧
    t.aqi f n = { s.aqi f n with status := BitVec.ofNat 64 (fidx * 65536 + code), halt := true }

/-- The slot that an AQI reads next (R35, R39). -/
def nextSlot (s : State) (f n : Nat) : Nat := (s.aqi f n).rbase.toNat / 4096 % 2 ^ 45 * 4096 + 64 * (s.aqi f n).head.toNat

/-- Word i of the packet in that slot. -/
def slotWord (s : State) (f n i : Nat) : Nat := leNat (s.hostRead f (s.aqi f n).pasid (nextSlot s f n + 8 * i) 8)

/-- An AQI with a slot to read, whose host page is translated and whose bytes no access under way holds (R270). -/
def mayFetch (s : State) (f n : Nat) : Prop :=
  partOn s f = true ∧ (s.aqi f n).en = true ∧ (s.aqi f n).halt = false ∧ (s.aqi f n).head ≠ (s.aqi f n).tail ∧
    s.hostMapped f (s.aqi f n).pasid (nextSlot s f n) 64 false = none ∧
    s.hostSettled f (s.aqi f n).pasid (nextSlot s f n) 64 false = s

/-- 64 µs have gone by on the X-die that carries the function since the oldest doorbell whose slots are not all accepted (R39). -/
def slotTimeOver (s : State) (f n : Nat) : Prop := ∃ b l, (s.aqi f n).bells = b :: l ∧ 16000 ≤ (s.times.getD (16 + f / 32) 0 - b.2).toNat

/-- No group that runs its strand again holds this TOKEN. -/
def notOpen (s : State) (tok : Word) : Prop :=
  (∀ x ∈ s.cores, ∀ w ∈ x.2.crews, ∀ g ∈ w.groups, g.openToken ≠ some tok) ∧
    ∀ x ∈ s.dies, ∀ q ∈ x.2.queue, ∀ w, q.saved = some w → ∀ g ∈ w.groups, g.openToken ≠ some tok

end Sys2Proof.Claim

/-- ASTB, GCMD, FQCTL, FQHEAD, FRES, AQI_CTL and doorbell writes, fetching a packet, and host write errors (R34, R35, R36, R37, R38, R39, R40, R41, R49, R144, R149, R184). The model's choices here: STATUS and FIDX of an AQI that is already halted at a second error (log 79, DESIGN CHOICE); when ASTB, GCMD and FQCTL are ignored or act (log 60, DEDUCED); that a partition's AQI fetches nothing until EN is 1 (log 81, DESIGN CHOICE). -/
def Obligations.FunctionRegisters : Prop :=
  ∀ (s : State) (fn : BitVec 6) (val : Dword),
    let f := fn.toNat
    let x := s.fn f
    ((∀ n < 32, (s.aqi f n).en = false) → s.holdsFrame f ((val.extractLsb' 9 10).toNat * 2 ^ 30) = true →
      exec (.astbWrite fn val) s = .next (s.modFn f fun x => { x with astb := val &&& 0x800000000007FFFF })) ∧
    ((∃ n < 32, (s.aqi f n).en = true) ∨ s.holdsFrame f ((val.extractLsb' 9 10).toNat * 2 ^ 30) = false → exec (.astbWrite fn val) s = .next s) ∧
    (val.getLsbD 63 = true → x.gcmd.getLsbD 63 = true → exec (.gcmdWrite fn val) s = .next s) ∧
    (val.getLsbD 63 = true → x.gcmd.getLsbD 63 = false → s.asEntry? f (val.extractLsb' 0 20).toNat = none →
      exec (.gcmdWrite fn val) s = .next (s.modFn f fun x => { x with gcmd := BitVec.ofNat 64 (2 ^ 62 + (val.extractLsb' 0 20).toNat) })) ∧
    (∀ a, val.getLsbD 63 = true → x.gcmd.getLsbD 63 = false → s.asEntry? f (val.extractLsb' 0 20).toNat = some a →
      ∃ t, exec (.gcmdWrite fn val) s = .next t ∧ (t.fn f).gcmd = BitVec.ofNat 64 (2 ^ 63 + (val.extractLsb' 0 20).toNat) ∧
        t.mem = (s.devWrite (a + 8) (leBytes 2 (s.genOf f (val.extractLsb' 0 20).toNat + 1))).mem ∧
        ∀ c k, (c, k) ∈ t.clusters → ∀ e ∈ k.tlb, ¬(e.fn = f ∧ e.pasid = (val.extractLsb' 0 20).toNat)) ∧
    (x.gcmd.getLsbD 63 = true → ∃ t, exec (.generationAdvanceDone fn) s = .next t ∧ t = s.setFn f { x with gcmd := (t.fn f).gcmd } ∧
      ∀ i < 64, (t.fn f).gcmd.getLsbD i = (x.gcmd.getLsbD i && i != 63)) ∧
    (let on := val.getLsbD 63
      let n := (x.fqhead.extractLsb' 16 4).toNat
      (x.fqctl.getLsbD 63 = false → on = true → ¬(6 ≤ n ∧ n ≤ 12 ∧ ringInWindow s f x.fqbase n) → exec (.fqctlWrite fn val) s = .next s) ∧
      (x.posts = [] → x.fqctl.getLsbD 63 = true ∨ on = false ∨ (6 ≤ n ∧ n ≤ 12 ∧ ringInWindow s f x.fqbase n) →
        ∃ t, exec (.fqctlWrite fn val) s = .next t ∧ t = s.setFn f { x with fqctl := (t.fn f).fqctl } ∧ (t.fn f).fqctl.getLsbD 63 = on ∧
          (t.fn f).fqctl.extractLsb' 16 5 = val.extractLsb' 16 5 ∧
          (t.fn f).fqctl.extractLsb' 40 20 = (if x.fqctl.getLsbD 63 = true then x.fqctl.extractLsb' 40 20 else val.extractLsb' 40 20) ∧
          (t.fn f).fqctl.extractLsb' 0 16 = (if x.fqctl.getLsbD 63 = false ∧ on = true then 0 else x.fqctl.extractLsb' 0 16) ∧
          (∀ i, i = 61 ∨ i = 62 → (t.fn f).fqctl.getLsbD i = (x.fqctl.getLsbD i && !val.getLsbD i))) ∧
      (x.posts = [] → ∃ t, exec (.fqheadWrite fn val) s = .next t ∧ t = s.setFn f { x with fqhead := (t.fn f).fqhead } ∧
        (t.fn f).fqhead.extractLsb' 0 16 = val.extractLsb' 0 16 ∧
        (t.fn f).fqhead.extractLsb' 16 4 = (if x.fqctl.getLsbD 63 = true then x.fqhead.extractLsb' 16 4 else val.extractLsb' 16 4))) ∧
    (∀ tok c w g, tokenAt? s f tok = some (c, w, g) → s.group? c w g.gid = some g → notOpen s tok →
      (g.stopped = false → exec (.fresRetry fn tok) s = .next (s.modGroup c w g.gid fun h => { recordRetry tok h with fwait := none })) ∧
      (g.stopped = true → exec (.fresRetry fn tok) s = .next (s.modGroup c w g.gid (recordRetry tok))) ∧
      recordRetry tok g = { g with fwait := some (.queue tok true), frec := { g.frec with fstat := setBits g.frec.fstat 30 30 0 } } ∧
      exec (.fresKill fn tok) s = .next (unhandledAt s g.trapAt c w g.gid g.frec.cause g.frec.faddr)) ∧
    (∀ n : BitVec 5, let a := s.aqi f n.toNat
      let logn := (val.extractLsb' 1 4).toNat
      (aqiCount s f ≤ n.toNat → exec (.aqiCtlWrite fn n val) s = .next s ∧ exec (.doorbellWrite fn n 8 val) s = .next s) ∧
      (n.toNat < aqiCount s f → a.en = true → exec (.aqiCtlWrite fn n val) s =
        .next (s.setAqi f n.toNat { a with ctl := (val &&& 0x0000000FFC0F0001) ||| (a.ctl &&& 0xFFFFF0000000001E) })) ∧
      (n.toNat < aqiCount s f → a.en = false → val.getLsbD 0 = false →
        exec (.aqiCtlWrite fn n val) s = .next (s.setAqi f n.toNat { a with ctl := val &&& 0xFFFFF00FFC0F001F })) ∧
      (n.toNat < aqiCount s f → a.en = false → val.getLsbD 0 = true → x.pasidOn = true →
        let fresh := { a with ctl := val &&& 0xFFFFF00FFC0F001F, head := 0, nextseq := 0, status := 0, tail := 0, halt := false, bells := [] }
        (6 ≤ logn ∧ ringInWindow s f a.rbase logn → exec (.aqiCtlWrite fn n val) s = .next (s.setAqi f n.toNat fresh)) ∧
        (¬(6 ≤ logn ∧ ringInWindow s f a.rbase logn) → ∃ t, exec (.aqiCtlWrite fn n val) s = .next t ∧ aqiHalted (s.setAqi f n.toNat fresh) t f n.toNat 1 0)) ∧
      (n.toNat < aqiCount s f → a.en = true → a.halt = false →
        let tail := (val.extractLsb' 16 16).toNat
        let count := (tail + a.size - a.head.toNat) % a.size
        (a.size ≤ tail ∨ val.extractLsb' 32 32 ≠ 0 → ∃ t, exec (.doorbellWrite fn n 8 val) s = .next t ∧ aqiHalted s t f n.toNat 2 0) ∧
        (tail < a.size → val.extractLsb' 32 32 = 0 → (val.extractLsb' 0 16).toNat ≠ (a.nextseq.toNat + count + 65535) % 65536 →
          ∃ t, exec (.doorbellWrite fn n 8 val) s = .next t ∧ aqiHalted s t f n.toNat 3 0) ∧
        (tail < a.size → val.extractLsb' 32 32 = 0 → (val.extractLsb' 0 16).toNat = (a.nextseq.toNat + count + 65535) % 65536 →
          exec (.doorbellWrite fn n 8 val) s = .next (if count = 0 then s
            else s.setAqi f n.toNat { a with tail := val.extractLsb' 16 16, bells := a.bells ++ [(val.extractLsb' 16 16, s.times.getD (16 + f / 32) 0)] }))) ∧
      (mayFetch s f n.toNat →
        let w0 := BitVec.ofNat 64 (slotWord s f n.toNat 0)
        (w0.extractLsb' 28 16 ≠ a.nextseq → exec (.packetFetch fn n) s = .next s ∧
          (slotTimeOver s f n.toNat → ∃ t, exec (.tornSubmission fn n) s = .next t ∧ aqiHalted s t f n.toNat 4 a.head.toNat) ∧
          (¬slotTimeOver s f n.toNat → exec (.tornSubmission fn n) s = .next s)) ∧
        (w0.extractLsb' 28 16 = a.nextseq → (w0.extractLsb' 44 20).toNat ≠ a.pasid → ∃ t, exec (.packetFetch fn n) s = .next t ∧ aqiHalted s t f n.toNat 5 a.head.toNat) ∧
        (w0.extractLsb' 28 16 = a.nextseq → (w0.extractLsb' 44 20).toNat = a.pasid → w0.extractLsb' 0 8 = 0 → w0.extractLsb' 10 14 = 0 → w0.extractLsb' 24 4 = 0 →
          slotWord s f n.toNat 1 % 64 = 0 → (∀ i, 2 ≤ i → i < 8 → slotWord s f n.toNat i = 0) →
          ∃ t k, exec (.packetFetch fn n) s = .next t ∧ t.packets = s.packets ++ [k] ∧ (∀ i < 8, (k.w.getD i 0).toNat = slotWord s f n.toNat i % 2 ^ 64) ∧ k.fn = f ∧
            k.aqi = n.toNat ∧ k.idx = a.head ∧ k.begun = false ∧ k.comp = none ∧
            let h := BitVec.ofNat 16 ((a.head.toNat + 1) % a.size)
            t.aqi f n.toNat = { a with head := h, nextseq := a.nextseq + 1, bells := a.bells.filter fun b => b.1 != h } ∧ t.mem = s.mem ∧ t.host = s.host))) ∧
    (∀ k ws, s.packet? k.id = some k → k.comp = some ws → k.crec ≠ 0 → k.vec = none → (∀ x ∈ s.packets, k.after.contains x.id = false) →
      s.hostMapped k.fn k.pasid.toNat k.crec 64 true = none →
      ∃ t u, exec (.hostWriteError (.completion k.id)) s = .next t ∧
        (u = { s with free := s.free + 1 } ∨
          u = State.hostWrite { s with free := s.free + 1 } k.fn k.pasid.toNat (k.crec + 8) ((ws.drop 1).flatMap fun v => leBytes 8 v.toNat)) ∧
        aqiHalted { u with packets := s.packets.filter fun y => y.id != k.id } t k.fn k.aqi 8 k.idx.toNat)

namespace Sys2Proof.Claim

/-- A packet that may start (R41, R43): listed, of this operation, not begun, and not held by FENCE. -/
def mayStart (s : State) (k : Packet) (op : Nat) : Prop :=
  s.packet? k.id = some k ∧ ((k.word 0).extractLsb' 16 8).toNat = op ∧ k.begun = false ∧ k.comp = none ∧
    ((k.word 0).getLsbD 9 = true → ∀ x ∈ s.packets, x.fn = k.fn → x.aqi = k.aqi → x.id < k.id → x.comp.isSome = true ∧ x.crec = 0)

/-- The record of a packet with no trap, no flags and no crews, as it completes (R48, R50). -/
def recordWords (s : State) (k : Packet) (result : Nat) (opv : Dword) : List Dword :=
  [BitVec.ofNat 64 (2 ^ 63 + result * 2 ^ 48 + ((k.word 0).extractLsb' 16 8).toNat * 2 ^ 24 + ((k.word 0).extractLsb' 28 16).toNat), k.tstart,
    s.times.getD (16 + k.fn / 32) 0, 0, (match s.launches.find? fun l => l.pkt == some k.id with | some l => l.energy | none => 0), 0, opv, 0]

/-- Every other packet is as before. -/
def otherPackets (s t : State) (id : Nat) : Prop := ∀ j, j ≠ id → t.packet? j = s.packet? j

/-- The packet has been executed, has this result, and nothing else has changed. -/
def doneAs (s t : State) (k : Packet) (result : Nat) (opv : Dword) : Prop :=
  t = { s with packets := t.packets } ∧ otherPackets s t k.id ∧ t.packet? k.id = some { k with begun := true, comp := some (recordWords s k result opv) }

/-- So too, but that a word it met uncorrectable starts its row test (R68). -/
def doneTest (s t : State) (k : Packet) (result : Nat) (rows : List Nat) : Prop :=
  t = { s with packets := t.packets, rows := rows } ∧ otherPackets s t k.id ∧ t.packet? k.id = some { k with begun := true, comp := some (recordWords s k result 0) }

/-- The snapshot id that a packet names, and the snapshot. -/
def snapId (w : Dword) : Nat := w.toNat % 8

/-- No STREAM of the snapshot is running (R53). -/
def noStream (s : State) (p i : Nat) : Prop :=
  ∀ x ∈ s.packets, ((x.word 0).extractLsb' 16 8).toNat = 0x11 → x.fn = p → x.begun = true → x.comp = none → snapId (x.word 2) ≠ i

end Sys2Proof.Claim

/-- Packets execute with their effect, their result and their OPV, and write their record (R41, R42, R48, R50, R51, R52, R53, R71, R78, R88, R92, R158). The model's choices here: the order 7, 9, 8 of SNAPCUT, and what a snapshot's map bits are (log 36, DESIGN CHOICE); ENERGY of a record as the sum of the launch's shares (log 37, DESIGN CHOICE); a LAUNCH held for room, and its scope judged before its root (log 79, DESIGN CHOICE). -/
def Obligations.PacketsExecute : Prop :=
  ∀ (s : State) (k : Packet),
    let p := k.fn
    let ends := fun (e : Instr) (result : Nat) (opv : Dword) => ∃ t, exec e s = .next t ∧ doneAs s t k result opv
    (mayStart s k 0 → ends (.nopPacket k.id) 0 0) ∧
    (mayStart s k 1 →
      let sc := ((k.word 3).extractLsb' 0 16).toNat
      let ps := (k.pasid).toNat
      let e : ScopeEnt := { ScopeEnt.free with st := .opened, parent := BitVec.ofNat 16 sc, depth := 1, hroot := true, opas := k.pasid }
      let home := ((List.range 8).filter fun d => fidIn s.fmap d == fenceOf s p).headD 0
      let t0 := readTask s p ps (k.word 2)
      (s.queueRoom home p = false → exec (.launch k.id) s = .next s) ∧ (s.queueRoom home p = true →
      ((s.scope p sc).st = .opened ∨ (s.scope p sc).st = .cancelling → ends (.launch k.id) 4 0) ∧
      (∀ code, (s.scope p sc).st = .free → rootFault s p ps (k.word 2) = some code →
        ∃ t k', exec (.launch k.id) s = .next t ∧ t = { s with packets := t.packets, rows := t.rows } ∧ otherPackets s t k.id ∧ t.packet? k.id = some k' ∧
          ∃ v ws, k'.comp = some (v :: ws) ∧ v.extractLsb' 48 8 = 2 ∧ v.extractLsb' 32 8 = code ∧ v.getLsbD 56 = true ∧ ws.getD 2 0 = k.word 2) ∧
      ((s.scope p sc).st = .free → rootFault s p ps (k.word 2) = none →
        ∃ t q, exec (.launch k.id) s = .next t ∧ (t.die home).queue = (s.die home).queue ++ [q] ∧ (∀ d, d ≠ home → (t.die d).queue = (s.die d).queue) ∧
          t.launches = s.launches ∧ q.part = p ∧ q.pasid = k.pasid ∧ q.prio = ((s.aqi p k.aqi).ctl.extractLsb' 16 4).toNat ∧ q.bin = binOf t0.key ∧
          q.task.scopeId = sc ∧ q.task.prio = ((s.aqi p k.aqi).ctl.extractLsb' 16 4).toNat ∧ q.task = { t0 with scope := q.task.scope } ∧
          q.root = some (readRoot s p ps (k.word 2)) ∧ q.saved = none ∧ q.pkt = some k.id ∧ q.addr = k.word 2 ∧
          t.scope p sc = e ∧ t.packet? k.id = some { k with begun := true } ∧ otherPackets s t k.id))) ∧
    (mayStart s k 2 →
      let sc := ((k.word 2).extractLsb' 0 16).toNat
      let e := s.scope p sc
      (e.st = .free → ends (.cancelPacket k.id) 4 0) ∧
      (e.st ≠ .free → e.pend = 0xFFFFFFFF → ends (.cancelPacket k.id) 10 0) ∧
      (e.st = .opened → s.inSubtree p sc 15 sc = true → e.pend ≠ 0xFFFFFFFF →
        ∃ t, exec (.cancelPacket k.id) s = .next t ∧ (t.scope p sc).st = .cancelling ∧ (t.scope p sc).pend = e.pend + 1 ∧
          (t.scope p sc).packets = e.packets ++ [k.id] ∧ (∀ d < 8, fidIn s.fmap d = fenceOf s p → (p, sc) ∈ (t.die d).cancels) ∧ t.cores = s.cores)) ∧
    (mayStart s k 3 →
      let place := s.devCheck 104 p k.pasid.toNat (k.word 2) 8 .write true false
      (∀ x, place = .err x → ∃ t, exec (.signal k.id) s = .next t ∧ doneTest s t k 8 (s.testVa p k.pasid.toNat (k.word 2) 8).rows) ∧
      (∀ pa, place = .ok pa → s.devPoisoned pa 8 = true → ∃ t, exec (.signal k.id) s = .next t ∧ doneTest s t k 8 (s.startTest (pa / 4096)).rows) ∧
      (∀ pa, place = .ok pa → s.devPoisoned pa 8 = false →
        (s.cells.contains pa = false ∨ s.dev64 pa = 0 ∨ s.dev64 pa + k.word 3 ≠ 0) →
        ∃ t, exec (.signal k.id) s = .next t ∧ t.mem = (s.devWrite pa (leBytes 8 (s.dev64 pa + k.word 3).toNat)).mem ∧ t.host = s.host ∧ t.cores = s.cores ∧
          t.packet? k.id = some { k with begun := true, comp := some (recordWords s k 0 0) })) ∧
    (mayStart s k 0x10 →
      let i := ((k.word 5).extractLsb' 32 3).toNat
      let cap := min ((k.word 5).extractLsb' 0 32).toNat (2 ^ 30)
      let base := (k.word 2).toNat
      let n := (k.word 3).toNat
      let jour := (k.word 4).toNat
      let pagesJ := cap + (n + 1023) / 1024
      let clash := (s.snap p i).phase ≠ .free ∨ ∃ j < 8, j ≠ i ∧ (s.snap p j).phase ≠ .free ∧
        (s.snap p j).base / 4096 < base / 4096 + n ∧ base / 4096 < (s.snap p j).base / 4096 + (s.snap p j).pages
      let overlap := base / 4096 < jour / 4096 + pagesJ ∧ jour / 4096 < base / 4096 + n
      (clash → ends (.snapcut k.id) 7 0) ∧
      (¬clash → cap = 0 ∨ overlap → ends (.snapcut k.id) 9 0) ∧
      (¬clash → 0 < cap → ¬overlap → 1 ≤ n → n ≤ 2 ^ 33 → base % 4096 = 0 → jour % 4096 = 0 →
        ((∃ x < pagesJ, physPage s p k.pasid.toNat (jour + 4096 * x) .write = none) → ends (.snapcut k.id) 8 0) ∧
        ((∀ x < pagesJ, physPage s p k.pasid.toNat (jour + 4096 * x) .write ≠ none) →
          (∀ x < pagesJ, ∀ pa, physPage s p k.pasid.toNat (jour + 4096 * x) .write = some pa → s.snapPagesIn pa (pa + 4096) = []) →
          ∃ t, exec (.snapcut k.id) s = .next t ∧ (t.snap p i).phase = .holding ∧ (t.snap p i).pasid = k.pasid ∧ (t.snap p i).base = base ∧
            (t.snap p i).pages = n ∧ (t.snap p i).cap = cap ∧ (t.snap p i).used = 0 ∧ (t.snap p i).pkt = k.id ∧
            (∀ j < 8, j ≠ i → t.snap p j = s.snap p j) ∧ t.packet? k.id = some { k with begun := true } ∧
            ∀ x, cap ≤ x → x < pagesJ → ∀ pa, physPage s p k.pasid.toNat (jour + 4096 * x) .write = some pa → ∀ b < 4096, t.mem.get (pa + b) = 0))) ∧
    (∀ (b : BitVec 6) (j : BitVec 3), (s.snap b.toNat j.toNat).phase = .holding → (s.snap b.toNat j.toNat).pkt = k.id → s.packet? k.id = some k → k.fn = b.toNat →
      ∃ t, exec (.cutSwitch b j) s = .next t ∧ t.snap b.toNat j.toNat = { s.snap b.toNat j.toNat with phase := .active } ∧ t.mem = s.mem ∧
        t.packet? k.id = some { k with comp := some (recordWords s k 0 (s.times.getD (16 + b.toNat / 32) 0)) }) ∧
    (mayStart s k 0x11 →
      let i := snapId (k.word 2)
      let first := (k.word 3).toNat
      ((s.snap p i).phase ≠ .active → ends (.stream k.id) 7 0) ∧
      ((s.snap p i).phase = .active → (s.snap p i).overflowed = true → ends (.stream k.id) 5 0) ∧
      ((s.snap p i).phase = .active → (s.snap p i).overflowed = false → k.pos = 0 → 1 ≤ (k.word 4).toNat → first < (s.snap p i).pages →
        (pageTaken s (s.snap p i) first = true → s.devPoisoned (State.mapWord (s.snap p i) first) 4 = false → ends (.stream k.id) 6 0) ∧
        (pageTaken s (s.snap p i) first = false → k.word 4 = 1 → s.hostMapped p k.pasid.toNat (k.word 5).toNat 4096 true = none →
          ∃ t, exec (.stream k.id) s = .next t ∧ t.mem = (markTaken s (s.snap p i) first).mem ∧
            t.host = (s.hostWrite p k.pasid.toNat (k.word 5).toNat (s.mem.getBytes (imageAt s (s.snap p i) first) 4096)).host ∧ t.parts = s.parts ∧
            t.packet? k.id = some { k with begun := true, comp := some (recordWords s k 0 1) }))) ∧
    (mayStart s k 0x12 →
      let i := snapId (k.word 2)
      noStream s p i →
        ((s.snap p i).phase ≠ .active → ends (.snapend k.id) 7 0) ∧
        ((s.snap p i).phase = .active → ∃ t, exec (.snapend k.id) s = .next t ∧ t.snap p i = Snap.reset ∧ (∀ j < 8, j ≠ i → t.snap p j = s.snap p j) ∧ t.mem = s.mem ∧
          t.packet? k.id = some { k with begun := true, comp := some (recordWords s k 0 0) })) ∧
    (∀ ws, s.packet? k.id = some k → k.comp = some ws → k.vec = none → (∀ x ∈ s.packets, k.after.contains x.id = false) →
      let msg := fun (u : State) => (k.word 0).getLsbD 8 = true → (u.fn p).msix = (s.fn p).msix ++ [((s.aqi p k.aqi).ctl.extractLsb' 31 5).toNat]
      (k.crec = 0 → ∃ t, exec (.packetCompletion k.id) s = .next t ∧ t.packet? k.id = none ∧ otherPackets s t k.id ∧ t.host = s.host ∧ msg t) ∧
      (k.crec ≠ 0 → s.hostMapped p k.pasid.toNat k.crec 64 true = none →
        ∃ t, exec (.packetCompletion k.id) s = .next t ∧ t.packet? k.id = none ∧ otherPackets s t k.id ∧ msg t ∧
          t.host = ((s.hostWrite p k.pasid.toNat (k.crec + 8) ((ws.drop 1).flatMap fun v => leBytes 8 v.toNat)).hostWrite p k.pasid.toNat k.crec
            (leBytes 8 (ws.headD 0).toNat)).host))

namespace Sys2Proof.Claim

/-- Nothing of the machine waits for a host page but what one of the function's requests names. -/
def nobodyWaits (s : State) : Prop :=
  (∀ x ∈ s.allCrews, ∀ g ∈ x.2.groups, g.fwait = none ∧ ∀ q ∈ g.splits, q.parked = none) ∧ (∀ d x, (d, x) ∈ s.dies → ∀ q ∈ x.queue, q.saved = none) ∧
    (∀ d x, (d, x) ∈ s.clusters → x.cmds = []) ∧ s.packets = []

end Sys2Proof.Claim

/-- Host translations, page requests, invalidations, walks, prefetches and rejections (R44, R45, R46, R143, R145, R146, R147, R148, R179). The model's choices here: that a rejected store or copy leaves the state as it was and is sent again (log 64, DESIGN CHOICE); that a walk time-out is an input that marks the next access (log 47, DESIGN CHOICE). -/
def Obligations.TranslationEvents : Prop :=
  ∀ (s : State) (fn : BitVec 6) (pasid : BitVec 20) (iova : Nat),
    let f := fn.toNat
    let ps := pasid.toNat
    let page := iova / 4096
    (∀ (wr : Bool) (a : AtsAnswer), (s.fn f).atsReq = [(ps, page, wr)] → (s.fn f).posts = [] → 12 ≤ a.size → (if wr = true then a.write = true else a.read = true) →
      ∃ t, exec (.atsTranslationResponse fn pasid iova (some a)) s = .next t ∧ t.fn f = { s.fn f with atsReq := [] } ∧
        t.hostXlate? f ps iova wr = some (a.hpa / 2 ^ a.size * 2 ^ a.size + iova % 2 ^ a.size) ∧ t.mem = s.mem ∧ t.host = s.host ∧ t.cores = s.cores) ∧
    (∀ (wr : Bool), (s.fn f).atsReq = [(ps, page, wr)] → (s.fn f).posts = [] → (s.fn f).priOn = true → (s.fn f).pri.length < 64 → nobodyWaits s →
      ∃ t, exec (.atsTranslationResponse fn pasid iova none) s = .next t ∧ t.fn f = { s.fn f with atsReq := [], pri := (s.fn f).pri ++ [(ps, page, wr)] } ∧
        t.ats = s.ats ∧ t.cores = s.cores) ∧
    (∀ (wr : Bool) (c w : Nat) (x : Group), (s.fn f).pri = [(ps, page, wr)] → (s.fn f).posts = [] → s.group? c w x.gid = some x → x.live = true →
      x.fwait = some (.pri f ps page) →
      ∃ t y, exec (.pageRequestResponse fn pasid iova .success) s = .next t ∧ t.fn f = { s.fn f with pri := [] } ∧ t.group? c w x.gid = some y ∧ y.fwait = none ∧
        y.splits = x.splits ∧ y.s = x.s ∧ y.m = x.m ∧ y.frec.fstat.getLsbD 30 = false) ∧
    (∀ (wr : Bool) (code : PriCode), (s.fn f).pri = [(ps, page, wr)] → (s.fn f).posts = [] → (∀ n < 32, (s.aqi f n).en = false) → nobodyWaits s →
      (∃ t, exec (.pageRequestResponse fn pasid iova code) s = .next t ∧ (t.fn f).pri = [] ∧ (t.fn f).priOn = ((s.fn f).priOn && code != .responseFailure) ∧ t.mem = s.mem) ∧
      (if 250000000 ≤ s.ageOf (.page f ps page wr) then
          ∃ t, exec (.pageRequestTimeout fn pasid iova) s = .next t ∧ (t.fn f).pri = [] ∧ (t.fn f).priOn = (s.fn f).priOn ∧ t.mem = s.mem
        else exec (.pageRequestTimeout fn pasid iova) s = .next s)) ∧
    (∀ (len : Nat), ∃ t, exec (.atsInvalidation fn pasid iova len) s = .next t ∧ (t.fn f).hostGen.get ps 0 = (s.fn f).hostGen.get ps 0 + 1 ∧
      (∀ e, e ∈ t.ats ↔ e ∈ s.ats ∧ ¬(e.fn = f ∧ e.pasid = ps ∧ e.iova < iova + len ∧ iova < e.iova + e.size)) ∧
      (∀ q, q ≠ ps → (t.fn f).hostGen.get q 0 = (s.fn f).hostGen.get q 0) ∧ t = { s with ats := t.ats, fns := t.fns } ∧
      ((s.fn f).inval = [] →
        let mine := fun (o : Out) => o.host = true ∧ ∃ x ∈ s.allCrews, x.2.part = f ∧ x.2.pasid.toNat = ps ∧ ∃ g ∈ x.2.groups, o ∈ g.outs
        ((∀ o, ¬mine o) → (t.fn f).inval = [] ∧ (t.fn f).invalDone = (s.fn f).invalDone + 1) ∧
        (∀ o, mine o → (∃ ids, (t.fn f).inval = [(ps, ids)] ∧ o.id ∈ ids) ∧ (t.fn f).invalDone = (s.fn f).invalDone))) ∧
    (∀ (cl : Nat) (va : Dword) (l : Leaf), cl < 96 → va.toNat < 2 ^ 57 → s.walkBy (some (cl / 12)) f ps va.toNat = .leaf l →
      ∃ t e rest, exec (.translationWalk cl fn pasid va) s = .next t ∧ t = { s with clusters := t.clusters } ∧ (t.cluster cl).tlb = e :: rest ∧
        (e.fn = f ∧ e.pasid = ps ∧ e.vbase = l.vbase ∧ e.size = l.size ∧ e.pbase = l.pbase ∧ e.w = l.w ∧ e.x = l.x ∧ e.gen = s.genOf f ps) ∧
        (∀ u ∈ rest, u ∈ (s.cluster cl).tlb) ∧ ∀ k, k ≠ cl → t.cluster k = s.cluster k) ∧
    (∀ (cl : Nat) (va : Dword) (x : XErr), s.walkBy (some (cl / 12)) f ps va.toNat = .err x → exec (.translationWalk cl fn pasid va) s = .next s) ∧
    (∀ (cl : Nat) (va : Dword), exec (.prefetch cl fn pasid va) s = .next s) ∧
    (∀ (r : SplitRef) (cmd : Nat), exec (.staleRejection (.store r)) s = .next s ∧ exec (.staleRejection (.copy cmd)) s = .next s) ∧
    (∀ (r : SplitRef) (w : Crew) (g : Group) (p : Split) (o : Out), s.crew? r.core r.crew = some w → w.group? r.gid = some g → g.split? r.split = some p → g.live = true →
      (∀ tag : Tag, g.outs = [o] → o.split = r.split → o.tag = some tag →
        (∀ n, tag.gen = some n → n ≠ if o.host then ((s.fn w.part).hostGen.get w.pasid.toNat 0).toNat else s.genOf w.part w.pasid.toNat) →
        p.stale < 255 → g.handler = none → g.pendTrap = none → g.holdUntil ≤ (s.core r.core).cyc.toNat →
        (∀ q ∈ s.issueQ, ¬(q.r.core = r.core ∧ q.r.crew = r.crew ∧ q.r.gid = r.gid)) →
        ∃ t y q, exec (.staleRejection (.load r)) s = .next t ∧ t.group? r.core r.crew r.gid = some y ∧ y.live = true ∧ y.outs = [] ∧ y.seq = g.seq ∧
          y.split? r.split = some q ∧ q.stale = p.stale + 1 ∧ (p.closed = false → p.barWait = none → p.atSe = none → q.pc = p.ent) ∧ t.mem = s.mem) ∧
      (∀ n, g.outs = [o] → o.tag = none ∨ o.tag = some ⟨n, some (if o.host then ((s.fn w.part).hostGen.get w.pasid.toNat 0).toNat else s.genOf w.part w.pasid.toNat)⟩ →
        exec (.staleRejection (.load r)) s = .next s) ∧
      (∃ t y, exec (.walkTimeout r) s = .next t ∧ t.group? r.core r.crew r.gid = some y ∧ y = { g with walkOut := some r.split } ∧ t = { s with cores := t.cores }))

/-- Flits sent and received, retraining, and inbound peer accesses (R16, R17, R18, R19, R20, R22, R56, R144, R266). The model's choice here: flits sent again go out whatever STOP says (log 41, DESIGN CHOICE). -/
def Obligations.LinkEvents : Prop :=
  ∀ (s : State) (i : Nat) (vc : BitVec 2) (f : Flit),
    let p := s.port i
    let only := fun (t : State) => (∀ j, j ≠ i → t.port j = s.port j) ∧ t.mem = s.mem ∧ t.host = s.host ∧ t.cores = s.cores
    let stops := fun (t : State) (x : Flit) => ∀ k < 4, (t.port i).rxBuf.getD k 0 ≤ p.rxBuf.getD k 0 ∧
      x.stop.getLsbD k = ((k == 0 || k == 2) && decide (40 < (t.port i).rxBuf.getD k 0))
    let reads := (p.bulk.filter fun e => !e.2).map (·.1)
    let out := (p.bulk.filter (·.2)).map (·.1)
    (p.down = false → p.resend = [] → p.retry.length < 512 → p.stopTx.getLsbD vc.toNat = false →
      ∃ t x n, exec (.flitTransmit i vc) s = .next t ∧ only t ∧ 1 ≤ n ∧ stops t x ∧
        t.port i = { p with
          txSeq := p.txSeq + 1, retry := p.retry ++ [x], sent := p.sent ++ [x], rxBuf := (t.port i).rxBuf
          reqs := if vc = 0 then p.reqs.drop n else p.reqs
          await := p.await ++ (if vc = 0 then (p.reqs.take n).filter fun id => !reads.contains id else if vc = 2 then out.take n else [])
          bulk := if vc = 2 then p.bulk.filter fun e => !(e.2 && (out.take n).contains e.1) else p.bulk } ∧
        x.fseq = p.txSeq + 1 ∧ x.fack = p.rxSeq ∧ x.vc = vc ∧ x.kind = .data ∧ x.len.toNat ≤ 30 ∧ x.reserved = 0 ∧ x.crc = Config.flitCrc (flitBody x)) ∧
    (p.down = false → p.resend = [] → p.retry.length < 512 →
      ∃ t x, exec (.idleFlit i) s = .next t ∧ only t ∧ stops t x ∧
        t.port i = { p with txSeq := p.txSeq + 1, retry := p.retry ++ [x], sent := p.sent ++ [x], rxBuf := (t.port i).rxBuf } ∧
        x.fseq = p.txSeq + 1 ∧ x.fack = p.rxSeq ∧ x.kind = .idle ∧ x.len = 0 ∧ x.payload = 0 ∧ x.crc = Config.flitCrc (flitBody x)) ∧
    (∀ x rest, p.down = false → p.resend = x :: rest →
      ∃ t y, exec (.flitTransmit i vc) s = .next t ∧ only t ∧ stops t y ∧ t.port i = { p with resend := rest, sent := p.sent ++ [y], rxBuf := (t.port i).rxBuf } ∧ y.fseq = x.fseq ∧ y.payload = x.payload ∧
        y.kind = x.kind ∧ y.vc = x.vc ∧ y.fack = p.rxSeq) ∧
    (let bad := f.crc ≠ Config.flitCrc (flitBody f) ∨ f.kind = .reserved ∨ 30 < f.len.toNat ∨ f.reserved ≠ 0 ∨ f.stop.getLsbD 1 = true ∨ f.stop.getLsbD 3 = true ∨
        f.fseq ≠ p.rxSeq + 1;
      (p.down = false → bad → p.retry.length < 512 →
        ∃ t x, exec (.flitReceive i f) s = .next t ∧ only t ∧ (t.port i).rxSeq = p.rxSeq ∧ (t.port i).sent = p.sent ++ [x] ∧ x.kind = .retry ∧ x.fack = p.rxSeq) ∧
      (p.down = false → ¬bad → p.due = false → (f.kind = .idle ∨ f.kind = .data) →
        ∃ t, exec (.flitReceive i f) s = .next t ∧ only t ∧ (t.port i).rxSeq = f.fseq ∧ (t.port i).stopTx = f.stop ∧ (t.port i).sent = p.sent ∧
          (t.port i).txSeq = p.txSeq ∧ ∀ y ∈ (t.port i).retry, y ∈ p.retry) ∧
      (p.down = false → ¬bad → p.due = false → f.kind = .retry → p.retries < 8 → (∀ y ∈ p.retry, y.fseq ≠ f.fack) → p.retry ≠ [] →
        ∃ t, exec (.flitReceive i f) s = .next t ∧ only t ∧ (t.port i).resend = p.retry ∧ (t.port i).rxSeq = f.fseq ∧ (t.port i).retries = p.retries + 1)) ∧
    (p.train = true → (s.times.getD (16 + i / 12) 0 - p.trainAt).toNat < 25000 →
      ∃ t, exec (.retrainComplete i) s = .next t ∧ only t ∧ t.port i = { p with down := false, train := false }) ∧
    (p.train = false ∨ 25000 ≤ (s.times.getD (16 + i / 12) 0 - p.trainAt).toNat → exec (.retrainComplete i) s = .next s) ∧
    (¬(p.train = true ∧ 25000 ≤ (s.times.getD (16 + i / 12) 0 - p.trainAt).toNat) → exec (.retrainTimeout i) s = .next s) ∧
    (p.train = true → 25000 ≤ (s.times.getD (16 + i / 12) 0 - p.trainAt).toNat → portAccesses s i = [] → ∃ t, exec (.retrainTimeout i) s = .next t ∧ only t ∧ t.port i = { p with down := true, train := false } ∧
      (t.fn 0).msix = (s.fn 0).msix ++ [1]) ∧
    (∀ (acc : PeerAccess),
      let part := (p.ppas.extractLsb' 20 6).toNat
      let ps := (p.ppas.extractLsb' 0 20).toNat
      let open_ := p.ppas.getLsbD 63 = true ∧ partOn s part = true
      let home := portFence s i = some (fenceOf s part)
      let passes := fun (pa : Nat) => xRoute s (pa / 2 ^ 30 / 96) (i / 12)
      let answered := fun (t : State) (kind : Nat) (v : Nat) => t.port i = { p with answers := p.answers ++ [(kind, BitVec.ofNat 64 v)] }
      (p.down = false → ¬open_ → ∃ t, exec (.peerInboundAccess i acc) s = .next t ∧ only t ∧ answered t 6 0) ∧
      (p.down = false → open_ → ¬home → exec (.peerInboundAccess i acc) s = .next (s.setPort i { p with dropped := p.dropped + 1 })) ∧
      (∀ pa, p.down = false → open_ → home → (acc.size = 1 ∨ acc.size = 2 ∨ acc.size = 4 ∨ acc.size = 8) →
        (acc.op = .load → s.devCheck 104 part ps acc.va acc.size .read true false = .ok pa → s.devPoisoned pa acc.size = false → passes pa = true →
          ∃ t, exec (.peerInboundAccess i acc) s = .next t ∧ only t ∧ answered t 0 (leNat (s.mem.getBytes pa acc.size))) ∧
        (acc.op = .store → s.devCheck 104 part ps acc.va acc.size .write true false = .ok pa → passes pa = true →
          ∃ t, exec (.peerInboundAccess i acc) s = .next t ∧ answered t 0 0 ∧ t.mem = (s.devWrite pa (leBytes acc.size acc.data.toNat)).mem ∧ t.cores = s.cores) ∧
        ((acc.op = .load ∧ s.devCheck 104 part ps acc.va acc.size .read true false = .ok pa) ∨
            (acc.op = .store ∧ s.devCheck 104 part ps acc.va acc.size .write true false = .ok pa) → passes pa = false →
          ∃ t, exec (.peerInboundAccess i acc) s = .next t ∧ only t ∧ answered t 6 0)))

namespace Sys2Proof.Claim

/-- Copies of TIME agree within one tick (R24): all within one of that of X0, on one side of it. -/
def timesClose (v : Vector Dword 34) : Prop :=
  let m := v.getD 16 0
  (∀ i < 34, v.getD i 0 = m ∨ v.getD i 0 = m + 1) ∨ (∀ i < 34, v.getD i 0 = m ∨ v.getD i 0 = m - 1)

/-- CUT after a control interval (R63): e is the attribution over the last 16 intervals in units of 64 nJ, cap the power cap in W. -/
def cutAfter (e cap cut : Nat) : Nat :=
  if cap = 0 then cut
  else if min cap 4200 * 2000 < e then min (cut + 1) 3
  else if e * 10 < min cap 4200 * 2000 * 9 then cut - 1
  else cut

/-- The ticks in which rail n reaches the voltage set from v mV, at 5 mV a microsecond (R65). -/
def rampTicks (s : State) (n v : Nat) : Nat :=
  let g := ((s.rail n).rvolt.extractLsb' 0 16).toNat
  50 * ((v - g) + (g - v))

/-- A crew with nothing in its Tun and no table load under way, that keeps no grist band, bank or Tun work from a stop. -/
def lightCrew (s : State) (core : Nat) (w : Crew) : Prop :=
  (∀ o ∈ (s.core core).tun, o.crew ≠ w.slot) ∧ (s.core core).ctabPend = [] ∧ w.savedGrist = none ∧ w.savedBanks = none ∧ w.cont = [] ∧
    w.charged = some (curOf s core)

/-- No trap waits in a group, and no fault record waits to be posted. -/
def noTrapWaits (s : State) : Prop :=
  (∀ x ∈ s.allCrews, ∀ g ∈ x.2.groups, g.pendTrap = none ∧ g.heldTraps = []) ∧ ∀ x ∈ s.fns, x.2.posts = []

end Sys2Proof.Claim

/-- Module reset, TIME, rail and connection changes, control intervals, heat and row tests (R24, R27, R54, R62, R63, R64, R65, R66, R68, R186). The model's choices here: when the intervals of sensors, cuts and energies begin (log 84, DESIGN CHOICE); what module reset does to device and host memory (log 66, DEDUCED); the numbering of rows and the page that is reported (log 25, DESIGN CHOICE); PEN and the launches' shares at the end of an interval (log 43, DESIGN CHOICE). -/
def Obligations.TimePowerAndHeat : Prop :=
  ∀ (s : State) (val : Dword) (core : Nat) (rail : BitVec 2) (d : BitVec 3),
    exec .moduleReset s = .next { State.reset with agenda := s.agenda, host := s.host, hostPoison := s.hostPoison, free := s.free, nextId := s.nextId } ∧
    (∀ slip : BitVec 34, (∀ i < 34, s.timeAdj.getD i 0 = 0) → timesClose s.times → (∀ x ∈ s.allCrews, ∀ g ∈ x.2.groups, ∀ q ∈ g.splits, q.waiting = none) → noTrapWaits s →
      (∀ x ∈ s.allCrews, ∀ g ∈ x.2.groups, groupDoomed s x.1 x.2 g = false ∨ x.2.groupWaits g = false) → (∀ x ∈ s.fns, x.2.inval = []) →
      ∃ t, exec (.timeTick slip) s = .next t ∧ t = { s with times := t.times, timeAdj := t.timeAdj, cores := t.cores, since := t.since, worked := t.worked } ∧ timesClose t.times ∧
        (∀ i < 34, t.times.getD i 0 = s.times.getD i 0 ∨ t.times.getD i 0 = s.times.getD i 0 + 1) ∧
        (slip = 0 → ∀ i < 34, t.times.getD i 0 = s.times.getD i 0 + 1)) ∧
    ((s.times.getD 16 0 - s.pulseAt).toNat < 4096 → exec .alignmentPulse s = .next s) ∧
    (4096 ≤ (s.times.getD 16 0 - s.pulseAt).toNat → ∃ t, exec .alignmentPulse s = .next t ∧ t = { s with timeAdj := t.timeAdj, pulseAt := s.times.getD 16 0 } ∧ ∀ i < 34, t.timeAdj.getD i 0 =
      if s.times.getD i 0 = s.times.getD 16 0 + 1 then 1 else if s.times.getD i 0 = s.times.getD 16 0 - 1 then 2 else 0) ∧
    (let v := (val.extractLsb' 0 16).toNat
      let r := s.rail rail.toNat
      (v < 600 ∨ 850 < v ∨ v % 10 ≠ 0 → ∃ t, exec (.rvoltWrite rail val) s = .next t ∧ refusedAs s t 4) ∧
      (600 ≤ v → v ≤ 850 → v % 10 = 0 → v = (r.rvolt.extractLsb' 0 16).toNat → exec (.rvoltWrite rail val) s = .next s) ∧
      (600 ≤ v → v ≤ 850 → v % 10 = 0 → v ≠ (r.rvolt.extractLsb' 0 16).toNat →
        ∃ t, exec (.rvoltWrite rail val) s = .next t ∧ t = { s with rails := t.rails, changes := t.changes } ∧ (∃ c ∈ t.changes, c.target = .rail rail.toNat) ∧
          ((t.rail rail.toNat).rvolt.extractLsb' 0 16).toNat = v ∧ (t.rail rail.toNat).rvolt.extractLsb' 16 16 = r.rvolt.extractLsb' 16 16)) ∧
    (let old := (s.die d.toNat).rsw
      ∃ t, exec (.rswWrite d val) s = .next t ∧ t = { s with dies := t.dies, changes := t.changes } ∧ (∀ e, e ≠ d.toNat → t.die e = s.die e) ∧
        (t.die d.toNat).rsw.extractLsb' 0 24 = val.extractLsb' 0 24 ∧
        (∀ c < 12, (t.die d.toNat).rsw.getLsbD (24 + c) = (old.getLsbD (24 + c) || old.extractLsb' (2 * c) 2 != val.extractLsb' (2 * c) 2)) ∧
        ∀ c < 12, old.extractLsb' (2 * c) 2 ≠ val.extractLsb' (2 * c) 2 → ∃ x ∈ t.changes, x.target = .cluster d.toNat c) ∧
    (∀ (x : RailTarget), (∀ c ∈ s.changes, c.target = x → (s.times.getD 16 0 - c.since).toNat < 12500) → exec (.quiesceTimeout x) s = .next s) ∧
    (∀ (x : RailTarget) (w : Crew), (∃ c ∈ s.changes, c.target = x ∧ 12500 ≤ (s.times.getD 16 0 - c.since).toNat) → concerned s x = [(core, w)] → s.crew? core w.slot = some w → w.halted = false →
      (∃ g ∈ w.groups, g.live = true) → (∀ g ∈ w.groups, groupDoomed s core w g = false) → lightCrew s core w → sliceFirst s core = false →
      (stoppable s core w = false → w.halting = false → exec (.quiesceTimeout x) s = .next (s.modCrew core w.slot fun v => { v with halting := true })) ∧
      (stoppable s core w = true → ∃ t w', exec (.quiesceTimeout x) s = .next t ∧ t.crew? core w.slot = some w' ∧ w'.halted = true ∧ (∀ g ∈ w'.groups, g.live = true → g.stopped = true) ∧ t.mem = s.mem)) ∧
    (∀ n : Nat, s.changes.any (fun c => c.target == .rail n) = true → (∀ y ∈ concerned s (.rail n), y.2.halted = true) →
      ((∃ c ∈ s.changes, c.target = .rail n ∧ c.ramp = none) → ∃ t, exec (.railChangeApplied (.rail n)) s = .next t ∧ t = { s with changes := t.changes } ∧
        ∀ c ∈ t.changes, c.target = .rail n → c.ramp = some (((s.rail n).rvolt.extractLsb' 16 16).toNat, s.times.getD 16 0)) ∧
      ((∀ c ∈ s.changes, c.target = .rail n → ∃ v t0, c.ramp = some (v, t0) ∧ (s.times.getD 16 0 - t0).toNat < rampTicks s n v) →
        exec (.railChangeApplied (.rail n)) s = .next s)) ∧
    (∀ (x : RailTarget), s.changes.any (fun c => c.target == x) = true → (∀ y ∈ concerned s x, y.2.halted = true) →
      (∀ e c, x = .cluster e c → (s.cluster (12 * e + c)).cmds = []) →
      (∀ n, x = .rail n → ∀ c ∈ s.changes, c.target = x → ∃ v t0, c.ramp = some (v, t0) ∧ rampTicks s n v ≤ (s.times.getD 16 0 - t0).toNat) →
      ∃ t, exec (.railChangeApplied x) s = .next t ∧ t = { s with dies := t.dies, rails := t.rails, changes := t.changes, cores := t.cores } ∧ (∀ c ∈ t.changes, c.target ≠ x) ∧
        (∀ y, (t.core y).crews = (s.core y).crews) ∧
        (∀ n, x = .rail n → (t.rail n).rvolt.extractLsb' 16 16 = (s.rail n).rvolt.extractLsb' 0 16 ∧ (t.rail n).rvolt.extractLsb' 0 16 = (s.rail n).rvolt.extractLsb' 0 16) ∧
        (∀ e c, x = .cluster e c → c < 12 → (t.die e).rsw.getLsbD (24 + c) = false ∧ (t.die e).rsw.extractLsb' 0 24 = (s.die e).rsw.extractLsb' 0 24)) ∧
    exec (.railOvercurrent rail) s = .next (s.setRail rail.toNat { s.rail rail.toNat with throttled := true, overAt := s.times.getD 16 0 }) ∧
    exec (.throttleRelease rail) s = .next (if 2000 ≤ (s.times.getD 16 0 - (s.rail rail.toNat).overAt).toNat
      then s.setRail rail.toNat { s.rail rail.toNat with throttled := false } else s) ∧
    (∀ energy, (s.times.getD 16 0 - s.intervalAt).toNat < 2000 → exec (.controlIntervalEnd energy) s = .next s) ∧
    (∀ (energy : List (Nat × Nat)) (p : Nat), p < 64 → (∃ e, (p, e) ∈ energy) → 2000 ≤ (s.times.getD 16 0 - s.intervalAt).toNat →
      let x := s.part p
      let of := fun (l : List (Nat × Nat)) => ((l.filter fun y => y.1 == p).map (·.2)).sum
      let u := max (if p ∈ s.worked then of energy else 0) (of s.spent)
      ∃ t, exec (.controlIntervalEnd energy) s = .next t ∧ t.mem = s.mem ∧ (t.part p).hist = (u :: x.hist).take 16 ∧
        (t.part p).pen = (if x.pcfg0.getLsbD 63 = true then x.pen + BitVec.ofNat 64 u else x.pen) ∧
        ((t.part p).pcfg0.extractLsb' 0 2).toNat = cutAfter ((u :: x.hist).take 16).sum (x.pcfg0.extractLsb' 16 16).toNat (x.pcfg0.extractLsb' 0 2).toNat ∧
        (t.part p).pcfg0.extractLsb' 2 62 = x.pcfg0.extractLsb' 2 62 ∧
        ∀ (i : Nat) (l : Launch), s.launches[i]? = some l → l.part = p → ∃ e : Dword, e.toNat ≤ u - of s.spent ∧ t.launches[i]? = some { l with energy := l.energy + e }) ∧
    (∀ temp : Nat, core < 768 → (s.core core).crews = [] → (s.core core).hot = false →
      let tc := ((s.die (core / 96)).therm.extractLsb' 8 8).toNat
      let thot := ((s.die (core / 96)).therm.extractLsb' 0 8).toNat
      let now := s.timeOf (dieOf core)
      let old := s.core core
      let since := if (thot < temp ↔ thot < old.temp) ∧ (temp + 4 ≤ thot ↔ old.temp + 4 ≤ thot) then old.cutAt else now
      let ready := 2500 ≤ (now - old.tempAt).toNat
      (¬ready → exec (.temperatureRead core temp) s = .next s) ∧
      (ready → temp < tc → ∃ t, exec (.temperatureRead core temp) s = .next t ∧ t.core core = { old with temp := temp, tempAt := now, cutAt := since } ∧ t.fns = s.fns ∧
        ∀ c, c ≠ core → t.core c = s.core c) ∧
      (ready → tc ≤ temp → ∃ t, exec (.temperatureRead core temp) s = .next t ∧ t.core core = { old with temp := temp, hot := true, tempAt := now, cutAt := since } ∧
        (t.fn 0).msix = (s.fn 0).msix ++ [0] ∧ ∀ c, c ≠ core → t.core c = s.core c)) ∧
    (let k := s.core core
      let thot := ((s.die (core / 96)).therm.extractLsb' 0 8).toNat
      let goes := fun (n : Nat) => exec (.thermalCutStep core) s = .next (s.setCore core { k with cut := n, cutAt := s.timeOf (dieOf core) })
      ((s.timeOf (dieOf core) - k.cutAt).toNat < 25000 → exec (.thermalCutStep core) s = .next s) ∧
      (25000 ≤ (s.timeOf (dieOf core) - k.cutAt).toNat →
        (k.temp + 4 ≤ thot → goes (k.cut - 1)) ∧ (k.temp ≤ thot → thot < k.temp + 4 → goes k.cut) ∧
        (thot < k.temp → (∃ w ∈ k.crews, nowhere s core w = true) → goes (min (k.cut + 1) 3)) ∧
        (thot < k.temp → (∀ w ∈ k.crews, nowhere s core w = false) → goes k.cut))) ∧
    (∀ (row : Nat) (pass spare : Bool), row ∈ s.rows →
      let array := 2 ^ 40 ≤ row
      let e := if array then (row - 2 ^ 40) / 96 else row / 2 ^ 18 / 96
      let c := (s.die e).ecnt
      ∃ t, exec (.rowTestDone row pass spare) s = .next t ∧ row ∉ t.rows ∧ t.mem = s.mem ∧
        (pass = true → ((t.die e).ecnt.extractLsb' 32 16).toNat = min ((c.extractLsb' 32 16).toNat + 1) 0xFFFF ∧ (t.die e).ecnt.extractLsb' 48 16 = c.extractLsb' 48 16) ∧
        (pass = false → ((t.die e).ecnt.extractLsb' 48 16).toNat = min ((c.extractLsb' 48 16).toNat + 1) 0xFFFF ∧ (t.die e).ecnt.extractLsb' 32 16 = c.extractLsb' 32 16) ∧
        (pass = false → spare = false → array → (t.core (row - 2 ^ 40)).withdrawn = true) ∧
        (pass = false → spare = false → row < 2 ^ 28 → (s.fownOf (row / 2 ^ 18)).getLsbD 6 = true →
          (s.fn ((s.fownOf (row / 2 ^ 18)).extractLsb' 0 6).toNat).pgerr = 0 →
          (t.fn ((s.fownOf (row / 2 ^ 18)).extractLsb' 0 6).toNat).pgerr = BitVec.ofNat 64 (2 ^ 63 + row * 2 ^ 12)))

namespace Sys2Proof.Claim

/-- The online cores of a die and type that no request holds (R102). -/
def spreFree (s : State) (d : Nat) (l : Bool) : List Nat :=
  ((List.range 96).map fun i => 96 * d + i).filter fun c => isL c == l && !(s.core c).withdrawn && !(s.die d).held.any fun h => h.core == c

/-- Core a ranks before core b for a request (R102): no resident crew, then the fewest resident groups that have not ended, then the lowest number. -/
def ranksBefore (s : State) (a b : Nat) : Prop :=
  let free := fun (c : Nat) => (s.core c).crews = []
  let n := fun (c : Nat) => ((s.core c).crews.map fun w => (w.groups.filter fun g => g.live).length).sum
  (free a ∧ ¬free b) ∨ ((free a ↔ free b) ∧ (n a < n b ∨ (n a = n b ∧ a < b)))

/-- The cores that a request has taken and not yet vacated (R102). -/
def taking (x : Die) : List Nat := (x.held.filter fun h => !h.vacated).map (·.core)

/-- The tile of a generated record (R79). -/
def tileOf (l : Launch) (i : Nat) : Dword :=
  let nx := l.ext.nxm.toNat + 1
  let ny := l.ext.nym.toNat + 1
  BitVec.ofNat 64 (l.step * 2 ^ 48 + i / nx / ny * 2 ^ 32 + i / nx % ny * 2 ^ 16 + i % nx)

end Sys2Proof.Claim

/-- SPRE requests, generated records, steps, binding, stealing, slices, resumption and retirement (R60, R69, R73, R75, R78, R79, R81, R84, R86, R102, R103, R185). The model's choices here: that stealing never takes a launch root, where R84 excludes LOCAL records only (log 52, DESIGN CHOICE); who takes a fence that nobody holds (log 50, DESIGN CHOICE). -/
def Obligations.DispatchEvents : Prop :=
  ∀ (s : State) (b : BitVec 3) (val : Dword) (core : Nat),
    let d := b.toNat
    let x := s.die d
    (x.spre.getLsbD 63 = true → exec (.spreRequest b val) s = .next s ∧ exec (.spreRelease b val) s = .next s) ∧
    (x.spre.getLsbD 63 = false → val.getLsbD 63 = true →
      let n := (val.extractLsb' 0 7).toNat
      let l := val.getLsbD 56
      let p := (val.extractLsb' 50 6).toNat
      let el := spreFree s d l
      let good := 1 ≤ n ∧ n ≤ (if l then 24 else 72) ∧ n ≤ el.length ∧ (val.getLsbD 49 = true → partOn s p = true ∧ fenceOf s p = fidIn s.fmap d)
      (¬good → ∃ t, exec (.spreRequest b val) s = .next t ∧ t = s.setDie d { x with spre := (t.die d).spre } ∧
        ∀ i < 64, (t.die d).spre.getLsbD i = (x.spre.getLsbD i || i == 61)) ∧
      (good → ∃ t new, exec (.spreRequest b val) s = .next t ∧ (t.die d).spre.getLsbD 63 = true ∧ (t.die d).held = x.held ++ new ∧ new.length = n ∧
        (∀ h ∈ new, h.core ∈ el ∧ h.vacated = false ∧ h.forPart = if val.getLsbD 49 = true then some p else none) ∧ (new.map (·.core)).Nodup ∧
        (∀ h ∈ new, ∀ c ∈ el, (∀ k ∈ new, k.core ≠ c) → ranksBefore s h.core c) ∧ t = { s with dies := t.dies, cores := t.cores } ∧
        (∀ e, e ≠ d → t.die e = s.die e) ∧ (∀ c, t.core c = { s.core c with crews := (t.core c).crews }) ∧
        ∀ c n w, s.crew? c n = some w → t.crew? c n = some
          (if (∃ h ∈ new, h.core = c) ∧ w.halted = false ∧ (∃ g ∈ w.groups, g.live = true) then { w with halting := true } else w))) ∧
    (x.spre.getLsbD 63 = false → val.getLsbD 63 = false → ∃ t, exec (.spreRelease b val) s = .next t ∧ (t.die d).held = [] ∧ (t.die d).spre.getLsbD 62 = false ∧
      (t.die d).spre.getLsbD 61 = false ∧ t = { s with dies := t.dies }) ∧
    (x.spre.getLsbD 63 = true → (∀ y ∈ s.allCrews, y.1 ∉ taking x) → ∃ t, exec (.spreDone b) s = .next t ∧ (t.die d).spre.getLsbD 63 = false ∧
      (t.die d).spre.getLsbD 62 = true ∧ (∀ h ∈ (t.die d).held, h.vacated = true) ∧ (t.die d).held.map (·.core) = x.held.map (·.core) ∧ t.cores = s.cores) ∧
    (∀ (p : BitVec 6) (id : Word) (i : Nat) (l : Launch) (y : Slot), s.launch? p.toNat id = some l → l.slots[i]? = some y → y.next < y.stop → l.stopped = false → dieRoute s l.home y.die = true →
      unbound s y.die p.toNat id < 64 → s.queueRoom y.die p.toNat = true → taskBad s p.toNat l.pasid.toNat (tileRec l y.next) (96 + y.die) = false →
      ∃ t q l', exec (.generateRecord p id i) s = .next t ∧ (t.die y.die).queue = (s.die y.die).queue ++ [q] ∧ q.part = p.toNat ∧ q.pasid = l.pasid ∧ q.byGen = true ∧
        q.task.tile = tileOf l y.next ∧ q.task.launch = l.id ∧ q.task.succ = 0 ∧ q.task.code = l.task.code ∧ q.task.args = l.task.args ∧ q.task.isRoot = false ∧
        t.launch? p.toNat id = some l' ∧ l'.alive = l.alive + 1 ∧ l'.slots[i]? = some { y with next := y.next + 1 } ∧ t.mem = s.mem) ∧
    (∀ (p : BitVec 6) (id : Word) (l : Launch), s.launch? p.toNat id = some l → l.stopped = false → l.alive = 0 → (∀ y ∈ l.slots, y.stop ≤ y.next) →
      l.ext.stepctr = 0 → l.last = false → l.step + 1 < l.ext.steps →
      ∃ t l', exec (.stepBoundary p id) s = .next t ∧ t.launch? p.toNat id = some l' ∧ l'.step = l.step + 1 ∧ l'.stopped = false ∧ t.mem = s.mem) ∧
    (x.queue = [] → exec (.dispatchBind b) s = .next s) ∧
    (∀ (q : QRec) (e : RootExt), x.queue = [q] → q.root = some e → q.bin < 64 → q.prio < 16 → s.cancelledOn q.part d 15 q.task.scopeId = false → ∃ t l, exec (.dispatchBind b) s = .next t ∧ (t.die d).queue = [] ∧
      t.launches = s.launches ++ [l] ∧ l.part = q.part ∧ l.pasid = q.pasid ∧ l.task = q.task ∧ l.ext = e ∧ l.home = d ∧ l.pkt = q.pkt ∧ t.mem = s.mem) ∧
    (∀ (q : QRec), x.queue = [q] → q.root = none → q.saved = none → q.bin < 64 → q.prio < 16 → s.cancelledOn q.part d 15 q.task.scopeId = false → chooseCore s d q = some (core, []) → (s.core core).crews = [] →
      let c := readCode s q.part q.pasid.toNat q.task.code (96 + d)
      ∃ t w, exec (.dispatchBind b) s = .next t ∧ (t.die d).queue = [] ∧ (t.core core).crews = [w] ∧ w.part = q.part ∧ w.pasid = q.pasid ∧ w.task = q.task ∧ w.code = c ∧
        w.round = 0 ∧ w.pub = 0 ∧ w.take = 0 ∧ w.groups.length = q.task.grp ∧
        (∀ (i : Nat) (g : Group), w.groups[i]? = some g → g.gid = i ∧ g.live = true ∧ g.seq = 0 ∧ g.flags = 0 ∧ g.ctx = 0 ∧ g.frec = FaultRec.zero ∧
          (∀ j < 64, g.s.getD j 0 = if j = 0 then q.task.args else 0) ∧ (∀ j < 8, g.k.getD j 0 = 0) ∧ (∀ j < 16, g.o.getD j zeroLanes = zeroLanes) ∧
          ∃ sp, g.splits = [sp] ∧ sp.mask = BitVec.allOnes 32 ∧ sp.num = 0 ∧ sp.pc = entryOff s core q.part q.pasid.toNat c q.task.regs) ∧ t.mem = s.mem) ∧
    (∀ e r rest, lender s d = some e → loot (s.die e) (Config.freeDword s.free) = r :: rest → wantsWork s d r.part = true →
      (∀ q ∈ (s.die e).queue, s.cancelledOn q.part d 15 q.task.scopeId = false ∧ ∀ i < 65536, (s.scope q.part i).st = .opened → s.subtreeEmpty q.part i = false) →
      ∃ t got, exec (.workSteal b) s = .next t ∧ 1 ≤ got.length ∧ got.length ≤ 16 ∧ (∀ q ∈ got, q.task.isLocal = false ∧ q.root = none) ∧
        ((t.die e).queue ++ got).Perm (s.die e).queue ∧ (t.die d).queue.map (fun q => { q with spilled := false }) = (x.queue ++ got).map (fun q => { q with spilled := false }) ∧
        t.cores = s.cores ∧ t.mem = s.mem) ∧
    (let ends := d ∈ s.ending ∨ s.slice.get d 0 = 0 ∨ partOn s (s.slice.get d 0 - 1) = false ∨ hasReady s (s.slice.get d 0 - 1) d = false ∨
        s.sliceAt.get d 0 + 1024 * ((s.part (s.slice.get d 0 - 1)).pcfg0.extractLsb' 32 16).toNat ≤ fenceTime s d;
      let out := outgoing s d (nextSlice s d (s.slice.get d 0))
      (¬ends → exec (.sliceEnd b) s = .next s) ∧
      (ends → (∃ y ∈ out, stoppable s y.1 y.2 = false) → ∃ t, exec (.sliceEnd b) s = .next t ∧ t = { s with cores := t.cores, ending := t.ending } ∧ d ∈ t.ending ∧
        ∀ y ∈ out, s.crew? y.1 y.2.slot = some y.2 → t.crew? y.1 y.2.slot = some { y.2 with halting := true }) ∧
      (ends → out = [] →
      ∃ t n, exec (.sliceEnd b) s = .next t ∧ t = { s with slice := t.slice, sliceAt := t.sliceAt, ending := s.ending.filter (· != d), cores := t.cores } ∧
        (∀ c k w, s.crew? c k = some w → ∃ v, t.crew? c k = some v ∧ v = { w with halting := v.halting }) ∧ t.slice.get d 0 = n ∧ t.sliceAt.get d 0 = fenceTime s d ∧
        (∀ p, nextSlice s d (s.slice.get d 0) = some p → n = p + 1 ∧ partOn s p = true ∧ fenceOf s p = d ∧ (s.part p).pcfg0.extractLsb' 32 16 ≠ 0) ∧
        (nextSlice s d (s.slice.get d 0) = none → n = 0))) ∧
    (∀ (w : Crew) (g : Group), s.crew? core w.slot = some w → w.group? g.gid = some g → g.live = true → g.stopped = true → g.pendTrap = none → g.heldTraps = [] → mayRun s core w = true →
      (w.halted = true → w.lacking = false ∧ lightCrew s core w ∧ w.wantPaddle = false ∧ w.home = w.slot) →
      ∃ t w' g', exec (.groupResume core w.slot g.gid) s = .next t ∧ t.crew? core w.slot = some w' ∧ w'.halted = false ∧ w'.group? g.gid = some g' ∧ g'.stopped = false ∧
        g'.splits.map (fun p => { p with tunPast := [] }) = g.splits.map (fun p => { p with tunPast := [] }) ∧ g'.s = g.s ∧ g'.seq = g.seq ∧
        (∀ tok retried, g.fwait = some (.queue tok retried) → g'.fwait = none ∧ g'.openToken = if retried then none else some tok) ∧
        (∀ f ps page, g.fwait = some (.pri f ps page) → g'.fwait = none) ∧ t.mem = s.mem) ∧
    (∀ (w : Crew), s.crew? core w.slot = some w → (∀ g ∈ w.groups, g.live = false ∧ g.outs = []) → lightCrew s core w → w.killed = false → w.task.succ = 0 →
      ∃ t, exec (.crewRetire core w.slot) s = .next t ∧ t.crew? core w.slot = none ∧ (∀ c, c ≠ core → t.core c = s.core c) ∧
        ∀ v n, n ≠ w.slot → s.crew? core n = some v → t.crew? core n = some v) ∧
    (x.cells = [] → ∃ t, exec (.queueRetry b) s = .next t ∧ (t.die d) = x ∧ t.mem = s.mem ∧ t.cores = s.cores) ∧
    (∀ c, x.cells = [c] → s.cancelledOn c.part d 15 c.task.scopeId = false →
      ∃ t, exec (.queueRetry b) s = .next t ∧ t.mem = s.mem ∧ t.cores = s.cores ∧
        (s.queueRoom d c.part = false → t.die d = x) ∧
        (s.queueRoom d c.part = true → (t.die d).cells = [] ∧ ∃ q, (t.die d).queue = x.queue ++ [q] ∧ q.part = c.part ∧ q.pasid = c.pasid ∧ q.task = c.task ∧
          q.addr = c.cell + 64 ∧ q.root = none ∧ q.saved = none ∧ q.byGen = false))

namespace Sys2Proof.Claim

/-- A crew that is not killed, of a function with no ATS invalidation under way, and a group of it that lives with no trap waiting. -/
def steady (s : State) (r : SplitRef) (w : Crew) (g : Group) : Prop :=
  s.crew? r.core r.crew = some w ∧ w.group? r.gid = some g ∧ g.live = true ∧ g.pendTrap = none ∧ g.heldTraps = [] ∧ w.killed = false ∧ (s.fn w.part).inval = []

/-- The splits are as before, but that one whose words do not come after the access may read its destination's older value for a while (R224). -/
def sameSplits (g g' : Group) : Prop := g'.splits.map (fun p => { p with view := [] }) = g.splits.map (fun p => { p with view := [] })

/-- An outstanding access that the device answers itself, by a value: no failing host link ends it. -/
def answered (s : State) (o : Out) (ans : FarAnswer) : Prop := o.peer = false ∧ (o.host = false ∨ ∃ d, ans = .ok d) ∧ ∀ x ∈ s.hostRmw, x.id ≠ o.id

/-- 65,536 cycles of the core have gone by since a moment that was noted (R94, R121, R137). -/
def cyclesOver (s : State) (core : Nat) (since : Option Dword) : Prop := ∃ t, since = some t ∧ 65536 ≤ ((catchUp s core (s.core core)).cyc - t).toNat

/-- Only this group of the machine has changed, and numbers that the model gives out. -/
def onlyGroup (s t : State) (r : SplitRef) : Prop :=
  t = { s with cores := t.cores, free := t.free, nextId := t.nextId } ∧ (∀ c, c ≠ r.core → t.core c = s.core c) ∧
    (∀ n, n ≠ r.crew → t.crew? r.core n = s.crew? r.core n) ∧ ∀ n, n ≠ r.gid → t.group? r.core r.crew n = s.group? r.core r.crew n

end Sys2Proof.Claim

/-- Issue, results, acknowledgements, time-outs, cancels, migration stops and context switches (R92, R93, R94, R97, R115, R118, R122, R133, R137, R190, R262, R323). -/
def Obligations.CrewEvents : Prop :=
  ∀ (s : State) (r : SplitRef) (w : Crew) (g : Group),
    (s.issueQ ≠ [] → exec (.issueCycle r.core) s = .next s) ∧
    (s.issueQ = [] → (∀ v ∈ (s.core r.core).crews, ∀ h ∈ v.groups, h.pendTrap = none ∧ h.heldTraps = []) → ∃ t, exec (.issueCycle r.core) s = .next t ∧ t = { s with cores := t.cores, issueQ := t.issueQ } ∧ t.issueQ.length ≤ 2 ∧
      (t.core r.core).crews = (s.core r.core).crews ∧ (∀ c, c ≠ r.core → t.core c = s.core c) ∧
      (∀ u ∈ t.issueQ, u.r.core = r.core ∧ ∃ v ∈ (s.core r.core).crews, ∃ h ∈ v.groups, ∃ q ∈ h.splits, u.r.crew = v.slot ∧ u.r.gid = h.gid ∧ u.r.split = q.num ∧
        v.halted = false ∧ h.live = true ∧ h.fwait = none ∧ h.stopped = false ∧ h.pendTrap = none ∧ q.waiting = none) ∧
      (∀ u v, t.issueQ = [u, v] → u.onQ = false ∧ v.onQ = true)) ∧
    (∀ (o : Out) (i : Nat) (v : Dword) (ans : FarAnswer), steady s r w g → g.outs.find? (fun x => x.id == o.id) = some o → answered s o ans → o.contested = [] → i < 64 →
      (o.kind = .load ∨ o.kind = .special) → o.dests = [(.s i, .sc v)] →
      ∃ t g', exec (.resultReturn r o.id ans) s = .next t ∧ onlyGroup s t r ∧ t.group? r.core r.crew r.gid = some g' ∧ g'.outs = g.outs.filter (fun x => x.id != o.id) ∧
        (∀ j < 64, g'.s.getD j 0 = if j = i then v else g.s.getD j 0) ∧ g'.m = g.m ∧ g'.k = g.k ∧ sameSplits g g' ∧ g'.seq = g.seq ∧ g'.flags = g.flags) ∧
    (∀ (o : Out) (i : Nat) (v : Lanes) (ans : FarAnswer), steady s r w g → g.outs.find? (fun x => x.id == o.id) = some o → answered s o ans → o.contested = [] →
      (o.kind = .load ∨ o.kind = .special) → o.dests = [(.m i, .vec v)] →
      ∃ t g', exec (.resultReturn r o.id ans) s = .next t ∧ onlyGroup s t r ∧ t.group? r.core r.crew r.gid = some g' ∧ g'.outs = g.outs.filter (fun x => x.id != o.id) ∧
        (∀ l < 32, lane (g'.readM i) l = if o.lanes.getLsbD l = true then lane v l else lane (g.readM i) l) ∧ (∀ j, j ≠ i → g'.readM j = g.readM j) ∧
        g'.s = g.s ∧ sameSplits g g' ∧ g'.seq = g.seq) ∧
    (∀ (o : Out) (ans : FarAnswer), steady s r w g → g.outs.find? (fun x => x.id == o.id) = some o → answered s o ans → o.kind = .store → o.host = false → o.dests = [] →
      ∃ t, exec (.storeAcknowledge r o.id ans) s = .next t ∧ onlyGroup s t r ∧
        t.group? r.core r.crew r.gid = some { g with outs := g.outs.filter (fun x => x.id != o.id) }) ∧
    (∀ (o : Out) (ans : FarAnswer), steady s r w g → g.outs.find? (fun x => x.id == o.id) = some o → o.kind = .store → o.host = true →
      (∃ y ∈ s.allCrews, y.2.part = w.part ∧ y.2.pasid = w.pasid ∧ ∃ h ∈ y.2.groups, ∃ x ∈ h.outs, x.host = true ∧ x.kind = .store ∧ x.id < o.id) →
      exec (.storeAcknowledge r o.id ans) s = .next s) ∧
    (∀ (p : Split) (x : Waiting), steady s r w g → g.split? r.split = some p → p.waiting = some x → (∀ k ∈ x.conds, k ≠ .paddle ∧ condHolds s r w k = false) → x.conds ≠ [] →
      let now := (s.timeOf (dieOf r.core)).toNat
      (x.tmo ≠ 0xFFFFFFFF → x.t0.toNat + x.tmo.toNat ≤ now →
        ∃ t g' p' o, exec (.waitTimeout r) s = .next t ∧ onlyGroup s t r ∧ t.group? r.core r.crew r.gid = some g' ∧ g'.split? r.split = some p' ∧ p'.waiting = none ∧
          g'.outs = g.outs ++ [o] ∧ o.kind = .special ∧ o.dests = [(.s x.dst, .sc (BitVec.ofNat 64 (min (now - x.t0.toNat) (2 ^ 32 - 1) * 2 ^ 32 + 16)))] ∧ g'.s = g.s) ∧
      (x.tmo = 0xFFFFFFFF ∨ now < x.t0.toNat + x.tmo.toNat → exec (.waitTimeout r) s = .next s)) ∧
    (steady s r w g → ¬cyclesOver s r.core w.killAt → exec (.killTimeout r.core r.crew r.gid) s = .next s) ∧
    (steady s r w g → groupDoomed s r.core w g = true → cyclesOver s r.core w.killAt → atBoundary s r.core r.crew r.gid g = true → (∃ h ∈ w.groups, h.gid ≠ r.gid ∧ h.live = true) →
      ∃ t g', exec (.killTimeout r.core r.crew r.gid) s = .next t ∧ t.group? r.core r.crew r.gid = some g' ∧ g'.live = false ∧ g'.splits = [] ∧ t.mem = s.mem) ∧
    (∀ (b : BitVec 3) (p : BitVec 6) (sc : BitVec 16),
      let d := b.toNat
      let e := s.scope p.toNat sc.toNat
      (p.toNat, sc.toNat) ∈ (s.die d).cancels → s.subtree p.toNat sc.toNat = [sc.toNat] → e.st = .cancelling → d ∉ e.applied →
      (∀ y ∈ s.allCrews, y.2.part ≠ p.toNat) → (∀ q ∈ (s.die d).queue, q.part ≠ p.toNat) → (∀ q ∈ (s.die d).cells, q.part ≠ p.toNat) → (∀ y ∈ s.scopes, y.1 / 65536 = p.toNat → y.2.st ≠ .opened) →
      ∃ t, exec (.cancelApply b p sc) s = .next t ∧ t.scope p.toNat sc.toNat = { e with applied := e.applied ++ [d] } ∧
        (t.die d).cancels = (s.die d).cancels.erase (p.toNat, sc.toNat) ∧ t.cores = s.cores ∧
        ∀ l ∈ t.launches, l.part = p.toNat → l.task.scopeId = sc.toNat → (∀ y ∈ l.slots, y.die = d → y.stop ≤ y.next) ∧ (l.home = d → l.stopped = true)) ∧
    (∀ (p : BitVec 6) (sc : BitVec 16) (k : Packet),
      let e := s.scope p.toNat sc.toNat
      s.subtree p.toNat sc.toNat = [sc.toNat] → e.st = .cancelling → e.pend ≠ 0 → s.hasWork p.toNat [sc.toNat] = false →
      (∀ y ∈ s.scopes, y.1 / 65536 = p.toNat → y.1 % 65536 ≠ sc.toNat → y.2.pend = 0) → (∀ x ∈ s.packets, x.fn = p.toNat → x.acked = false) →
      (∀ i < 65536, (s.scope p.toNat i).st = .opened → s.subtreeEmpty p.toNat i = false) → e.acka = 0 → e.hroot = false → e.packets = [k.id] → s.packet? k.id = some k →
      ∃ t, exec (.cancelAcknowledge p sc) s = .next t ∧
        t.scope p.toNat sc.toNat = { e with st := .cancelled, ackv := e.ackv + e.pend.setWidth 64, pend := 0, packets := [] } ∧
        t.packet? k.id = some { k with comp := some (recordWords s k 0 (e.ackv + e.pend.setWidth 64)), acked := true, after := [] } ∧ t.cores = s.cores) ∧
    (∀ target : Nat, steady s r w g → w.halted = false → w.moving = false → (s.core r.core).withdrawn = false → isL target ≠ isL r.core →
      heldBy? s r.core = none → changePending s r.core = false → (∀ h ∈ w.groups, h.live = true → groupDoomed s r.core w h = false) →
      sliceFirst s r.core = false → mayMigrate s r.core target w = true → (∀ h ∈ w.groups, h.live = true → stopsAtOnce w h = false) → (∀ h ∈ w.groups, h.stopped = false) →
      ∃ t w', exec (.migration r.core r.crew target) s = .next t ∧ t = { s with cores := t.cores } ∧ t.crew? r.core r.crew = some w' ∧ w'.moving = true ∧ w'.moveAt = some (catchUp s r.core (s.core r.core)).cyc ∧
        ∀ (n : Nat) (h : Group), w'.groups[n]? = some h → ∃ h', w.groups[n]? = some h' ∧ h = { h' with migStop := h'.live || h'.migStop }) ∧
    (steady s r w g → ¬cyclesOver s r.core w.moveAt → exec (.migrationStopTimeout r.core r.crew r.gid) s = .next s) ∧
    (steady s r w g → g.migStop = true → cyclesOver s r.core w.moveAt → g.handler = none → atBoundary s r.core r.crew r.gid g = true → (∀ o ∈ g.outs, o.far = none) →
      ∃ t g', exec (.migrationStopTimeout r.core r.crew r.gid) s = .next t ∧ onlyGroup s t r ∧ t.group? r.core r.crew r.gid = some g' ∧ g'.stopped = true ∧ g'.migStop = false ∧
        g'.seq = g.seq ∧ g'.o = Vector.replicate 16 zeroLanes ∧ g'.x = Vector.replicate 4 zeroLanes ∧ g'.outs = []) ∧
    (∀ (b : BitVec 2) (m : TileMap), steady s r w g → w.halted = false → w.tiles[b.toNat]? = some m → m.phys < 4 → tileWaiters w b.toNat = [r.gid] → g.fwait = some (.context [b.toNat]) →
      ((s.core r.core).tiles.getD m.phys PhysTile.reset).owner = none →
      (let own := s.ownsFrame w.part (sysFrame s w.part * 2 ^ 30)
      (m.saved.isSome = true → own = false → exec (.accumulatorSwitch r.core r.crew b) s = .next (unhandled s r.core r.crew r.gid 0x39 0)) ∧
      (m.saved = none ∨ own = true →
      ∃ t p g', exec (.accumulatorSwitch r.core r.crew b) s = .next t ∧ t.group? r.core r.crew r.gid = some g' ∧ g' = { g with fwait := none } ∧
        p = (t.core r.core).tiles.getD m.phys PhysTile.reset ∧ p.owner = some w.ctxId ∧ p.data = m.saved.getD zeroTile ∧ p.poison = m.poison ∧ t.mem = s.mem)))

namespace Sys2Proof.Claim

/-- A command in progress that is neither performed nor aborted. -/
def underWay (s : State) (m : Cmd) (kind : Nat) : Prop := s.cmd? m.id = some m ∧ m.kind = kind ∧ m.done = false ∧ m.err = none

/-- A view after single bytes are written at a list of places, in order. -/
def bytesAt (ls : List Loc) (bs : List Byte) (view : Place → Byte) : Place → Byte := (ls.zip bs).foldl (fun v x => writtenAt 1 x.2.toNat x.1 v) view

/-- The locations of element k of a command: those read and those written. -/
def elemPlaces (s : State) (m : Cmd) (k : Nat) : List Loc × List Loc := match elemCheck s m k with | .ok e => (e.src, e.dst) | _ => ([], [])

/-- Every element of a command passes its checks. -/
def allGood (s : State) (m : Cmd) : Prop := ∀ k < m.count, ∃ e, elemCheck s m k = .ok e ∧ e.k = k

/-- The bytes at a list of places, in the state before the command. -/
def bytesThere (s : State) (ls : List Loc) : List Byte := ls.map fun l => BitVec.ofNat 8 (readThere 1 l (byteIn s))

/-- No end of the command lies in peer space, and no snapshot journals what it writes. -/
def plainEnds (s : State) (m : Cmd) : Prop := m.ssp ≠ 3 ∧ m.dsp ≠ 3 ∧ ∀ k < m.count, unjournalled s ((elemPlaces s m k).2.map fun l => (0, l))

/-- The crew that posted the command stands where it stood, and no host atomic is between its read and its write (R270). -/
def quietEnds (s : State) (m : Cmd) : Prop := m.image = none ∧ s.hostRmw = []

end Sys2Proof.Claim

/-- Copy commands of each kind, cellar streams, completion, and the steps and ends of Tun work (R93, R150, R151, R152, R153, R154, R155, R156, R158, R307, R313, R315). The model's choices here: row-major order from the bytes before the command, overlapping ends included, and the first fault in that order (log 33, DESIGN CHOICE), which R154 does not state; which steps of copies and of the Tun CUT leaves out (log 86, DESIGN CHOICE). -/
def Obligations.CopyAndTunEvents : Prop :=
  ∀ (s : State) (m : Cmd) (core : Nat) (w : Crew),
    let done := fun (t : State) => ∃ m', t.cmd? m.id = some m' ∧ m' = { m with done := true }
    let aborted := fun (t : State) (e : Nat) => ∃ m', t.cmd? m.id = some m' ∧ m' = { m with err := some (BitVec.ofNat 64 e) }
    (s.crew? core w.slot = some w → s.cancelledOn w.part (core / 96) 15 w.task.scopeId = true →
      exec (.copyStart core w.slot) s = .next (s.modCrew core w.slot fun w => { w with take := w.pub })) ∧
    (s.crew? core w.slot = some w → s.cancelledOn w.part (core / 96) 15 w.task.scopeId = false → (ringOrder s (core / 8)).head? = some (core, w.slot) →
      (s.cluster (core / 8)).cmds.length < 64 →
      let beat := (s.cluster (core / 8)).beat
      let cut := (s.part w.part).pcfg0.extractLsb' 0 2
      (4 ≤ beat % 4 + cut.toNat → exec (.copyStart core w.slot) s = .next (s.modCluster (core / 8) fun c => { c with beat := beat + 1 })) ∧ (beat % 4 + cut.toNat < 4 →
      let slot := w.task.spad * 1024 - 2048 + 32 * (w.take.toNat % 64)
      ∃ t m' w', exec (.copyStart core w.slot) s = .next t ∧ t.crew? core w.slot = some w' ∧ w'.take = w.take + 1 ∧ w'.pub = w.pub ∧ w'.spad = w.spad ∧
        (t.cluster (core / 8)).cmds = (s.cluster (core / 8)).cmds ++ [m'] ∧ m'.part = w.part ∧ m'.pasid = w.pasid ∧ m'.uid = w.uid ∧ m'.done = false ∧
        [m'.w0, m'.w1, m'.w2, m'.w3] = [0, 1, 2, 3].map (fun i => BitVec.ofNat 64 (leNat (w.spadRead (slot + 8 * i) 8))) ∧ t.mem = s.mem)) ∧
    (∀ i : Instr, (i = .copy m.id ∧ underWay s m 0) ∨ (i = .transpose m.id ∧ underWay s m 1) → allGood s m → plainEnds s m → quietEnds s m → canonical s →
      ∃ t, exec i s = .next t ∧ done t ∧
        ∀ q, byteIn t q = (List.range m.count).foldl (fun v k => bytesAt (elemPlaces s m k).2 (bytesThere s (elemPlaces s m k).1) v) (byteIn s) q) ∧
    (underWay s m 2 → allGood s m → plainEnds s m → quietEnds s m → canonical s →
      ∃ t, exec (.fill m.id) s = .next t ∧ done t ∧
        ∀ q, byteIn t q = (List.range m.count).foldl (fun v k => bytesAt (elemPlaces s m k).2 (leBytes m.es m.src) v) (byteIn s) q) ∧
    (underWay s m 3 → allGood s m → plainEnds s m → quietEnds s m → canonical s → m.count = 1 →
      let h := bytesThere s ((elemPlaces s m 0).2.take 16)
      let c := caskAdd (caskExp h) (m.fmt.val (leNat (bytesThere s (elemPlaces s m 0).1))) (leInt 128 (bytesThere s ((elemPlaces s m 0).2.drop 16)))
      leNat h < 2 ^ 18 → c.2 = 0 →
      ∃ t, exec (.caskAdd m.id) s = .next t ∧ done t ∧ ∀ q, byteIn t q =
        bytesAt ((elemPlaces s m 0).2.take 16) h (bytesAt ((elemPlaces s m 0).2.drop 16) (leBytes 16 (c.1 % 2 ^ 128).toNat) (byteIn s)) q) ∧
    (underWay s m 4 → allGood s m → plainEnds s m → quietEnds s m → canonical s → m.count = 1 → leNat (bytesThere s ((elemPlaces s m 0).1.take 16)) < 2 ^ 18 →
      let b := bytesThere s (elemPlaces s m 0).1
      ∃ t, exec (.settle m.id) s = .next t ∧ done t ∧ ∀ q, byteIn t q =
        bytesAt (elemPlaces s m 0).2 (leBytes m.es (roundExact m.fmt .rne (leInt 128 (b.drop 16)) (caskExp (b.take 16) - 96) false).bits) (byteIn s) q) ∧
    (underWay s m 5 → allGood s m → plainEnds s m → quietEnds s m → m.count = 32 → (s.core m.core).gristPart = m.part → (s.core m.core).grist.wf = true →
      ∃ t, exec (.gristLoad m.id) s = .next t ∧ done t ∧ t.mem = s.mem ∧
        ∀ j < 32, ∀ b < m.es, (t.core m.core).grist.get (gristPlace j (m.dst + b)) = (bytesThere s (elemPlaces s m j).1).getD b 0) ∧
    (∀ (i : Instr) (code : Byte) (a : Nat), (i = .copy m.id ∧ underWay s m 0) ∨ (i = .transpose m.id ∧ underWay s m 1) ∨ (i = .fill m.id ∧ underWay s m 2) →
      firstBad s m = some (.err code a) → ∃ t m', exec i s = .next t ∧ t.cmd? m.id = some m' ∧ m'.done = false ∧
        m'.err = some (BitVec.ofNat 64 (code.toNat * 2 ^ 56 + a / 8 % 2 ^ 54))) ∧
    (underWay s m 6 →
      let n := s.snap m.part m.ssp
      (n.phase ≠ .active → ∃ t, exec (.cellarStream m.id) s = .next t ∧ aborted t (3 * 2 ^ 54 + m.src % 2 ^ 54) ∧ t.mem = s.mem) ∧
      (n.phase = .active → n.overflowed = true → ∃ t, exec (.cellarStream m.id) s = .next t ∧ aborted t (2 * 2 ^ 54 + m.src % 2 ^ 54) ∧ t.mem = s.mem) ∧
      (∀ ls, n.phase = .active → n.overflowed = false → m.src + m.rows ≤ n.pages → copyBytes s m m.dsp true false ((List.range (4096 * m.rows)).map (m.dst + ·)) = .ok ls →
        (pageTaken s n m.src = true → s.devPoisoned (State.mapWord n m.src) 4 = false → ∃ t, exec (.cellarStream m.id) s = .next t ∧ aborted t (2 ^ 54 + m.src % 2 ^ 54) ∧ t.mem = s.mem) ∧
        (pageTaken s n m.src = false → s.devPoisoned (imageAt s n m.src) 4096 = false → m.rows = 1 → m.dsp = 4 → s.hostRmw = [] →
          ∃ t, exec (.cellarStream m.id) s = .next t ∧ done t ∧ t.mem = (markTaken s n m.src).mem ∧ t.host = (ls.zip (s.mem.getBytes (imageAt s n m.src) 4096)).foldl
            (fun h x => match x.1 with | .host a => h.set a x.2 | _ => h) s.host))) ∧
    (s.cmd? m.id = some m → m.err = none → m.done = true → m.csp = false →
      (∀ y ∈ s.scopes, y.1 / 65536 = m.part → y.2.st ≠ .opened) →
      ∀ pa, s.devCheck (m.core / 8) m.part m.pasid.toNat m.ctr 8 .write true false = .ok pa → s.devPoisoned pa 8 = false → s.cells.contains pa = false →
      ∃ t, exec (.copyComplete m.id) s = .next t ∧ t.mem = (s.devWrite pa (leBytes 8 (s.dev64 pa + BitVec.ofNat 64 m.inc).toNat)).mem ∧
        ∀ x ∈ (t.cluster (m.core / 8)).cmds, x.id ≠ m.id) ∧
    (∀ (op : TunOp) (rest : List TunOp) (o : Mma), (s.core core).tun = op :: rest → op.kind = .mma o → s.crew? core op.crew = some w → op.crew = w.slot → o.tile < w.tiles.length →
      w.phys o.tile < 4 → o.pos < o.k → (s.core core).gristPoison = [] →
      let old := tileAt s core w.slot o.tile
      let beat := (s.core core).tunBeat
      let cut := (s.part w.part).pcfg0.extractLsb' 0 2
      (4 ≤ beat % 4 + cut.toNat → exec (.tunStep core) s = .next (s.modCore core fun k => { k with tunBeat := beat + 1 })) ∧
      (beat % 4 + cut.toNat < 4 → ∃ t fl, exec (.tunStep core) s = .next t ∧ (t.core core).tun = { op with kind := .mma { o with pos := min (o.pos + 32) o.k, flags := o.flags ||| fl } } :: rest ∧
        (∀ v, t.crew? core w.slot = some v → v.flags = w.flags) ∧ t.mem = s.mem ∧
        ∀ i < 32, ∀ j < 32, lane (tileRow (tileAt t core w.slot o.tile) i) j =
          if o.act.getLsbD i = true then (o.elem (w.mxByte (s.core core) s.free) i j o.pos (min (o.pos + 32) o.k) (if o.z = true ∧ o.pos = 0 then 0 else lane (tileRow old i) j)).1
          else lane (tileRow old i) j)) ∧
    (∀ (op : TunOp) (rest : List TunOp) (tile : Nat) (act : Mask), (s.core core).tun = op :: rest → op.kind = .mzero tile act → s.crew? core op.crew = some w → w.killed = false → op.crew = w.slot →
      tile < w.tiles.length → w.phys tile < 4 →
      ∃ t, exec (.tunOperationDone core) s = .next t ∧ (t.core core).tun = rest ∧ t.mem = s.mem ∧
        ∀ i < 32, tileRow (tileAt t core w.slot tile) i = if act.getLsbD i = true then zeroLanes else tileRow (tileAt s core w.slot tile) i) ∧
    (∀ (b : BitVec 2) (tm : TileMap) (a : Arming) (e : ArmEntry) (rows : List (Option Lanes)), s.crew? core w.slot = some w → w.tiles[b.toNat]? = some tm → tm.arming = some a →
      a.entries = [e] → e.applied = false → e.cancelled = false → e.msg = some rows → e.from_ = none → a.f32 = false → w.halted = false → w.cont = [] → tm.phys < 4 →
      (∀ o ∈ (s.core core).tun, o.crew ≠ w.slot) → (∀ y ∈ s.allCrews, ∀ g ∈ y.2.groups, ∀ q ∈ g.splits, q.parked = none) →
      ∃ t w' a', exec (.peerAddApply core w.slot b) s = .next t ∧ t.crew? core w.slot = some w' ∧ (w'.tiles[b.toNat]?).bind (·.arming) = some a' ∧
        a'.entries = [{ e with applied := true, msg := none }] ∧ t.mem = s.mem ∧
        ∀ i < 32, ∀ j < 32, lane (tileRow (tileAt t core w.slot b.toNat) i) j = lane (tileRow (tileAt s core w.slot b.toNat) i) j +
          (match rows.getD i none with | some r => lane r j | none => 0)) ∧
    (∀ (gid : Nat) (es : List (BitVec 16)) (rest : List (Nat × Nat × List (BitVec 16))) (g : Group), (s.core core).ctabPend = (w.slot, gid, es) :: rest → s.crew? core w.slot = some w →
      w.group? gid = some g → w.killed = false →
      ∃ t g', exec (.ctabDone core) s = .next t ∧ (t.core core).bank = es ∧ (t.core core).ctabPend = rest ∧ t.group? core w.slot gid = some g' ∧ g'.seq = g.seq + 1 ∧ t.mem = s.mem)

/-! ## Encoding, reset, the step, completion and traps (03, 06, 09, 10, 12) -/

namespace Sys2Proof.Claim

/-- A few words of the spec's examples, with the instruction that each is (18 to 23). -/
noncomputable def specWords : List (Dword × Instr) :=
  [(0x0000000000000000, .nop ⟨false, .m 0, .m 0, .m 0, .m 0, 0⟩),
   (0x002003C300000000, .trap ⟨false, .m 0, .const 67, .m 0, .m 0, 0⟩),
   (0x4410270201500010, .sts ⟨false, .default, .b16, .m 9, .s 2, .m 5, 1, .plain, 16⟩),
   (0x749C1B08EFF0AEC0, .atdCas ⟨false, .s 6, .s 8, .const 63, .s 10, .ar, .device, 2⟩),
   (0x7C200000000A0000, .xfence ⟨false, .cp, .mx⟩),
   (0x802C2B0CC4000000, .wait ⟨false, .s 10, .s 12, .s 16, .m 0, 0⟩),
   (0x8C0D2420C1B07080, .mma ⟨false, .acc 1, .m 32, .s 6, .s 7, 128⟩),
   (0x943C1F1500000000, .cancel ⟨false, .s 7, .s 21, .m 0, .m 0, 0⟩)]

/-- A crew's memories are canonical. -/
def crewCanonical (w : Crew) : Prop := w.spad.wf = true ∧ ∀ b, w.savedGrist = some b → b.1.wf = true

/-- Every memory of the machine is canonical: device and host memory, every core's grist, the scratchpad and the saved bands of every crew, resident or
saved, and of what a command keeps of a crew that has left its core. -/
def Canonical (s : State) : Prop :=
  s.mem.wf = true ∧ s.host.wf = true ∧ (∀ e ∈ s.cores, e.2.grist.wf = true ∧ ∀ w ∈ e.2.crews, crewCanonical w) ∧
    (∀ e ∈ s.dies, ∀ q ∈ e.2.queue, ∀ w, q.saved = some w → crewCanonical w) ∧ ∀ e ∈ s.clusters, ∀ m ∈ e.2.cmds, ∀ w, m.image = some w → crewCanonical w

/-- Crews of a core stand in different slots, groups of a crew have different GIDs. -/
def slotsDistinct (k : Core) : Prop := (k.crews.map (·.slot)).Nodup ∧ ∀ w ∈ k.crews, (w.groups.map (·.gid)).Nodup

/-- A write of a word has the kind of value that its register holds, and the register exists (R124). -/
def wrGood (w : Wr) : Bool :=
  match w.reg, w.val with
  | .m _, .vec _ => true
  | .o i, .vec _ => decide (i < 16)
  | .x i, .vec _ => decide (i < 4)
  | .s i, .sc _ => decide (i < 64)
  | .k i, .sc _ => decide (i < 8)
  | _, _ => false

/-- A split apart from what it may still miss of the group's writes, and from whether another word has written the destination of its wait. -/
def unseen (p : Split) : Split := { p with view := [], waiting := p.waiting.map fun (x : Waiting) => { x with hit := false } }

/-- One lane after a word's writes, the later of two winning. -/
def laneAfter (ws : List Wr) (r : Reg) (l : Nat) (old : Word) : Word :=
  ws.foldl (fun v w => if w.reg = r ∧ w.lanes.getLsbD l = true then w.val.laneOf l else v) old

/-- A scalar after a word's writes. -/
def scalarAfter (ws : List Wr) (r : Reg) (old : Dword) : Dword := ws.foldl (fun v w => if w.reg = r then w.val.scalar else v) old

/-- The value of an inline constant: its index less 192 (R217). -/
def constOf (q : BitVec 7) : Int := (128 + q.toNat : Int) - 192

/-- A float element of these widths that holds an integer exactly: sign, exponent and fraction (R195, R218). -/
def floatHolds (ebits frac bias : Nat) (n : Int) (b : Nat) : Prop :=
  if n = 0 then b = 0
  else b / 2 ^ (ebits + frac) = (if n < 0 then 1 else 0) ∧ (2 ^ frac + b % 2 ^ frac) * 2 ^ (b / 2 ^ frac % 2 ^ ebits) = n.natAbs * 2 ^ (bias + frac)

/-- What an inline constant is in a lane of an integer word of each element width, and of a float word of each format (R218). -/
def constantsRead (q : BitVec 7) : Prop :=
  const32 q = BitVec.ofInt 32 (constOf q) ∧ (∀ e < 2, (const16 q).extractLsb' (16 * e) 16 = BitVec.ofInt 16 (constOf q)) ∧
    (∀ e < 4, (const8 q).extractLsb' (8 * e) 8 = BitVec.ofInt 8 (constOf q)) ∧ floatHolds 8 23 127 (constOf q) (constF .f32 q).toNat ∧
    ∀ e < 2, floatHolds 5 10 15 (constOf q) ((constF .f16 q).extractLsb' (16 * e) 16).toNat ∧ floatHolds 8 7 127 (constOf q) ((constF .bf16 q).extractLsb' (16 * e) 16).toNat

/-- What each special register reads as (R106, R107, R121, R188, R190, R217, R249). -/
def specialsRead (s : State) (c : Ctx) (v : Special → Dword) : Prop :=
  let round := (c.pre.map (·.round)).getD c.crew.round
  let t := c.crew.task
  v .gid = BitVec.ofNat 64 c.r.gid ∧ v .stage = BitVec.ofInt 64 (((c.r.gid : Int) - round.toNat) % c.crew.n) ∧ v .round = round ∧ v .crew = BitVec.ofNat 64 c.r.crew ∧
    v .tile = t.tile ∧ v .launch = t.launch.setWidth 64 ∧ v .scope = t.scope.setWidth 64 ∧
    v .core = BitVec.ofNat 64 (c.r.core / 96 * 128 + c.r.core % 96 / 8 * 8 + c.r.core % 8) ∧ v .ctype = (if c.r.core % 8 < 6 then 0 else 1) ∧
    v .cyc = (s.core c.r.core).cyc ∧ v .time = s.times.getD (c.r.core / 96) 0 ∧ v .seq = (c.pre.map (·.seq)).getD c.g.seq ∧
    v .flags = ((c.sp.oldSpec.map (·.1)).getD ((c.pre.map (·.flags)).getD c.g.flags)).setWidth 64 ∧ v .ctx = (c.sp.oldSpec.map (·.2)).getD ((c.pre.map (·.ctx)).getD c.g.ctx) ∧
    ∀ i < 4, (v .aown).extractLsb' (16 * i) 16 = (match c.crew.tiles[i]? with
      | none => 0#16
      | some m => 1#1 ++ (if m.saved.isSome then 1#1 else 0#1) ++ (((s.core c.r.core).tiles.getD m.phys PhysTile.reset).owner).getD 0#14)

/-- Only this group of this crew may differ, and the count of free values. -/
def onlyThisGroup (r : SplitRef) (s t : State) : Prop :=
  t = { s with cores := t.cores, free := t.free } ∧ (∀ k, k ≠ r.core → t.core k = s.core k) ∧
    t.core r.core = { s.core r.core with crews := (t.core r.core).crews } ∧
    (∀ j, j ≠ r.crew → t.crew? r.core j = s.crew? r.core j) ∧
    ∀ w, s.crew? r.core r.crew = some w → ∃ v, t.crew? r.core r.crew = some v ∧ v = { w with groups := v.groups } ∧
      ∀ j, j ≠ r.gid → v.group? j = w.group? j

/-- The record of a trap (R136, R182): pc is the offset of the faulting word. -/
def recordSays (r : SplitRef) (w : Crew) (g : Group) (p : Split) (code : Byte) (ln : Nat) (addr : Dword) (pc : Pcoff) (pt : Bool) (token : Word) (f : FaultRec) : Prop :=
  let l := isL r.core
  f.fstat.extractLsb' 48 16 = p.ep ∧ f.fstat.extractLsb' 32 16 = 0 ∧ f.fstat.getLsbD 31 = true ∧ f.fstat.getLsbD 30 = pt ∧ f.fstat.getLsbD 29 = l ∧
    f.fstat.extractLsb' 27 2 = BitVec.ofNat 2 p.num ∧ f.fstat.extractLsb' 22 5 = BitVec.ofNat 5 ln ∧ f.fstat.extractLsb' 8 14 = 0 ∧ f.fstat.extractLsb' 0 8 = code ∧
    f.faddr = addr ∧ f.seq = g.seq ∧ f.fctx.extractLsb' 44 20 = w.pasid ∧ f.fctx.extractLsb' 32 12 = 0 ∧ f.fctx.extractLsb' 0 32 = token ∧
    f.fpc = w.code.base l + pc.setWidth 64 * 8#64 ∧ f.fent = w.code.base l + p.ent.setWidth 64 * 8#64 ∧
    (w.code.dpres = true → w.code.lpres = true →
      f.fpcx = w.code.base (!l) + pc.setWidth 64 * 8#64 ∧ f.fentx = w.code.base (!l) + p.ent.setWidth 64 * 8#64) ∧
    (¬(w.code.dpres = true ∧ w.code.lpres = true) → f.fpcx = 0 ∧ f.fentx = 0)

/-- The group a crew of which a trap stopped: results ended, X and O zero, the scalar side kept (R119, R127). -/
def interrupted (g h : Group) : Prop :=
  h.live = g.live ∧ h.outs = [] ∧ (∀ i < 16, h.o.getD i zeroLanes = zeroLanes) ∧ (∀ i < 4, h.x.getD i zeroLanes = zeroLanes) ∧ h.seq = g.seq ∧ h.flags = g.flags ∧
    h.ctx = g.ctx ∧ h.pendTrap = none ∧ (g.outs = [] → h.s = g.s ∧ h.k = g.k) ∧ h.splits.map (·.num) = g.splits.map (·.num) ∧ h.splits.map (·.mask) = g.splits.map (·.mask) ∧
    h.stack.map (fun e => (e.kind, e.mask, e.arr)) = g.stack.map fun e => (e.kind, e.mask, e.arr)

/-- Where a split resumes after an interruption (R133): open at its ENT; closed, at a barrier, or stopped before an se where it is. -/
def resumesAt (p : Split) : Pcoff := if p.closed || p.barWait.isSome || p.atSe.isSome then p.pc else p.ent

/-- This group of the crew is dead, if the crew stands at all, and the crew is killed. -/
def groupKilled (r : SplitRef) (t : State) : Prop :=
  t.crew? r.core r.crew = none ∨ ∃ v, t.crew? r.core r.crew = some v ∧ v.killed = true ∧ ∀ h, v.group? r.gid = some h → h.live = false

/-- A trap that joins what waits in a group (R112, R332; log 74): the first real cause stays, a completed software trap behind it is held. -/
def pendsAs (g h : Group) (t : PendTrap) : Prop :=
  (g.pendTrap = none → h = { g with pendTrap := some t }) ∧
    ∀ u, g.pendTrap = some u →
      (0xC0 ≤ u.code.toNat → u.code = reRun ∨ u.code = stopSe → h = { g with pendTrap := some t }) ∧
      (u.code.toNat < 0xC0 → 0x20 ≤ t.code.toNat → t.code.toNat < 0x28 → h = { g with heldTraps := g.heldTraps ++ [t] }) ∧
      (u.code.toNat < 0xC0 → ¬(0x20 ≤ t.code.toNat ∧ t.code.toNat < 0x28) → h = g)

/-- The post of a trap goes to the end of what the function holds, to be written by the queue (R184). -/
def postedAs (r : SplitRef) (s t : State) (f : Nat) (tok : Word) (rec_ : FaultRec) : Prop :=
  t.host = s.host ∧ t.fn f = { s.fn f with tokens := tok, posts := (s.fn f).posts ++ [(r.core, r.crew, r.gid, rec_)] }

/-- The crew is killed: it has gone, or this group of it is dead and every other will die at its kill point (R94, R183). -/
def crewKilled (r : SplitRef) (t : State) : Prop :=
  t.crew? r.core r.crew = none ∨
    ∃ v, t.crew? r.core r.crew = some v ∧ v.killed = true ∧ (∀ h, v.group? r.gid = some h → h.live = false) ∧ ∀ h ∈ v.groups, h.live = true → h.doomed = true

/-- The handler takes this cause under this CTX (R183, R186). -/
def toHandler (ctx : Dword) (code : Byte) : Prop :=
  code ≠ 0x1D ∧ code ≠ 0x39 ∧ ¬(0x90 ≤ code.toNat ∧ code.toNat < 0xA0) ∧ ctx.getLsbD 63 = true ∧
    ((code.toNat < 0x40 ∧ ctx.getLsbD 60 = true) ∨ (0x40 ≤ code.toNat ∧ code.toNat < 0x80 ∧ ctx.getLsbD 61 = true) ∨
      (0x80 ≤ code.toNat ∧ code.toNat < 0xC0 ∧ ctx.getLsbD 62 = true))

end Sys2Proof.Claim

/-- Eight words of the spec decode to the instructions they stand for (R214, R216, R217, R219, R220, R221, R227). -/
def Obligations.DecodeWords : Prop :=
  ∀ e ∈ specWords, decode e.1 = .instr e.2 ∧ e.2.isWord = true ∧ encode e.2 = e.1

/-- The decoder gives back every well-formed instruction from its word (R213, R214, R216, R217, R222, R223, R224, R225, R227). -/
def Obligations.RoundTrip : Prop :=
  ∀ i : Instr, i.WellFormed → decode (encode i) = .instr i

/-- A word that decodes is the encoding of a well-formed instruction; a refused word is that of none (R215, R228). -/
def Obligations.DecodedWordsEncodeBack : Prop :=
  (∀ (w : Dword) (i : Instr), decode w = .instr i → i.WellFormed ∧ encode i = w) ∧
    (∀ (w : Dword) (e : DecodeErr), decode w = .err e → ∀ i : Instr, i.WellFormed → encode i ≠ w) ∧
    ∀ i : Instr, i.WellFormed → i.isWord = true

/-- A step executes the word that the selected split fetches at its PC, else the next event (R112, R143, R171, R178, R181, R228). -/
def Obligations.StepRunsDecoded : Prop :=
  ∀ s : State,
    (∀ (u : Cur) (t : List Cur), s.issueQ = u :: t → let q := s.popSlot u t
      q = { s with cur := some u, issueQ := q.issueQ } ∧ q.issueQ.map (fun v => (v.r, v.onQ)) = t.map (fun v => (v.r, v.onQ)) ∧
      (q.ctx = none → step s = .next q) ∧
      (∀ c, q.ctx = some c →
        (∀ w i, icacheHit? (q.core c.r.core) c.crew.part c.crew.pasid.toNat (c.crew.addrOf c.r.core c.sp.pc).toNat = some w → decode w = .instr i → step s = exec i q) ∧
        (∀ w e, icacheHit? (q.core c.r.core) c.crew.part c.crew.pasid.toNat (c.crew.addrOf c.r.core c.sp.pc).toNat = some w → decode w = .err e →
          step s = .next (takeTrap q c.r.core c.r.crew c.r.gid c.r.split e.code 0 0)) ∧
        (icacheHit? (q.core c.r.core) c.crew.part c.crew.pasid.toNat (c.crew.addrOf c.r.core c.sp.pc).toNat = none →
          ∀ r, q.devCheck (clusterOf c.r.core) c.crew.part c.crew.pasid.toNat (c.crew.addrOf c.r.core c.sp.pc) 8 .fetch true (c.g.walkOut == some c.r.split) = r →
          (∀ e, r = .err e → step s = .next (takeTrap q c.r.core c.r.crew c.r.gid c.r.split (e.code 0) 0 (c.crew.addrOf c.r.core c.sp.pc))) ∧
          (∀ pa i, r = .ok pa → q.devPoisoned pa 8 = false → decode (q.dev64 pa) = .instr i →
            ∃ v, step s = exec i v ∧ v.ctx = some c ∧ v = { q with cores := v.cores } ∧
              ∀ k, v.core k = { q.core k with icache := (v.core k).icache } ∧ (k ≠ c.r.core → v.core k = q.core k))))) ∧
    (s.issueQ = [] → ∀ (i : Instr) (a : List Input), s.agenda = .event i :: a → i.isWord = false →
      let q := { s with agenda := a }
      let early := ((∃ slip, i = .timeTick slip) ∧ ¬(dueEvent q = none ∧ nextCore q = none)) ∨ ∃ core, i = .issueCycle core ∧ inTick q core = false
      (early → step s = .next q) ∧ (¬early → step s = exec i q)) ∧
    (s.issueQ = [] → s.agenda = [] → ∃ i : Instr, i.isWord = false ∧ step s = exec i s)

/-- Every step of every state goes on: no step faults or is refused (R112, R178, R181, R183). -/
def Obligations.StepNeverStops : Prop :=
  ∀ s : State, ∃ t, step s = .next t

/-- The reset state holds the values that the register maps give, and its memories are canonical (R4, R22, R24, R34, R35, R54, R57, R64, R66, R121, R184, R208). -/
def Obligations.ResetState : Prop :=
  Canonical State.reset ∧ (∀ d < 34, State.reset.times.getD d 1 = 0) ∧
    State.reset.fmap = 0 ∧ State.reset.fwall = 0 ∧ State.reset.merr = 0 ∧ State.reset.ppmap0 = 0 ∧ State.reset.ppmap1 = 0 ∧ State.reset.capsel = 0 ∧
    (∀ f, State.reset.fownOf f = 0) ∧
    (∀ i < 24, (State.reset.port i).down = true ∧ (State.reset.port i).train = false ∧ (State.reset.port i).ppas = 0) ∧
    (∀ f < 64, let x := State.reset.fn f
      x.pwinBase = 0 ∧ x.pwinLim = 0 ∧ x.pwsel = 0 ∧ x.astb = 0 ∧ x.gcmd = 0 ∧ x.fqbase = 0 ∧ x.fqctl = 0 ∧ x.fqhead = 6 * 2 ^ 16 ∧ x.pgerr = 0) ∧
    (∀ f < 64, ∀ n < 32, let a := State.reset.aqi f n
      a.rbase = 0 ∧ a.ctl = 6 * 2 ^ 1 ∧ a.head = 0 ∧ a.nextseq = 0 ∧ a.status = 0) ∧
    (∀ p < 64, let x := State.reset.part p
      x.pcfg0 = 8 * 2 ^ 50 + 16 * 2 ^ 32 ∧ x.pcfg1 = 0 ∧ x.pen = 0 ∧ x.sctb = 0) ∧
    (∀ d < 8, let x := State.reset.die d
      x.therm = 110 * 2 ^ 8 + 95 ∧ x.ecnt = 0 ∧ x.spre = 0 ∧ x.sprc0 = 0 ∧ x.sprc1 = 0 ∧ (∀ c < 12, (x.rsw.extractLsb' (2 * c) 2).toNat = d / 2) ∧
        x.rsw.extractLsb' 24 40 = 0) ∧
    (∀ n < 4, (State.reset.rail n).rvolt = 720 * 2 ^ 16 + 720) ∧
    (∀ c < 768, let k := State.reset.core c
      k.cyc = 0 ∧ k.bank0 = List.replicate 16 0 ∧ k.bank1 = List.replicate 16 0 ∧ k.bankSel = false)

/-- Every step and every instruction keep all memories in canonical form (R2, R139, R140, R142). -/
def Obligations.CanonicalKept : Prop :=
  (∀ s t : State, Canonical s → step s = .next t → Canonical t) ∧
    (∀ (i : Instr) (s t : State), Canonical s → exec i s = .next t → Canonical t)

/-- What a completed word reads from each kind of source and what it writes, and that it changes nothing else (R106, R107, R112, R121, R124, R188, R190, R217, R218, R222, R232, R250). -/
def Obligations.ReadsAndCompletion : Prop :=
  ∀ (s : State) (c : Ctx), s.ctx = some c →
    (c.sp.view = [] → c.g.outs = [] → ∀ (pos : Nat) (i : BitVec 8) (j : BitVec 6) (k : BitVec 3) (kf : BitVec 7 → Word),
      vval s c kf pos (.m i) = c.g.readM i.toNat ∧ vval s c kf pos (.o i) = c.g.o.getD i.toNat zeroLanes ∧ vval s c kf pos (.x i) = c.g.x.getD i.toNat zeroLanes ∧
      sval s c pos (.s j) = ((c.pre.map (·.s)).getD c.g.s).getD j.toNat 0 ∧
      sval s c pos (.k k) = (if k = 0 then c.sp.mask else ((c.pre.map (·.k)).getD c.g.k).getD k.toNat 0).setWidth 64) ∧
    (∀ (pos : Nat) (q : BitVec 7) (kf : BitVec 7 → Word), specialsRead s c (fun r => sval s c pos (.special r)) ∧ constantsRead q ∧ sval s c pos (.const q) = BitVec.ofInt 64 (constOf q) ∧
      ∀ l < 32, lane (vval s c kf pos .lane) l = BitVec.ofNat 32 l ∧ lane (vval s c kf pos (.const q)) l = kf q ∧
        (∀ j, lane (vval s c kf pos (.s j)) l = (sval s c pos (.s j)).setWidth 32) ∧ (∀ k, lane (vval s c kf pos (.k k)) l = (sval s c pos (.k k)).setWidth 32) ∧
        ∀ r, lane (vval s c kf pos (.special r)) l = (sval s c pos (.special r)).setWidth 32) ∧
    ∀ (ws : List Wr) (flags : Byte) (t : TClass), (∀ w ∈ ws, wrGood w = true) →
      let u := complete s c ws flags t
      onlyThisGroup c.r s u ∧
      ∃ h, u.group? c.r.core c.r.crew c.r.gid = some h ∧
        h = { c.g with s := h.s, k := h.k, m := h.m, o := h.o, x := h.x, flags := c.g.flags ||| flags, splits := h.splits, stack := h.stack, outs := h.outs } ∧
        (∀ r : Reg, (match r with | .o i => i < 16 | .x i => i < 4 | .m _ => True | _ => False) →
          ∀ l < 32, lane (h.readVec r) l = laneAfter ws r l (lane (c.g.readVec r) l)) ∧
        (∀ i < 64, h.s.getD i 0 = scalarAfter ws (.s i) (c.g.s.getD i 0)) ∧
        (∀ i < 8, h.k.getD i 0 = (scalarAfter ws (.k i) ((c.g.k.getD i 0).setWidth 64)).setWidth 32) ∧
        h.splits.map unseen =
          modFirst (c.g.splits.map unseen) (fun p => p.num == c.r.split)
            (fun p => { p with pc := p.pc + 1, parked := none, oldSpec := none, barWait := none }) ∧
        h.stack.map (fun e => { e with view := [] }) = c.g.stack.map (fun e => { e with view := [] }) ∧
        h.outs.map (fun o => { o with contested := [] }) = c.g.outs.map (fun o => { o with contested := [] })

/-- Taking a trap: what it saves and where it goes, by cause, CTX and the state of the group (R112, R119, R127, R133, R136, R182, R183, R184, R186, R187). -/
def Obligations.TrapTaking : Prop :=
  ∀ (s : State) (r : SplitRef) (w : Crew) (g : Group) (p : Split) (code : Byte) (ln : Nat) (addr : Dword),
    s.crew? r.core r.crew = some w → w.group? r.gid = some g → g.live = true → g.split? r.split = some p →
    let t := takeTrap s r.core r.crew r.gid r.split code ln addr
    let ctx := (p.oldSpec.map (·.2)).getD g.ctx
    let waits : PendTrap := ⟨r.split, code, ln, addr, none, ctx⟩
    (mayInterrupt s r.core r.crew r.gid g = false → code.toNat < 0xC0 →
      t = State.modGroup { s with rows := t.rows } r.core r.crew r.gid (fun x => x.pend waits) ∧ pendsAs g (g.pend waits) waits ∧ (code ≠ 0x7D → t.rows = s.rows)) ∧
    (mayInterrupt s r.core r.crew r.gid g = true → code.toNat < 0xC0 → g.pendTrap = none → slotsDistinct (s.core r.core) → groupDoomed s r.core w g = true →
      groupKilled r t ∧ ((w.killed = false ∨ w.reset = true ∨ s.cancelledOn w.part (dieOf r.core) 15 w.task.scopeId = true) →
        ∀ l ∈ t.launches, ∃ k ∈ s.launches, l.id = k.id ∧ l.part = k.part ∧ l.trap = k.trap)) ∧
    (mayInterrupt s r.core r.crew r.gid g = true → code.toNat < 0xC0 → g.pendTrap = none → slotsDistinct (s.core r.core) → groupDoomed s r.core w g = false →
      let pc := if 0x20 ≤ code.toNat ∧ code.toNat < 0x28 then p.pc - 1 else p.pc
      let now := (s.timeOf (dieOf r.core)).toNat
      let pri := (code = 0x60 ∨ code = 0x61) ∧ ∃ q ∈ (s.fn w.part).pri, q.1 = w.pasid.toNat ∧ q.2.1 = addr.toNat / 4096
      let viaQueue := (code = 0x00 ∨ code = 0x50 ∨ code = 0x68) ∧ (s.fn w.part).fqctl.getLsbD 63 = true
      (g.handler.isSome = true → crewKilled r t ∧ ∀ h, t.group? r.core r.crew r.gid = some h →
        h.frec = { g.frec with fstat := h.frec.fstat, faddr := code.setWidth 64 } ∧ h.frec.fstat.extractLsb' 0 8 = 0x1D ∧
          h.frec.fstat.extractLsb' 8 56 = g.frec.fstat.extractLsb' 8 56) ∧
      (g.handler = none → code = 0x38 → onlyThisGroup r s t ∧
        ∃ h, t.group? r.core r.crew r.gid = some h ∧ interrupted g h ∧ h.handler = none ∧ h.frec = g.frec ∧ h.fwait = some (.context [ln]) ∧
          h.splits.map (·.pc) = g.splits.map resumesAt) ∧
      (g.handler = none → pri → onlyThisGroup r s t ∧
        ∃ h, t.group? r.core r.crew r.gid = some h ∧ interrupted g h ∧ h.handler = none ∧ recordSays r w g p code ln addr pc true 0 h.frec ∧
          h.fwait = some (.pri w.part w.pasid.toNat (addr.toNat / 4096)) ∧ h.splits.map (·.pc) = g.splits.map resumesAt) ∧
      (g.handler = none → viaQueue → ∃ h tok, t.group? r.core r.crew r.gid = some h ∧ interrupted g h ∧ h.handler = none ∧
        recordSays r w g p code ln addr pc true tok h.frec ∧ h.fwait = some (.queue tok false) ∧ h.trapAt = now ∧ h.splits.map (·.pc) = g.splits.map resumesAt ∧
        (∀ k, g.openToken = some k → tok = k ∧ t.fn w.part = s.fn w.part) ∧
        (∀ k, g.openToken = none → sameMissing g code addr = some k → tok = k ∧ postedAs r s t w.part (s.fn w.part).tokens h.frec) ∧
        (g.openToken = none → sameMissing g code addr = none → tok = freshToken s w.part ∧ postedAs r s t w.part tok h.frec)) ∧
      (g.handler = none → code ≠ 0x38 → ¬pri → ¬viaQueue → toHandler ctx code → onlyThisGroup r { s with rows := t.rows } t ∧ (code ≠ 0x7D → t.rows = s.rows) ∧
        ∃ h, t.group? r.core r.crew r.gid = some h ∧ interrupted g h ∧ recordSays r w g p code ln addr pc false 0 h.frec ∧
          h.handler = some (r.split, resumesAt p) ∧ h.fwait = none ∧ h.trapAt = now ∧
          ∃ q, h.split? r.split = some q ∧ q.pc = (ctx.extractLsb' 0 32).setWidth 54 ∧ q.hnd = true ∧ q.mask = p.mask ∧ q.ent = p.ent) ∧
      (g.handler = none → code ≠ 0x38 → ¬pri → ¬viaQueue → ¬toHandler ctx code → crewKilled r t ∧ ∀ h, t.group? r.core r.crew r.gid = some h →
        recordSays r w g p code ln addr pc false 0 h.frec)) ∧
    (∀ (b : BitVec 6) (val : Dword) (x : Nat × Nat × Nat × FaultRec), let f := b.toNat
      (s.fn f).posts = [x] → (s.fn f).fqctl.getLsbD 63 = true →
      let n := 2 ^ ((s.fn f).fqhead.extractLsb' 16 4).toNat
      let tail := ((s.fn f).fqctl.extractLsb' 0 16).toNat
      let a := ((s.fn f).fqbase.extractLsb' 12 45).toNat * 4096 + 64 * tail
      let ps := ((s.fn f).fqctl.extractLsb' 40 20).toNat
      let full := (tail + 1) % n = (val.extractLsb' 0 16).toNat
      (full → ∃ u, exec (.fqheadWrite b val) s = .next u ∧ (u.fn f).full = [x.2.2.2.token] ∧ (u.fn f).posts = [x] ∧ u.host = s.host ∧
        ((s.fn f).full.contains x.2.2.2.token = false → (u.fn f).fqctl.getLsbD 62 = true) ∧
        ((s.fn f).full.contains x.2.2.2.token = true → (u.fn f).fqctl = (s.fn f).fqctl)) ∧
      (¬full → s.hostMapped f ps a 64 true = none → ∃ u, exec (.fqheadWrite b val) s = .next u ∧ (u.fn f).posts = [] ∧
        (u.fn f).fqctl.extractLsb' 0 16 = BitVec.ofNat 16 ((tail + 1) % n) ∧ (u.fn f).msix = (s.fn f).msix ++ [((s.fn f).fqctl.extractLsb' 16 5).toNat] ∧
        u.host = (s.hostWrite f ps a x.2.2.2.bytes).host))

/-- A THERM write is accepted only if THOT + 8 ≤ TCRIT ≤ 115 (R67). -/
def Obligations.ThermLimits : Prop :=
  ∀ (s : State) (die : BitVec 3) (val : Dword),
    let thot := (val.extractLsb' 0 8).toNat
    let tcrit := (val.extractLsb' 8 8).toNat
    exec (.thermWrite die val) s =
      if thot + 8 ≤ tcrit ∧ tcrit ≤ 115 then .next (s.modDie die.toNat fun x => { x with therm := (x.therm &&& 0xFF0000) ||| (val &&& 0xFFFF) })
      else .next { s with merr := s.merr ||| 0x20 }
end

