-- ==== Sys2Proof/Laws/Encoding.lean ====
section
/-! SUPPORT. One lemma for each format: what decoding reads from the word that encoding makes. -/
namespace Sys2Proof

/-! ## Fields of a concatenation -/

/-- A field of a concatenation lies in its low part, in its high part, or across both. -/
theorem extract_app {n m : Nat} (a : BitVec n) (b : BitVec m) (s k : Nat) :
    (a ++ b).extractLsb' s k = if s + k ≤ m then b.extractLsb' s k else if m ≤ s then a.extractLsb' (s - m) k else (a ++ b).extractLsb' s k := by
  split
  · ext i hi
    simp only [BitVec.getElem_extractLsb', BitVec.getLsbD_append]
    simp [show s + i < m by omega]
  · split
    · ext i hi
      simp only [BitVec.getElem_extractLsb', BitVec.getLsbD_append]
      simp [show ¬ s + i < m by omega, show s + i - m = s - m + i by omega]
    · rfl

theorem extract_all {n : Nat} (a : BitVec n) : a.extractLsb' 0 n = a := by
  ext i hi
  simp

/-- A bit of a concatenation. -/
theorem bit_app {n m : Nat} (a : BitVec n) (b : BitVec m) (i : Nat) : (a ++ b).getLsbD i = if i < m then b.getLsbD i else a.getLsbD (i - m) := by
  rw [BitVec.getLsbD_append]

theorem bit_ofBool (b : Bool) : (BitVec.ofBool b).getLsbD 0 = b := by cases b <;> rfl

theorem setWidth_extract {n : Nat} (a : BitVec n) (k : Nat) : a.setWidth k = a.extractLsb' 0 k := by
  ext i hi
  simp

/-! ## Fields -/

@[simp] theorem Operand.ofBits_bits (o : Operand) : Operand.ofBits o.bits = o := by
  have low : ∀ (a : BitVec 2) (i : BitVec 8), (a ++ i).setWidth 8 = i := fun a i => by
    rw [setWidth_extract, extract_app]; simp [extract_all]
  have high : ∀ (a : BitVec 2) (i : BitVec 8), (a ++ i).extractLsb' 8 2 = a := fun a i => by rw [extract_app]; simp [extract_all]
  cases o with
  | special r => cases r <;> rfl
  | lane => rfl
  | m i => simp only [Operand.bits, Operand.ofBits, low, high]; rfl
  | o i => simp only [Operand.bits, Operand.ofBits, low, high]; rfl
  | x i => simp only [Operand.bits, Operand.ofBits, low, high]; rfl
  | s i => revert i; decide +kernel
  | k i => revert i; decide +kernel
  | acc i => revert i; decide +kernel
  | resLow i => revert i; decide +kernel
  | resHigh i => revert i; decide +kernel
  | const i => revert i; decide +kernel

@[simp] theorem ShortOperand.ofBits_bits (o : ShortOperand) : ShortOperand.ofBits o.bits = o := by
  cases o <;> rename_i i <;> revert i <;> decide +kernel

@[simp] theorem ModClass.ofBits_bits (c : ModClass) : ModClass.ofBits c.bits = c := by cases c <;> rfl
@[simp] theorem Rnd.ofBits_bits (r : Rnd) : Rnd.ofBits r.bits = r := by cases r <;> rfl
@[simp] theorem Rnd.bits_ne (r : Rnd) : r.bits ≠ 4#3 := by cases r <;> decide
@[simp] theorem Order.ofBits_bits (o : Order) : Order.ofBits o.bits = o := by cases o <;> rfl
@[simp] theorem Scope.ofBits_bits (o : Scope) : Scope.ofBits o.bits = o := by cases o <;> rfl
@[simp] theorem Size.ofBits_bits (o : Size) : Size.ofBits o.bits = o := by cases o <;> rfl
@[simp] theorem Path.ofBits_bits (p : Path) : Path.ofBits p.bits = some p := by cases p <;> rfl
@[simp] theorem Sop.ofBits_bits (o : Sop) : Sop.ofBits o.bits = some o := by cases o <;> rfl

theorem SrcMod.ofBits_bits (m : SrcMod) : SrcMod.ofBits m.bits = m := by
  simp only [SrcMod.ofBits, SrcMod.bits]
  repeat (rw [extract_app]; simp only [Nat.reduceAdd, Nat.reduceLeDiff, Nat.reduceSub, if_true, if_false])
  simp only [extract_all, ModClass.ofBits_bits]

theorem VTail.ofBits_bits (t : VTail) : VTail.ofBits t.bits.2.1 t.bits.1 t.bits.2.2 = t := by
  cases t with
  | src r b m => simp [VTail.bits, VTail.ofBits, SrcMod.ofBits_bits]
  | ef r d =>
    simp only [VTail.bits, VTail.ofBits]
    repeat (rw [extract_app]; simp only [Nat.reduceAdd, Nat.reduceLeDiff, Nat.reduceSub, if_true, if_false])
    simp [extract_all]

theorem ShortOp.ofBits_bits (f : ShortOp) : ShortOp.ofBits f.bits = some f := by
  simp only [ShortOp.ofBits, ShortOp.bits]
  repeat (rw [extract_app]; simp only [Nat.reduceAdd, Nat.reduceLeDiff, Nat.reduceSub, if_true, if_false])
  simp only [extract_all, Sop.ofBits_bits, ShortOperand.ofBits_bits, Option.map_some]

/-! ## Formats -/

theorem RWord.maj_encode (maj fn) (f : RWord) : majOf (f.encode maj fn) = maj := by
  simp only [RWord.encode, majOf]
  repeat (rw [extract_app]; simp only [Nat.reduceAdd, Nat.reduceLeDiff, Nat.reduceSub, if_true, if_false])
  exact extract_all _
theorem RWord.fn_encode (maj fn) (f : RWord) : fnOf (f.encode maj fn) = fn := by
  simp only [RWord.encode, fnOf]
  repeat (rw [extract_app]; simp only [Nat.reduceAdd, Nat.reduceLeDiff, Nat.reduceSub, if_true, if_false])
  exact extract_all _
theorem RWord.ofBits_encode (maj fn) (f : RWord) : RWord.ofBits (f.encode maj fn) = f := by
  simp only [RWord.encode, RWord.ofBits, wOf]
  repeat (rw [extract_app]; simp only [Nat.reduceAdd, Nat.reduceLeDiff, Nat.reduceSub, if_true, if_false])
  repeat (rw [bit_app]; first | rw [if_pos (by decide)] | rw [if_neg (by decide)])
  simp only [Nat.reduceSub]
  simp only [extract_all, bit_ofBool, Operand.ofBits_bits]

theorem IWord.maj_encode (maj fn) (f : IWord) : majOf (f.encode maj fn) = maj := by
  simp only [IWord.encode, majOf]
  repeat (rw [extract_app]; simp only [Nat.reduceAdd, Nat.reduceLeDiff, Nat.reduceSub, if_true, if_false])
  exact extract_all _
theorem IWord.fn_encode (maj fn) (f : IWord) : fnOf (f.encode maj fn) = fn := by
  simp only [IWord.encode, fnOf]
  repeat (rw [extract_app]; simp only [Nat.reduceAdd, Nat.reduceLeDiff, Nat.reduceSub, if_true, if_false])
  exact extract_all _
theorem IWord.ofBits_encode (maj fn) (f : IWord) : IWord.ofBits (f.encode maj fn) = f := by
  simp only [IWord.encode, IWord.ofBits, wOf]
  repeat (rw [extract_app]; simp only [Nat.reduceAdd, Nat.reduceLeDiff, Nat.reduceSub, if_true, if_false])
  repeat (rw [bit_app]; first | rw [if_pos (by decide)] | rw [if_neg (by decide)])
  simp only [Nat.reduceSub]
  simp only [extract_all, bit_ofBool, Operand.ofBits_bits]

theorem MRWord.maj_encode (maj fn) (f : MRWord) : majOf (f.encode maj fn) = maj := by
  simp only [MRWord.encode, majOf]
  repeat (rw [extract_app]; simp only [Nat.reduceAdd, Nat.reduceLeDiff, Nat.reduceSub, if_true, if_false])
  exact extract_all _
theorem MRWord.fn_encode (maj fn) (f : MRWord) : fnOf (f.encode maj fn) = fn := by
  simp only [MRWord.encode, fnOf]
  repeat (rw [extract_app]; simp only [Nat.reduceAdd, Nat.reduceLeDiff, Nat.reduceSub, if_true, if_false])
  exact extract_all _
theorem MRWord.ofBits_encode (maj fn) (f : MRWord) : MRWord.ofBits (f.encode maj fn) = f := by
  simp only [MRWord.encode, MRWord.ofBits, wOf]
  repeat (rw [extract_app]; simp only [Nat.reduceAdd, Nat.reduceLeDiff, Nat.reduceSub, if_true, if_false])
  repeat (rw [bit_app]; first | rw [if_pos (by decide)] | rw [if_neg (by decide)])
  simp only [Nat.reduceSub]
  simp only [extract_all, bit_ofBool, Operand.ofBits_bits, VTail.ofBits_bits]

theorem FmaWord.maj_encode (op) (f : FmaWord) : majOf (f.encode op) = 0x0A#6 := by
  simp only [FmaWord.encode, majOf]
  repeat (rw [extract_app]; simp only [Nat.reduceAdd, Nat.reduceLeDiff, Nat.reduceSub, if_true, if_false])
  exact extract_all _
theorem FmaWord.ofBits_encode (op) (f : FmaWord) : FmaWord.ofBits (f.encode op) = f := by
  simp only [FmaWord.encode, FmaWord.ofBits, wOf]
  repeat (rw [extract_app]; simp only [Nat.reduceAdd, Nat.reduceLeDiff, Nat.reduceSub, if_true, if_false])
  repeat (rw [bit_app]; first | rw [if_pos (by decide)] | rw [if_neg (by decide)])
  simp only [Nat.reduceSub]
  simp only [extract_all, bit_ofBool, Operand.ofBits_bits, SrcMod.ofBits_bits]
theorem FmaWord.op_encode (op) (f : FmaWord) : (f.encode op).extractLsb' 52 3 = op := by
  simp only [FmaWord.encode]
  repeat (rw [extract_app]; simp only [Nat.reduceAdd, Nat.reduceLeDiff, Nat.reduceSub, if_true, if_false])
  exact extract_all _

theorem AWord.maj_encode (maj fn) (f : AWord) : majOf (f.encode maj fn) = maj := by
  simp only [AWord.encode, majOf]
  repeat (rw [extract_app]; simp only [Nat.reduceAdd, Nat.reduceLeDiff, Nat.reduceSub, if_true, if_false])
  exact extract_all _
theorem AWord.fn_encode (maj fn) (f : AWord) : fnOf (f.encode maj fn) = fn := by
  simp only [AWord.encode, fnOf]
  repeat (rw [extract_app]; simp only [Nat.reduceAdd, Nat.reduceLeDiff, Nat.reduceSub, if_true, if_false])
  exact extract_all _
theorem AWord.ofBits_encode (maj fn) (f : AWord) : AWord.ofBits (f.encode maj fn) = f := by
  simp only [AWord.encode, AWord.ofBits, wOf]
  repeat (rw [extract_app]; simp only [Nat.reduceAdd, Nat.reduceLeDiff, Nat.reduceSub, if_true, if_false])
  repeat (rw [bit_app]; first | rw [if_pos (by decide)] | rw [if_neg (by decide)])
  simp only [Nat.reduceSub]
  simp only [extract_all, bit_ofBool, Operand.ofBits_bits, Order.ofBits_bits, Scope.ofBits_bits]

theorem MWord.maj_encode (maj hi) (f : MWord) : majOf (f.encode maj hi) = maj := by
  simp only [MWord.encode, majOf]
  repeat (rw [extract_app]; simp only [Nat.reduceAdd, Nat.reduceLeDiff, Nat.reduceSub, if_true, if_false])
  exact extract_all _
theorem MWord.hi_encode (maj hi) (f : MWord) : (f.encode maj hi).extractLsb' 54 3 = hi := by
  simp only [MWord.encode]
  repeat (rw [extract_app]; simp only [Nat.reduceAdd, Nat.reduceLeDiff, Nat.reduceSub, if_true, if_false])
  exact extract_all _
theorem MWord.ofBits_encode (maj) (f : MWord) : MWord.ofBits (f.encode maj f.scope.bits) = f := by
  simp only [MWord.encode, MWord.ofBits, wOf]
  repeat (rw [extract_app]; simp only [Nat.reduceAdd, Nat.reduceLeDiff, Nat.reduceSub, if_true, if_false])
  repeat (rw [bit_app]; first | rw [if_pos (by decide)] | rw [if_neg (by decide)])
  simp only [Nat.reduceSub]
  simp only [extract_all, bit_ofBool, Operand.ofBits_bits, Order.ofBits_bits, Scope.ofBits_bits, Size.ofBits_bits]
theorem MWord.ofLoadBits_encode (maj hi) (f : MWord) : MWord.ofLoadBits (f.encode maj hi) = { f with scope := .default } := by
  simp only [MWord.ofLoadBits, MWord.encode, MWord.ofBits, wOf]
  repeat (rw [extract_app]; simp only [Nat.reduceAdd, Nat.reduceLeDiff, Nat.reduceSub, if_true, if_false])
  repeat (rw [bit_app]; first | rw [if_pos (by decide)] | rw [if_neg (by decide)])
  simp only [Nat.reduceSub]
  simp only [extract_all, bit_ofBool, Operand.ofBits_bits, Order.ofBits_bits, Size.ofBits_bits]

theorem MRWord.rawZero_encode (maj fn) (f : MRWord) (hm : maj.toNat < 0x1B) : rawZero (f.encode maj fn) = true := by
  have h1 : (f.encode maj fn).extractLsb' 16 3 = 0 := by
    simp only [MRWord.encode]
    repeat (rw [extract_app]; simp only [Nat.reduceAdd, Nat.reduceLeDiff, Nat.reduceSub, if_true, if_false])
    decide
  have h2 : (f.encode maj fn).extractLsb' 19 3 = f.tail.bits.2.1 := by
    simp only [MRWord.encode]
    repeat (rw [extract_app]; simp only [Nat.reduceAdd, Nat.reduceLeDiff, Nat.reduceSub, if_true, if_false])
    exact extract_all _
  have h3 : (f.encode maj fn).extractLsb' 10 2 = f.tail.bits.2.2.extractLsb' 10 2 := by
    simp only [MRWord.encode]
    repeat (rw [extract_app]; simp only [Nat.reduceAdd, Nat.reduceLeDiff, Nat.reduceSub, if_true, if_false])
  have h4 : (f.encode maj fn).extractLsb' 19 3 = 4#3 → (f.encode maj fn).extractLsb' 10 2 = 0 := by
    rw [h2, h3]
    cases f.tail with
    | src r b m => intro h; exact absurd h r.bits_ne
    | ef r d =>
      intro _
      simp only [VTail.bits]
      repeat (rw [extract_app]; simp only [Nat.reduceAdd, Nat.reduceLeDiff, Nat.reduceSub, if_true, if_false])
      decide
  unfold rawZero
  rw [MRWord.maj_encode]
  split
  case h_8 e | h_9 e | h_10 e | h_11 e => omega
  case h_12 => rfl
  all_goals rw [h1]; by_cases h : (f.encode maj fn).extractLsb' 19 3 = 4#3 <;> simp [h, h4]

/-! ## Encoding what was decoded -/

/-- Two neighbouring fields together. -/
theorem join {n : Nat} (w : BitVec n) (t s k m : Nat) (h : s + k = t) : w.extractLsb' t m ++ w.extractLsb' s k = w.extractLsb' s (m + k) := by
  subst h
  apply BitVec.eq_of_getLsbD_eq
  intro i hi
  simp only [BitVec.getLsbD_append, BitVec.getLsbD_extractLsb']
  by_cases h : i < k
  · simp [h, show i < m + k by omega]
  · simp [h, hi, show i - k < m by omega, show s + k + (i - k) = s + i by omega]

/-- A field and the bit below it. -/
theorem join_bit {n : Nat} (w : BitVec n) (t s m : Nat) (h : s + 1 = t) : w.extractLsb' t m ++ BitVec.ofBool (w.getLsbD s) = w.extractLsb' s (m + 1) := by
  rw [← join w t s 1 m h]
  congr 1
  apply BitVec.eq_of_getLsbD_eq
  intro i hi
  obtain rfl : i = 0 := by omega
  cases h : w.getLsbD s <;> simp [h]

theorem extract_self (w : Dword) : w.extractLsb' 0 64 = w := extract_all w

@[simp] theorem Operand.bits_ofBits (b : BitVec 10) : (Operand.ofBits b).bits = b := by
  revert b; decide +kernel
@[simp] theorem ShortOperand.bits_ofBits (b : BitVec 8) : (ShortOperand.ofBits b).bits = b := by
  revert b; decide +kernel
@[simp] theorem ModClass.bits_ofBits (b : BitVec 2) : (ModClass.ofBits b).bits = b := by
  revert b; decide
@[simp] theorem Rnd.bits_ofBits (b : BitVec 3) (h : b ≠ 4) : (Rnd.ofBits b).bits = b := by
  revert b; decide
@[simp] theorem Order.bits_ofBits (b : BitVec 2) : (Order.ofBits b).bits = b := by
  revert b; decide
@[simp] theorem Scope.bits_ofBits (b : BitVec 3) : (Scope.ofBits b).bits = b := by
  revert b; decide
@[simp] theorem Size.bits_ofBits (b : BitVec 2) : (Size.ofBits b).bits = b := by
  revert b; decide
theorem Path.bits_ofBits (b : BitVec 3) (p : Path) (h : Path.ofBits b = some p) : p.bits = b := by
  revert b p; decide
theorem Sop.bits_ofBits (b : BitVec 6) (p : Sop) (h : Sop.ofBits b = some p) : p.bits = b := by
  revert b p; decide
@[simp] theorem SrcMod.bits_ofBits (b : BitVec 12) : (SrcMod.ofBits b).bits = b := by
  simp only [SrcMod.ofBits, SrcMod.bits, ModClass.bits_ofBits]
  repeat (first | rw [join _ _ _ _ _ (by decide)] | rw [join_bit _ _ _ _ (by decide)])
  exact extract_all b

theorem ShortOp.bits_ofBits (b : BitVec 30) (f : ShortOp) (h : ShortOp.ofBits b = some f) : f.bits = b := by
  simp only [ShortOp.ofBits, Option.map_eq_some_iff] at h
  obtain ⟨op, ho, rfl⟩ := h
  simp only [ShortOp.bits, Sop.bits_ofBits _ _ ho, ShortOperand.bits_ofBits]
  repeat (first | rw [join _ _ _ _ _ (by decide)] | rw [join_bit _ _ _ _ (by decide)])
  exact extract_all b

theorem RWord.encode_ofBits (w : Dword) : (RWord.ofBits w).encode (majOf w) (fnOf w) = w := by
  simp only [RWord.encode, RWord.ofBits, majOf, fnOf, wOf, Operand.bits_ofBits]
  repeat (first | rw [join _ _ _ _ _ (by decide)] | rw [join_bit _ _ _ _ (by decide)])
  exact extract_all w

theorem IWord.encode_ofBits (w : Dword) : (IWord.ofBits w).encode (majOf w) (fnOf w) = w := by
  simp only [IWord.encode, IWord.ofBits, majOf, fnOf, wOf, Operand.bits_ofBits]
  repeat (first | rw [join _ _ _ _ _ (by decide)] | rw [join_bit _ _ _ _ (by decide)])
  exact extract_all w

theorem FmaWord.encode_ofBits (w : Dword) (h : majOf w = 0x0A#6) : (FmaWord.ofBits w).encode (w.extractLsb' 52 3) = w := by
  simp only [FmaWord.encode, ← h, FmaWord.ofBits, majOf, wOf, Operand.bits_ofBits, SrcMod.bits_ofBits]
  repeat (first | rw [join _ _ _ _ _ (by decide)] | rw [join_bit _ _ _ _ (by decide)])
  exact extract_all w

theorem MWord.encode_ofBits (w : Dword) : (MWord.ofBits w).encode (majOf w) (MWord.ofBits w).scope.bits = w := by
  simp only [MWord.encode, MWord.ofBits, majOf, wOf, Operand.bits_ofBits, Scope.bits_ofBits, Size.bits_ofBits, Order.bits_ofBits]
  repeat (first | rw [join _ _ _ _ _ (by decide)] | rw [join_bit _ _ _ _ (by decide)])
  exact extract_all w

theorem MWord.encode_ofLoadBits (w : Dword) : (MWord.ofLoadBits w).encode (majOf w) (w.extractLsb' 54 3) = w := by
  simp only [MWord.encode, MWord.ofLoadBits, MWord.ofBits, majOf, wOf, Operand.bits_ofBits, Size.bits_ofBits, Order.bits_ofBits]
  repeat (first | rw [join _ _ _ _ _ (by decide)] | rw [join_bit _ _ _ _ (by decide)])
  exact extract_all w

theorem AWord.encode_ofBits (w : Dword) (h : w.extractLsb' 0 5 = 0) : (AWord.ofBits w).encode (majOf w) (fnOf w) = w := by
  simp only [AWord.encode, AWord.ofBits, majOf, fnOf, wOf, Operand.bits_ofBits, Scope.bits_ofBits, Order.bits_ofBits]
  rw [← show w.extractLsb' 0 5 = 0#5 from h]
  repeat (first | rw [join _ _ _ _ _ (by decide)] | rw [join_bit _ _ _ _ (by decide)])
  exact extract_all w

theorem MRWord.encode_ofBits (w : Dword) (h : w.extractLsb' 16 3 = 0) (he : w.extractLsb' 19 3 ≠ 4#3 ∨ w.extractLsb' 10 2 = 0) :
    (MRWord.ofBits w).encode (majOf w) (fnOf w) = w := by
  have ht : (VTail.ofBits (w.extractLsb' 19 3) (w.extractLsb' 22 10) (w.extractLsb' 0 12)).bits =
      (w.extractLsb' 22 10, w.extractLsb' 19 3, w.extractLsb' 0 12) := by
    unfold VTail.ofBits
    split
    · rename_i h4
      have h2 : w.extractLsb' 10 2 = 0 := he.resolve_left (fun g => g h4)
      simp only [VTail.bits, Operand.bits_ofBits, h4]
      refine Prod.ext rfl (Prod.ext rfl ?_)
      show 0#2 ++ BitVec.extractLsb' 0 10 (BitVec.extractLsb' 0 12 w) = w.extractLsb' 0 12
      rw [← show w.extractLsb' 10 2 = 0#2 from h2]
      have : BitVec.extractLsb' 0 10 (BitVec.extractLsb' 0 12 w) = w.extractLsb' 0 10 := by
        apply BitVec.eq_of_getLsbD_eq
        intro i hi
        simp [hi, show i < 12 by omega]
      rw [this, join _ _ _ _ _ (by decide)]
    · rename_i h4
      simp only [VTail.bits, Operand.bits_ofBits, SrcMod.bits_ofBits, Rnd.bits_ofBits _ h4]
  simp only [MRWord.encode, MRWord.ofBits, majOf, fnOf, wOf, Operand.bits_ofBits, ht]
  rw [← show w.extractLsb' 16 3 = 0#3 from h]
  repeat (first | rw [join _ _ _ _ _ (by decide)] | rw [join_bit _ _ _ _ (by decide)])
  exact extract_all w

end Sys2Proof
end

