-- ==== Sys2Proof/Laws/Exec.lean ====
section
/-! SUPPORT. The arm of each constructor: exec of it is its meaning. -/
namespace Sys2Proof.Machine

@[simp] theorem exec_moduleReset (s : State) : exec (.moduleReset) s = execModuleReset s := rfl
@[simp] theorem exec_timeTick (slip : BitVec 34) (s : State) : exec (.timeTick slip) s = execTimeTick slip s := rfl
@[simp] theorem exec_alignmentPulse (s : State) : exec (.alignmentPulse) s = execAlignmentPulse s := rfl
@[simp] theorem exec_registerWrite (fn : BitVec 6) (off : BitVec 18) (size : Nat) (val : Dword) (s : State) : exec (.registerWrite fn off size val) s = execRegisterWrite fn off size val s := rfl
@[simp] theorem exec_aqiCtlWrite (fn : BitVec 6) (n : BitVec 5) (val : Dword) (s : State) : exec (.aqiCtlWrite fn n val) s = execAqiCtlWrite fn n val s := rfl
@[simp] theorem exec_doorbellWrite (fn : BitVec 6) (n : BitVec 5) (size : Nat) (val : Dword) (s : State) : exec (.doorbellWrite fn n size val) s = execDoorbellWrite fn n size val s := rfl
@[simp] theorem exec_packetFetch (fn : BitVec 6) (n : BitVec 5) (s : State) : exec (.packetFetch fn n) s = execPacketFetch fn n s := rfl
@[simp] theorem exec_tornSubmission (fn : BitVec 6) (n : BitVec 5) (s : State) : exec (.tornSubmission fn n) s = execTornSubmission fn n s := rfl
@[simp] theorem exec_nopPacket (id : Nat) (s : State) : exec (.nopPacket id) s = execNopPacket id s := rfl
@[simp] theorem exec_launch (id : Nat) (s : State) : exec (.launch id) s = execLaunch id s := rfl
@[simp] theorem exec_cancelPacket (id : Nat) (s : State) : exec (.cancelPacket id) s = execCancelPacket id s := rfl
@[simp] theorem exec_signal (id : Nat) (s : State) : exec (.signal id) s = execSignal id s := rfl
@[simp] theorem exec_snapcut (id : Nat) (s : State) : exec (.snapcut id) s = execSnapcut id s := rfl
@[simp] theorem exec_cutSwitch (p : BitVec 6) (snap : BitVec 3) (s : State) : exec (.cutSwitch p snap) s = execCutSwitch p snap s := rfl
@[simp] theorem exec_stream (id : Nat) (s : State) : exec (.stream id) s = execStream id s := rfl
@[simp] theorem exec_snapend (id : Nat) (s : State) : exec (.snapend id) s = execSnapend id s := rfl
@[simp] theorem exec_packetCompletion (id : Nat) (s : State) : exec (.packetCompletion id) s = execPacketCompletion id s := rfl
@[simp] theorem exec_atsTranslationResponse (fn : BitVec 6) (pasid : BitVec 20) (iova : Nat) (ans : Option AtsAnswer) (s : State) : exec (.atsTranslationResponse fn pasid iova ans) s = execAtsTranslationResponse fn pasid iova ans s := rfl
@[simp] theorem exec_pageRequestResponse (fn : BitVec 6) (pasid : BitVec 20) (iova : Nat) (code : PriCode) (s : State) : exec (.pageRequestResponse fn pasid iova code) s = execPageRequestResponse fn pasid iova code s := rfl
@[simp] theorem exec_pageRequestTimeout (fn : BitVec 6) (pasid : BitVec 20) (iova : Nat) (s : State) : exec (.pageRequestTimeout fn pasid iova) s = execPageRequestTimeout fn pasid iova s := rfl
@[simp] theorem exec_atsInvalidation (fn : BitVec 6) (pasid : BitVec 20) (iova : Nat) (len : Nat) (s : State) : exec (.atsInvalidation fn pasid iova len) s = execAtsInvalidation fn pasid iova len s := rfl
@[simp] theorem exec_flitTransmit (port : Nat) (vc : BitVec 2) (s : State) : exec (.flitTransmit port vc) s = execFlitTransmit port vc s := rfl
@[simp] theorem exec_idleFlit (port : Nat) (s : State) : exec (.idleFlit port) s = execIdleFlit port s := rfl
@[simp] theorem exec_flitReceive (port : Nat) (flit : Flit) (s : State) : exec (.flitReceive port flit) s = execFlitReceive port flit s := rfl
@[simp] theorem exec_retrainComplete (port : Nat) (s : State) : exec (.retrainComplete port) s = execRetrainComplete port s := rfl
@[simp] theorem exec_retrainTimeout (port : Nat) (s : State) : exec (.retrainTimeout port) s = execRetrainTimeout port s := rfl
@[simp] theorem exec_ppretrWrite (val : Dword) (s : State) : exec (.ppretrWrite val) s = execPpretrWrite val s := rfl
@[simp] theorem exec_peerInboundAccess (port : Nat) (acc : PeerAccess) (s : State) : exec (.peerInboundAccess port acc) s = execPeerInboundAccess port acc s := rfl
@[simp] theorem exec_fmapWrite (val : Dword) (s : State) : exec (.fmapWrite val) s = execFmapWrite val s := rfl
@[simp] theorem exec_fwallWrite (val : Dword) (s : State) : exec (.fwallWrite val) s = execFwallWrite val s := rfl
@[simp] theorem exec_ppmapWrite (high : Bool) (val : Dword) (s : State) : exec (.ppmapWrite high val) s = execPpmapWrite high val s := rfl
@[simp] theorem exec_partitionEnable (p : BitVec 6) (val : Dword) (s : State) : exec (.partitionEnable p val) s = execPartitionEnable p val s := rfl
@[simp] theorem exec_partitionReset (p : BitVec 6) (val : Dword) (s : State) : exec (.partitionReset p val) s = execPartitionReset p val s := rfl
@[simp] theorem exec_fownWrite (f : BitVec 10) (val : Byte) (s : State) : exec (.fownWrite f val) s = execFownWrite f val s := rfl
@[simp] theorem exec_frameZeroed (f : BitVec 10) (s : State) : exec (.frameZeroed f) s = execFrameZeroed f s := rfl
@[simp] theorem exec_sctbWrite (p : BitVec 6) (val : Dword) (s : State) : exec (.sctbWrite p val) s = execSctbWrite p val s := rfl
@[simp] theorem exec_rswWrite (die : BitVec 3) (val : Dword) (s : State) : exec (.rswWrite die val) s = execRswWrite die val s := rfl
@[simp] theorem exec_rvoltWrite (rail : BitVec 2) (val : Dword) (s : State) : exec (.rvoltWrite rail val) s = execRvoltWrite rail val s := rfl
@[simp] theorem exec_quiesceTimeout (t : RailTarget) (s : State) : exec (.quiesceTimeout t) s = execQuiesceTimeout t s := rfl
@[simp] theorem exec_railChangeApplied (t : RailTarget) (s : State) : exec (.railChangeApplied t) s = execRailChangeApplied t s := rfl
@[simp] theorem exec_railOvercurrent (rail : BitVec 2) (s : State) : exec (.railOvercurrent rail) s = execRailOvercurrent rail s := rfl
@[simp] theorem exec_throttleRelease (rail : BitVec 2) (s : State) : exec (.throttleRelease rail) s = execThrottleRelease rail s := rfl
@[simp] theorem exec_controlIntervalEnd (energy : List (Nat × Nat)) (s : State) : exec (.controlIntervalEnd energy) s = execControlIntervalEnd energy s := rfl
@[simp] theorem exec_thermWrite (die : BitVec 3) (val : Dword) (s : State) : exec (.thermWrite die val) s = execThermWrite die val s := rfl
@[simp] theorem exec_temperatureRead (core : Nat) (temp : Nat) (s : State) : exec (.temperatureRead core temp) s = execTemperatureRead core temp s := rfl
@[simp] theorem exec_thermalCutStep (core : Nat) (s : State) : exec (.thermalCutStep core) s = execThermalCutStep core s := rfl
@[simp] theorem exec_rowTestDone (row : Nat) (pass : Bool) (spareLeft : Bool) (s : State) : exec (.rowTestDone row pass spareLeft) s = execRowTestDone row pass spareLeft s := rfl
@[simp] theorem exec_spreRequest (die : BitVec 3) (val : Dword) (s : State) : exec (.spreRequest die val) s = execSpreRequest die val s := rfl
@[simp] theorem exec_spreRelease (die : BitVec 3) (val : Dword) (s : State) : exec (.spreRelease die val) s = execSpreRelease die val s := rfl
@[simp] theorem exec_spreDone (die : BitVec 3) (s : State) : exec (.spreDone die) s = execSpreDone die s := rfl
@[simp] theorem exec_capmaskWrite (val : Dword) (s : State) : exec (.capmaskWrite val) s = execCapmaskWrite val s := rfl
@[simp] theorem exec_astbWrite (fn : BitVec 6) (val : Dword) (s : State) : exec (.astbWrite fn val) s = execAstbWrite fn val s := rfl
@[simp] theorem exec_ppasWrite (port : Nat) (val : Dword) (s : State) : exec (.ppasWrite port val) s = execPpasWrite port val s := rfl
@[simp] theorem exec_gcmdWrite (fn : BitVec 6) (val : Dword) (s : State) : exec (.gcmdWrite fn val) s = execGcmdWrite fn val s := rfl
@[simp] theorem exec_generationAdvanceDone (fn : BitVec 6) (s : State) : exec (.generationAdvanceDone fn) s = execGenerationAdvanceDone fn s := rfl
@[simp] theorem exec_staleRejection (r : StaleRef) (s : State) : exec (.staleRejection r) s = execStaleRejection r s := rfl
@[simp] theorem exec_translationWalk (cluster : Nat) (fn : BitVec 6) (pasid : BitVec 20) (va : Dword) (s : State) : exec (.translationWalk cluster fn pasid va) s = execTranslationWalk cluster fn pasid va s := rfl
@[simp] theorem exec_walkTimeout (r : SplitRef) (s : State) : exec (.walkTimeout r) s = execWalkTimeout r s := rfl
@[simp] theorem exec_prefetch (cluster : Nat) (fn : BitVec 6) (pasid : BitVec 20) (va : Dword) (s : State) : exec (.prefetch cluster fn pasid va) s = execPrefetch cluster fn pasid va s := rfl
@[simp] theorem exec_resultReturn (r : SplitRef) (id : Nat) (ans : FarAnswer) (s : State) : exec (.resultReturn r id ans) s = execResultReturn r id ans s := rfl
@[simp] theorem exec_storeAcknowledge (r : SplitRef) (id : Nat) (ans : FarAnswer) (s : State) : exec (.storeAcknowledge r id ans) s = execStoreAcknowledge r id ans s := rfl
@[simp] theorem exec_issueCycle (core : Nat) (s : State) : exec (.issueCycle core) s = execIssueCycle core s := rfl
@[simp] theorem exec_generateRecord (p : BitVec 6) (launch : Word) (slot : Nat) (s : State) : exec (.generateRecord p launch slot) s = execGenerateRecord p launch slot s := rfl
@[simp] theorem exec_stepBoundary (p : BitVec 6) (launch : Word) (s : State) : exec (.stepBoundary p launch) s = execStepBoundary p launch s := rfl
@[simp] theorem exec_dispatchBind (die : BitVec 3) (s : State) : exec (.dispatchBind die) s = execDispatchBind die s := rfl
@[simp] theorem exec_workSteal (die : BitVec 3) (s : State) : exec (.workSteal die) s = execWorkSteal die s := rfl
@[simp] theorem exec_sliceEnd (fence : BitVec 3) (s : State) : exec (.sliceEnd fence) s = execSliceEnd fence s := rfl
@[simp] theorem exec_groupResume (core : Nat) (crew : Nat) (gid : Nat) (s : State) : exec (.groupResume core crew gid) s = execGroupResume core crew gid s := rfl
@[simp] theorem exec_crewRetire (core : Nat) (crew : Nat) (s : State) : exec (.crewRetire core crew) s = execCrewRetire core crew s := rfl
@[simp] theorem exec_queueRetry (die : BitVec 3) (s : State) : exec (.queueRetry die) s = execQueueRetry die s := rfl
@[simp] theorem exec_cancelApply (die : BitVec 3) (p : BitVec 6) (scope : BitVec 16) (s : State) : exec (.cancelApply die p scope) s = execCancelApply die p scope s := rfl
@[simp] theorem exec_killTimeout (core : Nat) (crew : Nat) (gid : Nat) (s : State) : exec (.killTimeout core crew gid) s = execKillTimeout core crew gid s := rfl
@[simp] theorem exec_cancelAcknowledge (p : BitVec 6) (scope : BitVec 16) (s : State) : exec (.cancelAcknowledge p scope) s = execCancelAcknowledge p scope s := rfl
@[simp] theorem exec_migration (core : Nat) (crew : Nat) (target : Nat) (s : State) : exec (.migration core crew target) s = execMigration core crew target s := rfl
@[simp] theorem exec_migrationStopTimeout (core : Nat) (crew : Nat) (gid : Nat) (s : State) : exec (.migrationStopTimeout core crew gid) s = execMigrationStopTimeout core crew gid s := rfl
@[simp] theorem exec_fqctlWrite (fn : BitVec 6) (val : Dword) (s : State) : exec (.fqctlWrite fn val) s = execFqctlWrite fn val s := rfl
@[simp] theorem exec_fqheadWrite (fn : BitVec 6) (val : Dword) (s : State) : exec (.fqheadWrite fn val) s = execFqheadWrite fn val s := rfl
@[simp] theorem exec_fresRetry (fn : BitVec 6) (token : Word) (s : State) : exec (.fresRetry fn token) s = execFresRetry fn token s := rfl
@[simp] theorem exec_fresKill (fn : BitVec 6) (token : Word) (s : State) : exec (.fresKill fn token) s = execFresKill fn token s := rfl
@[simp] theorem exec_accumulatorSwitch (core : Nat) (crew : Nat) (tile : BitVec 2) (s : State) : exec (.accumulatorSwitch core crew tile) s = execAccumulatorSwitch core crew tile s := rfl
@[simp] theorem exec_copyStart (core : Nat) (crew : Nat) (s : State) : exec (.copyStart core crew) s = execCopyStart core crew s := rfl
@[simp] theorem exec_copy (cmd : Nat) (s : State) : exec (.copy cmd) s = execCopy cmd s := rfl
@[simp] theorem exec_transpose (cmd : Nat) (s : State) : exec (.transpose cmd) s = execTranspose cmd s := rfl
@[simp] theorem exec_fill (cmd : Nat) (s : State) : exec (.fill cmd) s = execFill cmd s := rfl
@[simp] theorem exec_caskAdd (cmd : Nat) (s : State) : exec (.caskAdd cmd) s = execCaskAdd cmd s := rfl
@[simp] theorem exec_settle (cmd : Nat) (s : State) : exec (.settle cmd) s = execSettle cmd s := rfl
@[simp] theorem exec_gristLoad (cmd : Nat) (s : State) : exec (.gristLoad cmd) s = execGristLoad cmd s := rfl
@[simp] theorem exec_cellarStream (cmd : Nat) (s : State) : exec (.cellarStream cmd) s = execCellarStream cmd s := rfl
@[simp] theorem exec_copyComplete (cmd : Nat) (s : State) : exec (.copyComplete cmd) s = execCopyComplete cmd s := rfl
@[simp] theorem exec_tunStep (core : Nat) (s : State) : exec (.tunStep core) s = execTunStep core s := rfl
@[simp] theorem exec_tunOperationDone (core : Nat) (s : State) : exec (.tunOperationDone core) s = execTunOperationDone core s := rfl
@[simp] theorem exec_peerAddApply (core : Nat) (crew : Nat) (tile : BitVec 2) (s : State) : exec (.peerAddApply core crew tile) s = execPeerAddApply core crew tile s := rfl
@[simp] theorem exec_ctabDone (core : Nat) (s : State) : exec (.ctabDone core) s = execCtabDone core s := rfl
@[simp] theorem exec_waitTimeout (r : SplitRef) (s : State) : exec (.waitTimeout r) s = execWaitTimeout r s := rfl
@[simp] theorem exec_pairWord (f : PairWord) (s : State) : exec (.pairWord f) s = execPairWord f s := rfl
@[simp] theorem exec_nop (f : RWord) (s : State) : exec (.nop f) s = execNop f s := rfl
@[simp] theorem exec_capq (f : RWord) (s : State) : exec (.capq f) s = execCapq f s := rfl
@[simp] theorem exec_trap (f : RWord) (s : State) : exec (.trap f) s = execTrap f s := rfl
@[simp] theorem exec_rte (f : RWord) (s : State) : exec (.rte f) s = execRte f s := rfl
@[simp] theorem exec_br (f : IWord) (s : State) : exec (.br f) s = execBr f s := rfl
@[simp] theorem exec_bz (f : IWord) (s : State) : exec (.bz f) s = execBz f s := rfl
@[simp] theorem exec_bnz (f : IWord) (s : State) : exec (.bnz f) s = execBnz f s := rfl
@[simp] theorem exec_bk (f : IWord) (s : State) : exec (.bk f) s = execBk f s := rfl
@[simp] theorem exec_bnk (f : IWord) (s : State) : exec (.bnk f) s = execBnk f s := rfl
@[simp] theorem exec_call (f : IWord) (s : State) : exec (.call f) s = execCall f s := rfl
@[simp] theorem exec_ret (f : IWord) (s : State) : exec (.ret f) s = execRet f s := rfl
@[simp] theorem exec_mark (f : IWord) (s : State) : exec (.mark f) s = execMark f s := rfl
@[simp] theorem exec_join (f : IWord) (s : State) : exec (.join f) s = execJoin f s := rfl
@[simp] theorem exec_exit (f : IWord) (s : State) : exec (.exit f) s = execExit f s := rfl
@[simp] theorem exec_addB64 (f : RWord) (s : State) : exec (.addB64 f) s = execAddB64 f s := rfl
@[simp] theorem exec_subB64 (f : RWord) (s : State) : exec (.subB64 f) s = execSubB64 f s := rfl
@[simp] theorem exec_mulB64 (f : RWord) (s : State) : exec (.mulB64 f) s = execMulB64 f s := rfl
@[simp] theorem exec_mulhiI64 (f : RWord) (s : State) : exec (.mulhiI64 f) s = execMulhiI64 f s := rfl
@[simp] theorem exec_mulhiN64 (f : RWord) (s : State) : exec (.mulhiN64 f) s = execMulhiN64 f s := rfl
@[simp] theorem exec_andB64 (f : RWord) (s : State) : exec (.andB64 f) s = execAndB64 f s := rfl
@[simp] theorem exec_orB64 (f : RWord) (s : State) : exec (.orB64 f) s = execOrB64 f s := rfl
@[simp] theorem exec_xorB64 (f : RWord) (s : State) : exec (.xorB64 f) s = execXorB64 f s := rfl
@[simp] theorem exec_andnB64 (f : RWord) (s : State) : exec (.andnB64 f) s = execAndnB64 f s := rfl
@[simp] theorem exec_shlB64 (f : RWord) (s : State) : exec (.shlB64 f) s = execShlB64 f s := rfl
@[simp] theorem exec_shrN64 (f : RWord) (s : State) : exec (.shrN64 f) s = execShrN64 f s := rfl
@[simp] theorem exec_shrI64 (f : RWord) (s : State) : exec (.shrI64 f) s = execShrI64 f s := rfl
@[simp] theorem exec_minI64 (f : RWord) (s : State) : exec (.minI64 f) s = execMinI64 f s := rfl
@[simp] theorem exec_maxI64 (f : RWord) (s : State) : exec (.maxI64 f) s = execMaxI64 f s := rfl
@[simp] theorem exec_minN64 (f : RWord) (s : State) : exec (.minN64 f) s = execMinN64 f s := rfl
@[simp] theorem exec_maxN64 (f : RWord) (s : State) : exec (.maxN64 f) s = execMaxN64 f s := rfl
@[simp] theorem exec_maddB64 (f : RWord) (s : State) : exec (.maddB64 f) s = execMaddB64 f s := rfl
@[simp] theorem exec_addoI64 (f : RWord) (s : State) : exec (.addoI64 f) s = execAddoI64 f s := rfl
@[simp] theorem exec_addoN64 (f : RWord) (s : State) : exec (.addoN64 f) s = execAddoN64 f s := rfl
@[simp] theorem exec_suboI64 (f : RWord) (s : State) : exec (.suboI64 f) s = execSuboI64 f s := rfl
@[simp] theorem exec_suboN64 (f : RWord) (s : State) : exec (.suboN64 f) s = execSuboN64 f s := rfl
@[simp] theorem exec_muloI64 (f : RWord) (s : State) : exec (.muloI64 f) s = execMuloI64 f s := rfl
@[simp] theorem exec_muloN64 (f : RWord) (s : State) : exec (.muloN64 f) s = execMuloN64 f s := rfl
@[simp] theorem exec_addiB64 (f : IWord) (s : State) : exec (.addiB64 f) s = execAddiB64 f s := rfl
@[simp] theorem exec_andiB64 (f : IWord) (s : State) : exec (.andiB64 f) s = execAndiB64 f s := rfl
@[simp] theorem exec_oriB64 (f : IWord) (s : State) : exec (.oriB64 f) s = execOriB64 f s := rfl
@[simp] theorem exec_xoriB64 (f : IWord) (s : State) : exec (.xoriB64 f) s = execXoriB64 f s := rfl
@[simp] theorem exec_inshB64 (f : IWord) (s : State) : exec (.inshB64 f) s = execInshB64 f s := rfl
@[simp] theorem exec_moviB64 (f : IWord) (s : State) : exec (.moviB64 f) s = execMoviB64 f s := rfl
@[simp] theorem exec_cmpEqB64 (f : RWord) (s : State) : exec (.cmpEqB64 f) s = execCmpEqB64 f s := rfl
@[simp] theorem exec_cmpNeB64 (f : RWord) (s : State) : exec (.cmpNeB64 f) s = execCmpNeB64 f s := rfl
@[simp] theorem exec_cmpLtI64 (f : RWord) (s : State) : exec (.cmpLtI64 f) s = execCmpLtI64 f s := rfl
@[simp] theorem exec_cmpLeI64 (f : RWord) (s : State) : exec (.cmpLeI64 f) s = execCmpLeI64 f s := rfl
@[simp] theorem exec_cmpLtN64 (f : RWord) (s : State) : exec (.cmpLtN64 f) s = execCmpLtN64 f s := rfl
@[simp] theorem exec_cmpLeN64 (f : RWord) (s : State) : exec (.cmpLeN64 f) s = execCmpLeN64 f s := rfl
@[simp] theorem exec_selB64 (f : RWord) (s : State) : exec (.selB64 f) s = execSelB64 f s := rfl
@[simp] theorem exec_popcB64 (f : RWord) (s : State) : exec (.popcB64 f) s = execPopcB64 f s := rfl
@[simp] theorem exec_clzB64 (f : RWord) (s : State) : exec (.clzB64 f) s = execClzB64 f s := rfl
@[simp] theorem exec_ctzB64 (f : RWord) (s : State) : exec (.ctzB64 f) s = execCtzB64 f s := rfl
@[simp] theorem exec_brevB64 (f : RWord) (s : State) : exec (.brevB64 f) s = execBrevB64 f s := rfl
@[simp] theorem exec_bextB64 (f : RWord) (s : State) : exec (.bextB64 f) s = execBextB64 f s := rfl
@[simp] theorem exec_binsB64 (f : RWord) (s : State) : exec (.binsB64 f) s = execBinsB64 f s := rfl
@[simp] theorem exec_rdfr (f : RWord) (s : State) : exec (.rdfr f) s = execRdfr f s := rfl
@[simp] theorem exec_wrsr (f : RWord) (s : State) : exec (.wrsr f) s = execWrsr f s := rfl
@[simp] theorem exec_se (f : IWord) (s : State) : exec (.se f) s = execSe f s := rfl
@[simp] theorem exec_migr (f : IWord) (s : State) : exec (.migr f) s = execMigr f s := rfl
@[simp] theorem exec_addI32 (f : MRWord) (s : State) : exec (.addI32 f) s = execAddI32 f s := rfl
@[simp] theorem exec_subI32 (f : MRWord) (s : State) : exec (.subI32 f) s = execSubI32 f s := rfl
@[simp] theorem exec_addN32 (f : MRWord) (s : State) : exec (.addN32 f) s = execAddN32 f s := rfl
@[simp] theorem exec_subN32 (f : MRWord) (s : State) : exec (.subN32 f) s = execSubN32 f s := rfl
@[simp] theorem exec_andB32 (f : MRWord) (s : State) : exec (.andB32 f) s = execAndB32 f s := rfl
@[simp] theorem exec_orB32 (f : MRWord) (s : State) : exec (.orB32 f) s = execOrB32 f s := rfl
@[simp] theorem exec_xorB32 (f : MRWord) (s : State) : exec (.xorB32 f) s = execXorB32 f s := rfl
@[simp] theorem exec_andnB32 (f : MRWord) (s : State) : exec (.andnB32 f) s = execAndnB32 f s := rfl
@[simp] theorem exec_shlB32 (f : MRWord) (s : State) : exec (.shlB32 f) s = execShlB32 f s := rfl
@[simp] theorem exec_shrN32 (f : MRWord) (s : State) : exec (.shrN32 f) s = execShrN32 f s := rfl
@[simp] theorem exec_shrI32 (f : MRWord) (s : State) : exec (.shrI32 f) s = execShrI32 f s := rfl
@[simp] theorem exec_minI32 (f : MRWord) (s : State) : exec (.minI32 f) s = execMinI32 f s := rfl
@[simp] theorem exec_maxI32 (f : MRWord) (s : State) : exec (.maxI32 f) s = execMaxI32 f s := rfl
@[simp] theorem exec_minN32 (f : MRWord) (s : State) : exec (.minN32 f) s = execMinN32 f s := rfl
@[simp] theorem exec_maxN32 (f : MRWord) (s : State) : exec (.maxN32 f) s = execMaxN32 f s := rfl
@[simp] theorem exec_mulB32 (f : MRWord) (s : State) : exec (.mulB32 f) s = execMulB32 f s := rfl
@[simp] theorem exec_mulhiI32 (f : MRWord) (s : State) : exec (.mulhiI32 f) s = execMulhiI32 f s := rfl
@[simp] theorem exec_mulhiN32 (f : MRWord) (s : State) : exec (.mulhiN32 f) s = execMulhiN32 f s := rfl
@[simp] theorem exec_drcpN32 (f : MRWord) (s : State) : exec (.drcpN32 f) s = execDrcpN32 f s := rfl
@[simp] theorem exec_dcorN32 (f : MRWord) (s : State) : exec (.dcorN32 f) s = execDcorN32 f s := rfl
@[simp] theorem exec_addI16 (f : MRWord) (s : State) : exec (.addI16 f) s = execAddI16 f s := rfl
@[simp] theorem exec_subI16 (f : MRWord) (s : State) : exec (.subI16 f) s = execSubI16 f s := rfl
@[simp] theorem exec_minI16 (f : MRWord) (s : State) : exec (.minI16 f) s = execMinI16 f s := rfl
@[simp] theorem exec_maxI16 (f : MRWord) (s : State) : exec (.maxI16 f) s = execMaxI16 f s := rfl
@[simp] theorem exec_addI8 (f : MRWord) (s : State) : exec (.addI8 f) s = execAddI8 f s := rfl
@[simp] theorem exec_subI8 (f : MRWord) (s : State) : exec (.subI8 f) s = execSubI8 f s := rfl
@[simp] theorem exec_minN8 (f : MRWord) (s : State) : exec (.minN8 f) s = execMinN8 f s := rfl
@[simp] theorem exec_maxN8 (f : MRWord) (s : State) : exec (.maxN8 f) s = execMaxN8 f s := rfl
@[simp] theorem exec_absI32 (f : MRWord) (s : State) : exec (.absI32 f) s = execAbsI32 f s := rfl
@[simp] theorem exec_popcB32 (f : MRWord) (s : State) : exec (.popcB32 f) s = execPopcB32 f s := rfl
@[simp] theorem exec_clzB32 (f : MRWord) (s : State) : exec (.clzB32 f) s = execClzB32 f s := rfl
@[simp] theorem exec_brevB32 (f : MRWord) (s : State) : exec (.brevB32 f) s = execBrevB32 f s := rfl
@[simp] theorem exec_addiI32 (f : IWord) (s : State) : exec (.addiI32 f) s = execAddiI32 f s := rfl
@[simp] theorem exec_andiB32 (f : IWord) (s : State) : exec (.andiB32 f) s = execAndiB32 f s := rfl
@[simp] theorem exec_oriB32 (f : IWord) (s : State) : exec (.oriB32 f) s = execOriB32 f s := rfl
@[simp] theorem exec_xoriB32 (f : IWord) (s : State) : exec (.xoriB32 f) s = execXoriB32 f s := rfl
@[simp] theorem exec_shliB32 (f : IWord) (s : State) : exec (.shliB32 f) s = execShliB32 f s := rfl
@[simp] theorem exec_shriN32 (f : IWord) (s : State) : exec (.shriN32 f) s = execShriN32 f s := rfl
@[simp] theorem exec_shriI32 (f : IWord) (s : State) : exec (.shriI32 f) s = execShriI32 f s := rfl
@[simp] theorem exec_moviB32 (f : IWord) (s : State) : exec (.moviB32 f) s = execMoviB32 f s := rfl
@[simp] theorem exec_addF32 (f : MRWord) (s : State) : exec (.addF32 f) s = execAddF32 f s := rfl
@[simp] theorem exec_subF32 (f : MRWord) (s : State) : exec (.subF32 f) s = execSubF32 f s := rfl
@[simp] theorem exec_mulF32 (f : MRWord) (s : State) : exec (.mulF32 f) s = execMulF32 f s := rfl
@[simp] theorem exec_minF32 (f : MRWord) (s : State) : exec (.minF32 f) s = execMinF32 f s := rfl
@[simp] theorem exec_maxF32 (f : MRWord) (s : State) : exec (.maxF32 f) s = execMaxF32 f s := rfl
@[simp] theorem exec_addF16 (f : MRWord) (s : State) : exec (.addF16 f) s = execAddF16 f s := rfl
@[simp] theorem exec_subF16 (f : MRWord) (s : State) : exec (.subF16 f) s = execSubF16 f s := rfl
@[simp] theorem exec_mulF16 (f : MRWord) (s : State) : exec (.mulF16 f) s = execMulF16 f s := rfl
@[simp] theorem exec_minF16 (f : MRWord) (s : State) : exec (.minF16 f) s = execMinF16 f s := rfl
@[simp] theorem exec_maxF16 (f : MRWord) (s : State) : exec (.maxF16 f) s = execMaxF16 f s := rfl
@[simp] theorem exec_addBf16 (f : MRWord) (s : State) : exec (.addBf16 f) s = execAddBf16 f s := rfl
@[simp] theorem exec_subBf16 (f : MRWord) (s : State) : exec (.subBf16 f) s = execSubBf16 f s := rfl
@[simp] theorem exec_mulBf16 (f : MRWord) (s : State) : exec (.mulBf16 f) s = execMulBf16 f s := rfl
@[simp] theorem exec_minBf16 (f : MRWord) (s : State) : exec (.minBf16 f) s = execMinBf16 f s := rfl
@[simp] theorem exec_maxBf16 (f : MRWord) (s : State) : exec (.maxBf16 f) s = execMaxBf16 f s := rfl
@[simp] theorem exec_absF32 (f : MRWord) (s : State) : exec (.absF32 f) s = execAbsF32 f s := rfl
@[simp] theorem exec_negF32 (f : MRWord) (s : State) : exec (.negF32 f) s = execNegF32 f s := rfl
@[simp] theorem exec_absF16 (f : MRWord) (s : State) : exec (.absF16 f) s = execAbsF16 f s := rfl
@[simp] theorem exec_negF16 (f : MRWord) (s : State) : exec (.negF16 f) s = execNegF16 f s := rfl
@[simp] theorem exec_absBf16 (f : MRWord) (s : State) : exec (.absBf16 f) s = execAbsBf16 f s := rfl
@[simp] theorem exec_negBf16 (f : MRWord) (s : State) : exec (.negBf16 f) s = execNegBf16 f s := rfl
@[simp] theorem exec_fmaF32 (f : FmaWord) (s : State) : exec (.fmaF32 f) s = execFmaF32 f s := rfl
@[simp] theorem exec_fmsF32 (f : FmaWord) (s : State) : exec (.fmsF32 f) s = execFmsF32 f s := rfl
@[simp] theorem exec_fnmaF32 (f : FmaWord) (s : State) : exec (.fnmaF32 f) s = execFnmaF32 f s := rfl
@[simp] theorem exec_fnmsF32 (f : FmaWord) (s : State) : exec (.fnmsF32 f) s = execFnmsF32 f s := rfl
@[simp] theorem exec_fmaF16 (f : FmaWord) (s : State) : exec (.fmaF16 f) s = execFmaF16 f s := rfl
@[simp] theorem exec_fmaBf16 (f : FmaWord) (s : State) : exec (.fmaBf16 f) s = execFmaBf16 f s := rfl
@[simp] theorem exec_cmpEqI32 (f : MRWord) (s : State) : exec (.cmpEqI32 f) s = execCmpEqI32 f s := rfl
@[simp] theorem exec_cmpNeI32 (f : MRWord) (s : State) : exec (.cmpNeI32 f) s = execCmpNeI32 f s := rfl
@[simp] theorem exec_cmpLtI32 (f : MRWord) (s : State) : exec (.cmpLtI32 f) s = execCmpLtI32 f s := rfl
@[simp] theorem exec_cmpLeI32 (f : MRWord) (s : State) : exec (.cmpLeI32 f) s = execCmpLeI32 f s := rfl
@[simp] theorem exec_cmpLtN32 (f : MRWord) (s : State) : exec (.cmpLtN32 f) s = execCmpLtN32 f s := rfl
@[simp] theorem exec_cmpLeN32 (f : MRWord) (s : State) : exec (.cmpLeN32 f) s = execCmpLeN32 f s := rfl
@[simp] theorem exec_cmpEqF32 (f : MRWord) (s : State) : exec (.cmpEqF32 f) s = execCmpEqF32 f s := rfl
@[simp] theorem exec_cmpNeF32 (f : MRWord) (s : State) : exec (.cmpNeF32 f) s = execCmpNeF32 f s := rfl
@[simp] theorem exec_cmpLtF32 (f : MRWord) (s : State) : exec (.cmpLtF32 f) s = execCmpLtF32 f s := rfl
@[simp] theorem exec_cmpLeF32 (f : MRWord) (s : State) : exec (.cmpLeF32 f) s = execCmpLeF32 f s := rfl
@[simp] theorem exec_cmpUnF32 (f : MRWord) (s : State) : exec (.cmpUnF32 f) s = execCmpUnF32 f s := rfl
@[simp] theorem exec_kand (f : MRWord) (s : State) : exec (.kand f) s = execKand f s := rfl
@[simp] theorem exec_kor (f : MRWord) (s : State) : exec (.kor f) s = execKor f s := rfl
@[simp] theorem exec_kxor (f : MRWord) (s : State) : exec (.kxor f) s = execKxor f s := rfl
@[simp] theorem exec_kandn (f : MRWord) (s : State) : exec (.kandn f) s = execKandn f s := rfl
@[simp] theorem exec_knot (f : MRWord) (s : State) : exec (.knot f) s = execKnot f s := rfl
@[simp] theorem exec_kfirst (f : MRWord) (s : State) : exec (.kfirst f) s = execKfirst f s := rfl
@[simp] theorem exec_compressB32 (f : MRWord) (s : State) : exec (.compressB32 f) s = execCompressB32 f s := rfl
@[simp] theorem exec_expandB32 (f : MRWord) (s : State) : exec (.expandB32 f) s = execExpandB32 f s := rfl
@[simp] theorem exec_slideupB32 (f : MRWord) (s : State) : exec (.slideupB32 f) s = execSlideupB32 f s := rfl
@[simp] theorem exec_slidednB32 (f : MRWord) (s : State) : exec (.slidednB32 f) s = execSlidednB32 f s := rfl
@[simp] theorem exec_matchB32 (f : MRWord) (s : State) : exec (.matchB32 f) s = execMatchB32 f s := rfl
@[simp] theorem exec_redAddI32 (f : MRWord) (s : State) : exec (.redAddI32 f) s = execRedAddI32 f s := rfl
@[simp] theorem exec_redAddF32 (f : MRWord) (s : State) : exec (.redAddF32 f) s = execRedAddF32 f s := rfl
@[simp] theorem exec_redMinI32 (f : MRWord) (s : State) : exec (.redMinI32 f) s = execRedMinI32 f s := rfl
@[simp] theorem exec_redMaxI32 (f : MRWord) (s : State) : exec (.redMaxI32 f) s = execRedMaxI32 f s := rfl
@[simp] theorem exec_redMinN32 (f : MRWord) (s : State) : exec (.redMinN32 f) s = execRedMinN32 f s := rfl
@[simp] theorem exec_redMaxN32 (f : MRWord) (s : State) : exec (.redMaxN32 f) s = execRedMaxN32 f s := rfl
@[simp] theorem exec_redMinF32 (f : MRWord) (s : State) : exec (.redMinF32 f) s = execRedMinF32 f s := rfl
@[simp] theorem exec_redMaxF32 (f : MRWord) (s : State) : exec (.redMaxF32 f) s = execRedMaxF32 f s := rfl
@[simp] theorem exec_redAndB32 (f : MRWord) (s : State) : exec (.redAndB32 f) s = execRedAndB32 f s := rfl
@[simp] theorem exec_redOrB32 (f : MRWord) (s : State) : exec (.redOrB32 f) s = execRedOrB32 f s := rfl
@[simp] theorem exec_redXorB32 (f : MRWord) (s : State) : exec (.redXorB32 f) s = execRedXorB32 f s := rfl
@[simp] theorem exec_scanAddI32 (f : MRWord) (s : State) : exec (.scanAddI32 f) s = execScanAddI32 f s := rfl
@[simp] theorem exec_scanAddF32 (f : MRWord) (s : State) : exec (.scanAddF32 f) s = execScanAddF32 f s := rfl
@[simp] theorem exec_scanMaxI32 (f : MRWord) (s : State) : exec (.scanMaxI32 f) s = execScanMaxI32 f s := rfl
@[simp] theorem exec_scanMaxF32 (f : MRWord) (s : State) : exec (.scanMaxF32 f) s = execScanMaxF32 f s := rfl
@[simp] theorem exec_cvtF16F32 (f : CvtWord) (s : State) : exec (.cvtF16F32 f) s = execCvtF16F32 f s := rfl
@[simp] theorem exec_cvtBf16F32 (f : CvtWord) (s : State) : exec (.cvtBf16F32 f) s = execCvtBf16F32 f s := rfl
@[simp] theorem exec_cvtF8e4F32 (f : CvtWord) (s : State) : exec (.cvtF8e4F32 f) s = execCvtF8e4F32 f s := rfl
@[simp] theorem exec_cvtF8e5F32 (f : CvtWord) (s : State) : exec (.cvtF8e5F32 f) s = execCvtF8e5F32 f s := rfl
@[simp] theorem exec_cvtF32F16 (f : CvtWord) (s : State) : exec (.cvtF32F16 f) s = execCvtF32F16 f s := rfl
@[simp] theorem exec_cvtF32Bf16 (f : CvtWord) (s : State) : exec (.cvtF32Bf16 f) s = execCvtF32Bf16 f s := rfl
@[simp] theorem exec_cvtF32F8e4 (f : CvtWord) (s : State) : exec (.cvtF32F8e4 f) s = execCvtF32F8e4 f s := rfl
@[simp] theorem exec_cvtF32F8e5 (f : CvtWord) (s : State) : exec (.cvtF32F8e5 f) s = execCvtF32F8e5 f s := rfl
@[simp] theorem exec_cvtF32I32 (f : MRWord) (s : State) : exec (.cvtF32I32 f) s = execCvtF32I32 f s := rfl
@[simp] theorem exec_cvtF32N32 (f : MRWord) (s : State) : exec (.cvtF32N32 f) s = execCvtF32N32 f s := rfl
@[simp] theorem exec_cvtI32F32 (f : MRWord) (s : State) : exec (.cvtI32F32 f) s = execCvtI32F32 f s := rfl
@[simp] theorem exec_cvtN32F32 (f : MRWord) (s : State) : exec (.cvtN32F32 f) s = execCvtN32F32 f s := rfl
@[simp] theorem exec_packI16I32 (f : MRWord) (s : State) : exec (.packI16I32 f) s = execPackI16I32 f s := rfl
@[simp] theorem exec_packI8I16 (f : MRWord) (s : State) : exec (.packI8I16 f) s = execPackI8I16 f s := rfl
@[simp] theorem exec_cvtHq4F32 (f : MRWord) (s : State) : exec (.cvtHq4F32 f) s = execCvtHq4F32 f s := rfl
@[simp] theorem exec_rcpF32 (f : MRWord) (s : State) : exec (.rcpF32 f) s = execRcpF32 f s := rfl
@[simp] theorem exec_rsqrtF32 (f : MRWord) (s : State) : exec (.rsqrtF32 f) s = execRsqrtF32 f s := rfl
@[simp] theorem exec_sqrtF32 (f : MRWord) (s : State) : exec (.sqrtF32 f) s = execSqrtF32 f s := rfl
@[simp] theorem exec_exp2F32 (f : MRWord) (s : State) : exec (.exp2F32 f) s = execExp2F32 f s := rfl
@[simp] theorem exec_log2F32 (f : MRWord) (s : State) : exec (.log2F32 f) s = execLog2F32 f s := rfl
@[simp] theorem exec_sinpiF32 (f : MRWord) (s : State) : exec (.sinpiF32 f) s = execSinpiF32 f s := rfl
@[simp] theorem exec_cospiF32 (f : MRWord) (s : State) : exec (.cospiF32 f) s = execCospiF32 f s := rfl
@[simp] theorem exec_tanhF32 (f : MRWord) (s : State) : exec (.tanhF32 f) s = execTanhF32 f s := rfl
@[simp] theorem exec_divF32 (f : MRWord) (s : State) : exec (.divF32 f) s = execDivF32 f s := rfl
@[simp] theorem exec_lds (f : MWord) (s : State) : exec (.lds f) s = execLds f s := rfl
@[simp] theorem exec_sts (f : MWord) (s : State) : exec (.sts f) s = execSts f s := rfl
@[simp] theorem exec_ldc (f : MWord) (s : State) : exec (.ldc f) s = execLdc f s := rfl
@[simp] theorem exec_stc (f : MWord) (s : State) : exec (.stc f) s = execStc f s := rfl
@[simp] theorem exec_ldd (f : MWord) (s : State) : exec (.ldd f) s = execLdd f s := rfl
@[simp] theorem exec_std (f : MWord) (s : State) : exec (.std f) s = execStd f s := rfl
@[simp] theorem exec_ldp (f : MWord) (s : State) : exec (.ldp f) s = execLdp f s := rfl
@[simp] theorem exec_stp (f : MWord) (s : State) : exec (.stp f) s = execStp f s := rfl
@[simp] theorem exec_ldh (f : MWord) (s : State) : exec (.ldh f) s = execLdh f s := rfl
@[simp] theorem exec_sth (f : MWord) (s : State) : exec (.sth f) s = execSth f s := rfl
@[simp] theorem exec_ldk (f : MWord) (s : State) : exec (.ldk f) s = execLdk f s := rfl
@[simp] theorem exec_atsAdd (f : AWord) (s : State) : exec (.atsAdd f) s = execAtsAdd f s := rfl
@[simp] theorem exec_atsAnd (f : AWord) (s : State) : exec (.atsAnd f) s = execAtsAnd f s := rfl
@[simp] theorem exec_atsOr (f : AWord) (s : State) : exec (.atsOr f) s = execAtsOr f s := rfl
@[simp] theorem exec_atsXor (f : AWord) (s : State) : exec (.atsXor f) s = execAtsXor f s := rfl
@[simp] theorem exec_atsSmin (f : AWord) (s : State) : exec (.atsSmin f) s = execAtsSmin f s := rfl
@[simp] theorem exec_atsSmax (f : AWord) (s : State) : exec (.atsSmax f) s = execAtsSmax f s := rfl
@[simp] theorem exec_atsUmin (f : AWord) (s : State) : exec (.atsUmin f) s = execAtsUmin f s := rfl
@[simp] theorem exec_atsUmax (f : AWord) (s : State) : exec (.atsUmax f) s = execAtsUmax f s := rfl
@[simp] theorem exec_atsExch (f : AWord) (s : State) : exec (.atsExch f) s = execAtsExch f s := rfl
@[simp] theorem exec_atsCas (f : AWord) (s : State) : exec (.atsCas f) s = execAtsCas f s := rfl
@[simp] theorem exec_atsFadd (f : AWord) (s : State) : exec (.atsFadd f) s = execAtsFadd f s := rfl
@[simp] theorem exec_atcAdd (f : AWord) (s : State) : exec (.atcAdd f) s = execAtcAdd f s := rfl
@[simp] theorem exec_atcAnd (f : AWord) (s : State) : exec (.atcAnd f) s = execAtcAnd f s := rfl
@[simp] theorem exec_atcOr (f : AWord) (s : State) : exec (.atcOr f) s = execAtcOr f s := rfl
@[simp] theorem exec_atcXor (f : AWord) (s : State) : exec (.atcXor f) s = execAtcXor f s := rfl
@[simp] theorem exec_atcSmin (f : AWord) (s : State) : exec (.atcSmin f) s = execAtcSmin f s := rfl
@[simp] theorem exec_atcSmax (f : AWord) (s : State) : exec (.atcSmax f) s = execAtcSmax f s := rfl
@[simp] theorem exec_atcUmin (f : AWord) (s : State) : exec (.atcUmin f) s = execAtcUmin f s := rfl
@[simp] theorem exec_atcUmax (f : AWord) (s : State) : exec (.atcUmax f) s = execAtcUmax f s := rfl
@[simp] theorem exec_atcExch (f : AWord) (s : State) : exec (.atcExch f) s = execAtcExch f s := rfl
@[simp] theorem exec_atcCas (f : AWord) (s : State) : exec (.atcCas f) s = execAtcCas f s := rfl
@[simp] theorem exec_atcFadd (f : AWord) (s : State) : exec (.atcFadd f) s = execAtcFadd f s := rfl
@[simp] theorem exec_atdAdd (f : AWord) (s : State) : exec (.atdAdd f) s = execAtdAdd f s := rfl
@[simp] theorem exec_atdAnd (f : AWord) (s : State) : exec (.atdAnd f) s = execAtdAnd f s := rfl
@[simp] theorem exec_atdOr (f : AWord) (s : State) : exec (.atdOr f) s = execAtdOr f s := rfl
@[simp] theorem exec_atdXor (f : AWord) (s : State) : exec (.atdXor f) s = execAtdXor f s := rfl
@[simp] theorem exec_atdSmin (f : AWord) (s : State) : exec (.atdSmin f) s = execAtdSmin f s := rfl
@[simp] theorem exec_atdSmax (f : AWord) (s : State) : exec (.atdSmax f) s = execAtdSmax f s := rfl
@[simp] theorem exec_atdUmin (f : AWord) (s : State) : exec (.atdUmin f) s = execAtdUmin f s := rfl
@[simp] theorem exec_atdUmax (f : AWord) (s : State) : exec (.atdUmax f) s = execAtdUmax f s := rfl
@[simp] theorem exec_atdExch (f : AWord) (s : State) : exec (.atdExch f) s = execAtdExch f s := rfl
@[simp] theorem exec_atdCas (f : AWord) (s : State) : exec (.atdCas f) s = execAtdCas f s := rfl
@[simp] theorem exec_atdFadd (f : AWord) (s : State) : exec (.atdFadd f) s = execAtdFadd f s := rfl
@[simp] theorem exec_atrPAdd (f : AWord) (s : State) : exec (.atrPAdd f) s = execAtrPAdd f s := rfl
@[simp] theorem exec_atrPAnd (f : AWord) (s : State) : exec (.atrPAnd f) s = execAtrPAnd f s := rfl
@[simp] theorem exec_atrPOr (f : AWord) (s : State) : exec (.atrPOr f) s = execAtrPOr f s := rfl
@[simp] theorem exec_atrPXor (f : AWord) (s : State) : exec (.atrPXor f) s = execAtrPXor f s := rfl
@[simp] theorem exec_atrPSmin (f : AWord) (s : State) : exec (.atrPSmin f) s = execAtrPSmin f s := rfl
@[simp] theorem exec_atrPSmax (f : AWord) (s : State) : exec (.atrPSmax f) s = execAtrPSmax f s := rfl
@[simp] theorem exec_atrPUmin (f : AWord) (s : State) : exec (.atrPUmin f) s = execAtrPUmin f s := rfl
@[simp] theorem exec_atrPUmax (f : AWord) (s : State) : exec (.atrPUmax f) s = execAtrPUmax f s := rfl
@[simp] theorem exec_atrPExch (f : AWord) (s : State) : exec (.atrPExch f) s = execAtrPExch f s := rfl
@[simp] theorem exec_atrPCas (f : AWord) (s : State) : exec (.atrPCas f) s = execAtrPCas f s := rfl
@[simp] theorem exec_atrPFadd (f : AWord) (s : State) : exec (.atrPFadd f) s = execAtrPFadd f s := rfl
@[simp] theorem exec_atrHAdd (f : AWord) (s : State) : exec (.atrHAdd f) s = execAtrHAdd f s := rfl
@[simp] theorem exec_atrHAnd (f : AWord) (s : State) : exec (.atrHAnd f) s = execAtrHAnd f s := rfl
@[simp] theorem exec_atrHOr (f : AWord) (s : State) : exec (.atrHOr f) s = execAtrHOr f s := rfl
@[simp] theorem exec_atrHXor (f : AWord) (s : State) : exec (.atrHXor f) s = execAtrHXor f s := rfl
@[simp] theorem exec_atrHSmin (f : AWord) (s : State) : exec (.atrHSmin f) s = execAtrHSmin f s := rfl
@[simp] theorem exec_atrHSmax (f : AWord) (s : State) : exec (.atrHSmax f) s = execAtrHSmax f s := rfl
@[simp] theorem exec_atrHUmin (f : AWord) (s : State) : exec (.atrHUmin f) s = execAtrHUmin f s := rfl
@[simp] theorem exec_atrHUmax (f : AWord) (s : State) : exec (.atrHUmax f) s = execAtrHUmax f s := rfl
@[simp] theorem exec_atrHExch (f : AWord) (s : State) : exec (.atrHExch f) s = execAtrHExch f s := rfl
@[simp] theorem exec_atrHCas (f : AWord) (s : State) : exec (.atrHCas f) s = execAtrHCas f s := rfl
@[simp] theorem exec_atrHFadd (f : AWord) (s : State) : exec (.atrHFadd f) s = execAtrHFadd f s := rfl
@[simp] theorem exec_fenceAcq (f : FenceWord) (s : State) : exec (.fenceAcq f) s = execFenceAcq f s := rfl
@[simp] theorem exec_fenceRel (f : FenceWord) (s : State) : exec (.fenceRel f) s = execFenceRel f s := rfl
@[simp] theorem exec_fenceAr (f : FenceWord) (s : State) : exec (.fenceAr f) s = execFenceAr f s := rfl
@[simp] theorem exec_fenceTot (f : FenceWord) (s : State) : exec (.fenceTot f) s = execFenceTot f s := rfl
@[simp] theorem exec_xfence (f : XfenceWord) (s : State) : exec (.xfence f) s = execXfence f s := rfl
@[simp] theorem exec_fenceI (w : Bool) (s : State) : exec (.fenceI w) s = execFenceI w s := rfl
@[simp] theorem exec_barArr (f : RWord) (s : State) : exec (.barArr f) s = execBarArr f s := rfl
@[simp] theorem exec_barHold (f : RWord) (s : State) : exec (.barHold f) s = execBarHold f s := rfl
@[simp] theorem exec_wait (f : RWord) (s : State) : exec (.wait f) s = execWait f s := rfl
@[simp] theorem exec_pass (f : RWord) (s : State) : exec (.pass f) s = execPass f s := rfl
@[simp] theorem exec_cpost (f : RWord) (s : State) : exec (.cpost f) s = execCpost f s := rfl
@[simp] theorem exec_cdrain (f : RWord) (s : State) : exec (.cdrain f) s = execCdrain f s := rfl
@[simp] theorem exec_spawn (f : RWord) (s : State) : exec (.spawn f) s = execSpawn f s := rfl
@[simp] theorem exec_spawnOpen (f : RWord) (s : State) : exec (.spawnOpen f) s = execSpawnOpen f s := rfl
@[simp] theorem exec_arm (f : RWord) (s : State) : exec (.arm f) s = execArm f s := rfl
@[simp] theorem exec_cancel (f : RWord) (s : State) : exec (.cancel f) s = execCancel f s := rfl
@[simp] theorem exec_step (f : RWord) (s : State) : exec (.step f) s = execStep f s := rfl
@[simp] theorem exec_retire (f : RWord) (s : State) : exec (.retire f) s = execRetire f s := rfl
@[simp] theorem exec_mlda (f : MWord) (s : State) : exec (.mlda f) s = execMlda f s := rfl
@[simp] theorem exec_mldaT (f : MWord) (s : State) : exec (.mldaT f) s = execMldaT f s := rfl
@[simp] theorem exec_mldb (f : MWord) (s : State) : exec (.mldb f) s = execMldb f s := rfl
@[simp] theorem exec_mma (f : RWord) (s : State) : exec (.mma f) s = execMma f s := rfl
@[simp] theorem exec_mmaZ (f : RWord) (s : State) : exec (.mmaZ f) s = execMmaZ f s := rfl
@[simp] theorem exec_mzero (f : RWord) (s : State) : exec (.mzero f) s = execMzero f s := rfl
@[simp] theorem exec_mdrain (f : RWord) (s : State) : exec (.mdrain f) s = execMdrain f s := rfl
@[simp] theorem exec_mdrainp (f : RWord) (s : State) : exec (.mdrainp f) s = execMdrainp f s := rfl
@[simp] theorem exec_marm (f : RWord) (s : State) : exec (.marm f) s = execMarm f s := rfl
@[simp] theorem exec_mstat (f : RWord) (s : State) : exec (.mstat f) s = execMstat f s := rfl
@[simp] theorem exec_ctab (f : RWord) (s : State) : exec (.ctab f) s = execCtab f s := rfl
@[simp] theorem exec_msave (f : RWord) (s : State) : exec (.msave f) s = execMsave f s := rfl
@[simp] theorem exec_mrest (f : RWord) (s : State) : exec (.mrest f) s = execMrest f s := rfl
@[simp] theorem exec_hostWriteError (r : HostWriteRef) (s : State) : exec (.hostWriteError r) s = execHostWriteError r s := rfl

end Sys2Proof.Machine
end

