-- ==== Sys2Proof/Laws/Memory.lean ====
section
/-! SUPPORT. Memories and sparse maps: a read after a write, every other place, and the canonical form that every memory operation keeps. -/
namespace Sys2Proof.Machine

/-! ## Sparse maps -/

@[simp] theorem SMap.get_put_same {α : Type} (m : SMap α) (k : Nat) (v d : α) : (m.put k v).get k d = v := by
  induction m with
  | nil => simp [SMap.put, SMap.get]
  | cons e t ih =>
    obtain ⟨k', v'⟩ := e
    unfold SMap.put
    split
    · simp [SMap.get]
    · split
      · simp [SMap.get]
      · rename_i h
        simp [SMap.get, h, ih]

@[simp] theorem SMap.get_put_other {α : Type} (m : SMap α) (k j : Nat) (v d : α) (h : j ≠ k) : (m.put k v).get j d = m.get j d := by
  induction m with
  | nil => simp [SMap.put, SMap.get, h]
  | cons e t ih =>
    obtain ⟨k', v'⟩ := e
    unfold SMap.put
    split
    · simp [SMap.get, h]
    · split
      · rename_i h2
        subst h2
        simp [SMap.get, h]
      · simp [SMap.get, ih]

/-- Writing a key keeps the keys rising. -/
theorem SMap.put_wf {α : Type} {m : SMap α} (k : Nat) (v : α) (h : m.wf = true) : (m.put k v).wf = true := by
  have head : ∀ (m : SMap α) (j : Nat) (u : α), SMap.wf ((j, u) :: m) = true → j < k → SMap.wf ((j, u) :: m.put k v) = true := by
    intro m
    induction m with
    | nil => intro j u _ hjk; simpa [SMap.put, SMap.wf] using hjk
    | cons e t ih =>
      obtain ⟨k', v'⟩ := e
      intro j u hw hjk
      simp only [SMap.wf, Bool.and_eq_true, decide_eq_true_eq] at hw
      unfold SMap.put
      split
      · simp [SMap.wf, *]
      · split
        · rename_i h2
          subst h2
          cases t <;> simp_all [SMap.wf]
        · simp only [SMap.wf, Bool.and_eq_true, decide_eq_true_eq]
          exact ⟨hw.1, ih k' v' hw.2 (by omega)⟩
  cases m with
  | nil => rfl
  | cons e t =>
    obtain ⟨k', v'⟩ := e
    unfold SMap.put
    split
    · simp [SMap.wf, *]
    · split
      · rename_i h2
        subst h2
        cases t <;> simp_all [SMap.wf]
      · exact head t k' v' h (by omega)

/-- Writing bytes keeps the keys rising. -/
theorem SMap.putBytes_wf {m : SMap Byte} (k : Nat) (bs : List Byte) (h : m.wf = true) : (m.putBytes k bs).wf = true := by
  induction bs generalizing m k with
  | nil => exact h
  | cons b t ih => exact ih (k + 1) (SMap.put_wf k b h)

/-- Writing bytes leaves every other key as it was. -/
theorem SMap.get_putBytes_other (m : SMap Byte) (k j : Nat) (bs : List Byte) (d : Byte) (h : j < k ∨ k + bs.length ≤ j) : (m.putBytes k bs).get j d = m.get j d := by
  induction bs generalizing m k with
  | nil => rfl
  | cons b t ih =>
    simp only [List.length_cons] at h
    rw [SMap.putBytes, ih _ _ (by omega), SMap.get_put_other _ _ _ _ _ (by omega)]

/-- Bytes written read back. -/
theorem SMap.get_putBytes (m : SMap Byte) (k i : Nat) (bs : List Byte) (d : Byte) (hi : i < bs.length) : (m.putBytes k bs).get (k + i) d = bs[i] := by
  induction bs generalizing m k i with
  | nil => simp at hi
  | cons b t ih =>
    cases i with
    | zero => simp [SMap.putBytes, SMap.get_putBytes_other]
    | succ i =>
      rw [SMap.putBytes, show k + (i + 1) = k + 1 + i by omega, ih _ _ i (by simpa using hi)]
      rfl

/-! ## Memories -/

theorem Memory.get_cons (m : Memory) (a x : Nat) (b : Byte) (hm : ∀ c ∈ m, a < c.1) :
    (Memory.cons a b m).get x = if x = a then b else m.get x := by
  have above : ∀ l : Memory, (∀ c ∈ l, a < c.1) → l.get a = Memory.unlisted := by
    intro l hl
    induction l with
    | nil => rfl
    | cons e t ih =>
      obtain ⟨a', b'⟩ := e
      have := hl (a', b') (by simp)
      simp only [Memory.get]
      rw [if_neg (by simp at this; omega)]
      exact ih fun c hc => hl c (by simp [hc])
  unfold Memory.cons
  split
  · rename_i h
    split
    · rename_i hx
      rw [hx, above m hm, h]
    · rfl
  · simp [Memory.get]

/-- The address of every entry of the tail of a canonical memory lies above the head's. -/
theorem Memory.wf_tail {a : Nat} {b : Byte} {t : Memory} (h : Memory.wf ((a, b) :: t) = true) : t.wf = true ∧ b ≠ Memory.unlisted ∧ ∀ c ∈ t, a < c.1 := by
  induction t generalizing a b with
  | nil => simpa [Memory.wf] using h
  | cons e t ih =>
    obtain ⟨a', b'⟩ := e
    simp only [Memory.wf, Bool.and_eq_true, bne_iff_ne, decide_eq_true_eq] at h
    obtain ⟨⟨hb, hlt⟩, ht⟩ := h
    refine ⟨ht, hb, ?_⟩
    intro c hc
    simp only [List.mem_cons] at hc
    rcases hc with rfl | hc
    · exact hlt
    · exact Nat.lt_trans hlt ((ih ht).2.2 c hc)

theorem Memory.wf_cons {a : Nat} {b : Byte} {t : Memory} (ht : t.wf = true) (hb : b ≠ Memory.unlisted) (hc : ∀ c ∈ t, a < c.1) : Memory.wf ((a, b) :: t) = true := by
  cases t with
  | nil => simp [Memory.wf, hb]
  | cons e t =>
    obtain ⟨a', b'⟩ := e
    have := hc (a', b') (by simp)
    simp only [Memory.wf, Bool.and_eq_true, bne_iff_ne, decide_eq_true_eq]
    exact ⟨⟨hb, this⟩, ht⟩

theorem Memory.cons_wf {a : Nat} {b : Byte} {t : Memory} (ht : t.wf = true) (hc : ∀ c ∈ t, a < c.1) : (Memory.cons a b t).wf = true := by
  unfold Memory.cons
  split
  · exact ht
  · exact Memory.wf_cons ht ‹_› hc

theorem Memory.mem_set {m : Memory} {a : Nat} {b : Byte} {c : Host.Cell} (h : c ∈ m.set a b) : c ∈ m ∨ c.1 = a := by
  induction m with
  | nil =>
    simp only [Memory.set, Memory.cons] at h
    split at h
    · simp at h
    · simp only [List.mem_cons, List.not_mem_nil, or_false] at h
      exact .inr (by rw [h])
  | cons e t ih =>
    obtain ⟨a', b'⟩ := e
    unfold Memory.set at h
    split at h
    · simp only [Memory.cons] at h
      split at h
      · exact .inl h
      · rcases List.mem_cons.mp h with rfl | h
        · exact .inr rfl
        · exact .inl h
    · split at h
      · simp only [Memory.cons] at h
        split at h
        · exact .inl (List.mem_cons_of_mem _ h)
        · rcases List.mem_cons.mp h with rfl | h
          · exact .inr rfl
          · exact .inl (List.mem_cons_of_mem _ h)
      · rcases List.mem_cons.mp h with rfl | h
        · exact .inl (by simp)
        · rcases ih h with h | h
          · exact .inl (List.mem_cons_of_mem _ h)
          · exact .inr h

/-- Writing a byte keeps the canonical form. -/
theorem Memory.set_wf {m : Memory} (a : Nat) (b : Byte) (h : m.wf = true) : (m.set a b).wf = true := by
  induction m with
  | nil => exact Memory.cons_wf rfl (by simp)
  | cons e t ih =>
    obtain ⟨a', b'⟩ := e
    obtain ⟨ht, hb, hlt⟩ := Memory.wf_tail h
    unfold Memory.set
    split
    · rename_i hlt'
      refine Memory.cons_wf h ?_
      intro c hc
      simp only [List.mem_cons] at hc
      rcases hc with rfl | hc
      · exact hlt'
      · exact Nat.lt_trans hlt' (hlt c hc)
    · split
      · rename_i he
        subst he
        exact Memory.cons_wf ht hlt
      · refine Memory.wf_cons (ih ht) hb ?_
        intro c hc
        rcases Memory.mem_set hc with hc | hc
        · exact hlt c hc
        · omega

/-- Reading a byte of a canonical memory after writing one. -/
theorem Memory.get_set {m : Memory} (a x : Nat) (b : Byte) (h : m.wf = true) : (m.set a b).get x = if x = a then b else m.get x := by
  induction m with
  | nil => exact Memory.get_cons [] a x b (by simp)
  | cons e t ih =>
    obtain ⟨a', b'⟩ := e
    obtain ⟨ht, hb, hlt⟩ := Memory.wf_tail h
    unfold Memory.set
    split
    · rename_i hlt'
      refine Memory.get_cons _ a x b ?_
      intro c hc
      simp only [List.mem_cons] at hc
      rcases hc with rfl | hc
      · exact hlt'
      · exact Nat.lt_trans hlt' (hlt c hc)
    · split
      · rename_i he
        subst he
        rw [Memory.get_cons t a x b hlt]
        simp only [Memory.get]
        split <;> rfl
      · simp only [Memory.get, ih ht]
        split
        · rename_i h1
          rw [if_neg (by omega)]
        · rfl

/-- Writing bytes keeps the canonical form. -/
theorem Memory.setBytes_wf {m : Memory} (a : Nat) (bs : List Byte) (h : m.wf = true) : (m.setBytes a bs).wf = true := by
  induction bs generalizing m a with
  | nil => exact h
  | cons b t ih => exact ih (a + 1) (Memory.set_wf a b h)

/-- Writing bytes leaves every other address as it was. -/
theorem Memory.get_setBytes_other {m : Memory} (a x : Nat) (bs : List Byte) (h : m.wf = true) (hx : x < a ∨ a + bs.length ≤ x) :
    (m.setBytes a bs).get x = m.get x := by
  induction bs generalizing m a with
  | nil => rfl
  | cons b t ih =>
    simp only [List.length_cons] at hx
    rw [Memory.setBytes, ih (a + 1) (Memory.set_wf a b h) (by omega), Memory.get_set a x b h, if_neg (by omega)]

/-- Bytes written read back. -/
theorem Memory.get_setBytes {m : Memory} (a i : Nat) (bs : List Byte) (h : m.wf = true) (hi : i < bs.length) : (m.setBytes a bs).get (a + i) = bs[i] := by
  induction bs generalizing m a i with
  | nil => simp at hi
  | cons b t ih =>
    cases i with
    | zero => simp [Memory.setBytes, Memory.get_setBytes_other (a + 1) a t (Memory.set_wf a b h) (by omega), Memory.get_set a a b h]
    | succ i =>
      have := ih (a + 1) i (Memory.set_wf a b h) (by simpa using hi)
      simpa [Memory.setBytes, Nat.add_assoc, Nat.add_comm 1 i] using this

/-- Zeroing a range keeps the canonical form. -/
theorem Memory.filter_wf {m : Memory} (p : Host.Cell → Bool) (h : m.wf = true) : Memory.wf (m.filter p) = true := by
  induction m with
  | nil => rfl
  | cons e t ih =>
    obtain ⟨a, b⟩ := e
    obtain ⟨ht, hb, hlt⟩ := Memory.wf_tail h
    simp only [List.filter]
    split
    · exact Memory.wf_cons (ih ht) hb fun c hc => hlt c (List.mem_filter.mp hc).1
    · exact ih ht

theorem Memory.zeroRange_wf {m : Memory} (a n : Nat) (h : m.wf = true) : (m.zeroRange a n).wf = true := Memory.filter_wf _ h

end Sys2Proof.Machine
end

