-- ==== Sys2Proof/Laws/State.lean ====
section
/-! SUPPORT. What each named update of the state does to each field: the field it writes, and nothing else. -/
namespace Sys2Proof.Machine.State

/-! ### setCore -/

@[simp] theorem setCore_times (s : State) (n : Nat) (v : Core) : (s.setCore n v).times = s.times := rfl
@[simp] theorem setCore_timeAdj (s : State) (n : Nat) (v : Core) : (s.setCore n v).timeAdj = s.timeAdj := rfl
@[simp] theorem setCore_cores (s : State) (n : Nat) (v : Core) : (s.setCore n v).cores = s.cores.put n v := rfl
@[simp] theorem setCore_clusters (s : State) (n : Nat) (v : Core) : (s.setCore n v).clusters = s.clusters := rfl
@[simp] theorem setCore_dies (s : State) (n : Nat) (v : Core) : (s.setCore n v).dies = s.dies := rfl
@[simp] theorem setCore_ports (s : State) (n : Nat) (v : Core) : (s.setCore n v).ports = s.ports := rfl
@[simp] theorem setCore_rails (s : State) (n : Nat) (v : Core) : (s.setCore n v).rails = s.rails := rfl
@[simp] theorem setCore_changes (s : State) (n : Nat) (v : Core) : (s.setCore n v).changes = s.changes := rfl
@[simp] theorem setCore_fns (s : State) (n : Nat) (v : Core) : (s.setCore n v).fns = s.fns := rfl
@[simp] theorem setCore_parts (s : State) (n : Nat) (v : Core) : (s.setCore n v).parts = s.parts := rfl
@[simp] theorem setCore_fown (s : State) (n : Nat) (v : Core) : (s.setCore n v).fown = s.fown := rfl
@[simp] theorem setCore_fmap (s : State) (n : Nat) (v : Core) : (s.setCore n v).fmap = s.fmap := rfl
@[simp] theorem setCore_fwall (s : State) (n : Nat) (v : Core) : (s.setCore n v).fwall = s.fwall := rfl
@[simp] theorem setCore_merr (s : State) (n : Nat) (v : Core) : (s.setCore n v).merr = s.merr := rfl
@[simp] theorem setCore_ppmap0 (s : State) (n : Nat) (v : Core) : (s.setCore n v).ppmap0 = s.ppmap0 := rfl
@[simp] theorem setCore_ppmap1 (s : State) (n : Nat) (v : Core) : (s.setCore n v).ppmap1 = s.ppmap1 := rfl
@[simp] theorem setCore_capsel (s : State) (n : Nat) (v : Core) : (s.setCore n v).capsel = s.capsel := rfl
@[simp] theorem setCore_slice (s : State) (n : Nat) (v : Core) : (s.setCore n v).slice = s.slice := rfl
@[simp] theorem setCore_sliceAt (s : State) (n : Nat) (v : Core) : (s.setCore n v).sliceAt = s.sliceAt := rfl
@[simp] theorem setCore_ending (s : State) (n : Nat) (v : Core) : (s.setCore n v).ending = s.ending := rfl
@[simp] theorem setCore_pulseAt (s : State) (n : Nat) (v : Core) : (s.setCore n v).pulseAt = s.pulseAt := rfl
@[simp] theorem setCore_intervalAt (s : State) (n : Nat) (v : Core) : (s.setCore n v).intervalAt = s.intervalAt := rfl
@[simp] theorem setCore_since (s : State) (n : Nat) (v : Core) : (s.setCore n v).since = s.since := rfl
@[simp] theorem setCore_worked (s : State) (n : Nat) (v : Core) : (s.setCore n v).worked = s.worked := rfl
@[simp] theorem setCore_spent (s : State) (n : Nat) (v : Core) : (s.setCore n v).spent = s.spent := rfl
@[simp] theorem setCore_packets (s : State) (n : Nat) (v : Core) : (s.setCore n v).packets = s.packets := rfl
@[simp] theorem setCore_scopes (s : State) (n : Nat) (v : Core) : (s.setCore n v).scopes = s.scopes := rfl
@[simp] theorem setCore_launches (s : State) (n : Nat) (v : Core) : (s.setCore n v).launches = s.launches := rfl
@[simp] theorem setCore_ats (s : State) (n : Nat) (v : Core) : (s.setCore n v).ats = s.ats := rfl
@[simp] theorem setCore_mem (s : State) (n : Nat) (v : Core) : (s.setCore n v).mem = s.mem := rfl
@[simp] theorem setCore_host (s : State) (n : Nat) (v : Core) : (s.setCore n v).host = s.host := rfl
@[simp] theorem setCore_poison (s : State) (n : Nat) (v : Core) : (s.setCore n v).poison = s.poison := rfl
@[simp] theorem setCore_hostPoison (s : State) (n : Nat) (v : Core) : (s.setCore n v).hostPoison = s.hostPoison := rfl
@[simp] theorem setCore_hostRmw (s : State) (n : Nat) (v : Core) : (s.setCore n v).hostRmw = s.hostRmw := rfl
@[simp] theorem setCore_rows (s : State) (n : Nat) (v : Core) : (s.setCore n v).rows = s.rows := rfl
@[simp] theorem setCore_cells (s : State) (n : Nat) (v : Core) : (s.setCore n v).cells = s.cells := rfl
@[simp] theorem setCore_frozen (s : State) (n : Nat) (v : Core) : (s.setCore n v).frozen = s.frozen := rfl
@[simp] theorem setCore_agenda (s : State) (n : Nat) (v : Core) : (s.setCore n v).agenda = s.agenda := rfl
@[simp] theorem setCore_issueQ (s : State) (n : Nat) (v : Core) : (s.setCore n v).issueQ = s.issueQ := rfl
@[simp] theorem setCore_cur (s : State) (n : Nat) (v : Core) : (s.setCore n v).cur = s.cur := rfl
@[simp] theorem setCore_free (s : State) (n : Nat) (v : Core) : (s.setCore n v).free = s.free := rfl
@[simp] theorem setCore_nextId (s : State) (n : Nat) (v : Core) : (s.setCore n v).nextId = s.nextId := rfl

/-! ### setCluster -/

@[simp] theorem setCluster_times (s : State) (n : Nat) (v : Cluster) : (s.setCluster n v).times = s.times := rfl
@[simp] theorem setCluster_timeAdj (s : State) (n : Nat) (v : Cluster) : (s.setCluster n v).timeAdj = s.timeAdj := rfl
@[simp] theorem setCluster_cores (s : State) (n : Nat) (v : Cluster) : (s.setCluster n v).cores = s.cores := rfl
@[simp] theorem setCluster_clusters (s : State) (n : Nat) (v : Cluster) : (s.setCluster n v).clusters = s.clusters.put n v := rfl
@[simp] theorem setCluster_dies (s : State) (n : Nat) (v : Cluster) : (s.setCluster n v).dies = s.dies := rfl
@[simp] theorem setCluster_ports (s : State) (n : Nat) (v : Cluster) : (s.setCluster n v).ports = s.ports := rfl
@[simp] theorem setCluster_rails (s : State) (n : Nat) (v : Cluster) : (s.setCluster n v).rails = s.rails := rfl
@[simp] theorem setCluster_changes (s : State) (n : Nat) (v : Cluster) : (s.setCluster n v).changes = s.changes := rfl
@[simp] theorem setCluster_fns (s : State) (n : Nat) (v : Cluster) : (s.setCluster n v).fns = s.fns := rfl
@[simp] theorem setCluster_parts (s : State) (n : Nat) (v : Cluster) : (s.setCluster n v).parts = s.parts := rfl
@[simp] theorem setCluster_fown (s : State) (n : Nat) (v : Cluster) : (s.setCluster n v).fown = s.fown := rfl
@[simp] theorem setCluster_fmap (s : State) (n : Nat) (v : Cluster) : (s.setCluster n v).fmap = s.fmap := rfl
@[simp] theorem setCluster_fwall (s : State) (n : Nat) (v : Cluster) : (s.setCluster n v).fwall = s.fwall := rfl
@[simp] theorem setCluster_merr (s : State) (n : Nat) (v : Cluster) : (s.setCluster n v).merr = s.merr := rfl
@[simp] theorem setCluster_ppmap0 (s : State) (n : Nat) (v : Cluster) : (s.setCluster n v).ppmap0 = s.ppmap0 := rfl
@[simp] theorem setCluster_ppmap1 (s : State) (n : Nat) (v : Cluster) : (s.setCluster n v).ppmap1 = s.ppmap1 := rfl
@[simp] theorem setCluster_capsel (s : State) (n : Nat) (v : Cluster) : (s.setCluster n v).capsel = s.capsel := rfl
@[simp] theorem setCluster_slice (s : State) (n : Nat) (v : Cluster) : (s.setCluster n v).slice = s.slice := rfl
@[simp] theorem setCluster_sliceAt (s : State) (n : Nat) (v : Cluster) : (s.setCluster n v).sliceAt = s.sliceAt := rfl
@[simp] theorem setCluster_ending (s : State) (n : Nat) (v : Cluster) : (s.setCluster n v).ending = s.ending := rfl
@[simp] theorem setCluster_pulseAt (s : State) (n : Nat) (v : Cluster) : (s.setCluster n v).pulseAt = s.pulseAt := rfl
@[simp] theorem setCluster_intervalAt (s : State) (n : Nat) (v : Cluster) : (s.setCluster n v).intervalAt = s.intervalAt := rfl
@[simp] theorem setCluster_since (s : State) (n : Nat) (v : Cluster) : (s.setCluster n v).since = s.since := rfl
@[simp] theorem setCluster_worked (s : State) (n : Nat) (v : Cluster) : (s.setCluster n v).worked = s.worked := rfl
@[simp] theorem setCluster_spent (s : State) (n : Nat) (v : Cluster) : (s.setCluster n v).spent = s.spent := rfl
@[simp] theorem setCluster_packets (s : State) (n : Nat) (v : Cluster) : (s.setCluster n v).packets = s.packets := rfl
@[simp] theorem setCluster_scopes (s : State) (n : Nat) (v : Cluster) : (s.setCluster n v).scopes = s.scopes := rfl
@[simp] theorem setCluster_launches (s : State) (n : Nat) (v : Cluster) : (s.setCluster n v).launches = s.launches := rfl
@[simp] theorem setCluster_ats (s : State) (n : Nat) (v : Cluster) : (s.setCluster n v).ats = s.ats := rfl
@[simp] theorem setCluster_mem (s : State) (n : Nat) (v : Cluster) : (s.setCluster n v).mem = s.mem := rfl
@[simp] theorem setCluster_host (s : State) (n : Nat) (v : Cluster) : (s.setCluster n v).host = s.host := rfl
@[simp] theorem setCluster_poison (s : State) (n : Nat) (v : Cluster) : (s.setCluster n v).poison = s.poison := rfl
@[simp] theorem setCluster_hostPoison (s : State) (n : Nat) (v : Cluster) : (s.setCluster n v).hostPoison = s.hostPoison := rfl
@[simp] theorem setCluster_hostRmw (s : State) (n : Nat) (v : Cluster) : (s.setCluster n v).hostRmw = s.hostRmw := rfl
@[simp] theorem setCluster_rows (s : State) (n : Nat) (v : Cluster) : (s.setCluster n v).rows = s.rows := rfl
@[simp] theorem setCluster_cells (s : State) (n : Nat) (v : Cluster) : (s.setCluster n v).cells = s.cells := rfl
@[simp] theorem setCluster_frozen (s : State) (n : Nat) (v : Cluster) : (s.setCluster n v).frozen = s.frozen := rfl
@[simp] theorem setCluster_agenda (s : State) (n : Nat) (v : Cluster) : (s.setCluster n v).agenda = s.agenda := rfl
@[simp] theorem setCluster_issueQ (s : State) (n : Nat) (v : Cluster) : (s.setCluster n v).issueQ = s.issueQ := rfl
@[simp] theorem setCluster_cur (s : State) (n : Nat) (v : Cluster) : (s.setCluster n v).cur = s.cur := rfl
@[simp] theorem setCluster_free (s : State) (n : Nat) (v : Cluster) : (s.setCluster n v).free = s.free := rfl
@[simp] theorem setCluster_nextId (s : State) (n : Nat) (v : Cluster) : (s.setCluster n v).nextId = s.nextId := rfl

/-! ### setDie -/

@[simp] theorem setDie_times (s : State) (n : Nat) (v : Die) : (s.setDie n v).times = s.times := rfl
@[simp] theorem setDie_timeAdj (s : State) (n : Nat) (v : Die) : (s.setDie n v).timeAdj = s.timeAdj := rfl
@[simp] theorem setDie_cores (s : State) (n : Nat) (v : Die) : (s.setDie n v).cores = s.cores := rfl
@[simp] theorem setDie_clusters (s : State) (n : Nat) (v : Die) : (s.setDie n v).clusters = s.clusters := rfl
@[simp] theorem setDie_dies (s : State) (n : Nat) (v : Die) : (s.setDie n v).dies = s.dies.put n v := rfl
@[simp] theorem setDie_ports (s : State) (n : Nat) (v : Die) : (s.setDie n v).ports = s.ports := rfl
@[simp] theorem setDie_rails (s : State) (n : Nat) (v : Die) : (s.setDie n v).rails = s.rails := rfl
@[simp] theorem setDie_changes (s : State) (n : Nat) (v : Die) : (s.setDie n v).changes = s.changes := rfl
@[simp] theorem setDie_fns (s : State) (n : Nat) (v : Die) : (s.setDie n v).fns = s.fns := rfl
@[simp] theorem setDie_parts (s : State) (n : Nat) (v : Die) : (s.setDie n v).parts = s.parts := rfl
@[simp] theorem setDie_fown (s : State) (n : Nat) (v : Die) : (s.setDie n v).fown = s.fown := rfl
@[simp] theorem setDie_fmap (s : State) (n : Nat) (v : Die) : (s.setDie n v).fmap = s.fmap := rfl
@[simp] theorem setDie_fwall (s : State) (n : Nat) (v : Die) : (s.setDie n v).fwall = s.fwall := rfl
@[simp] theorem setDie_merr (s : State) (n : Nat) (v : Die) : (s.setDie n v).merr = s.merr := rfl
@[simp] theorem setDie_ppmap0 (s : State) (n : Nat) (v : Die) : (s.setDie n v).ppmap0 = s.ppmap0 := rfl
@[simp] theorem setDie_ppmap1 (s : State) (n : Nat) (v : Die) : (s.setDie n v).ppmap1 = s.ppmap1 := rfl
@[simp] theorem setDie_capsel (s : State) (n : Nat) (v : Die) : (s.setDie n v).capsel = s.capsel := rfl
@[simp] theorem setDie_slice (s : State) (n : Nat) (v : Die) : (s.setDie n v).slice = s.slice := rfl
@[simp] theorem setDie_sliceAt (s : State) (n : Nat) (v : Die) : (s.setDie n v).sliceAt = s.sliceAt := rfl
@[simp] theorem setDie_ending (s : State) (n : Nat) (v : Die) : (s.setDie n v).ending = s.ending := rfl
@[simp] theorem setDie_pulseAt (s : State) (n : Nat) (v : Die) : (s.setDie n v).pulseAt = s.pulseAt := rfl
@[simp] theorem setDie_intervalAt (s : State) (n : Nat) (v : Die) : (s.setDie n v).intervalAt = s.intervalAt := rfl
@[simp] theorem setDie_since (s : State) (n : Nat) (v : Die) : (s.setDie n v).since = s.since := rfl
@[simp] theorem setDie_worked (s : State) (n : Nat) (v : Die) : (s.setDie n v).worked = s.worked := rfl
@[simp] theorem setDie_spent (s : State) (n : Nat) (v : Die) : (s.setDie n v).spent = s.spent := rfl
@[simp] theorem setDie_packets (s : State) (n : Nat) (v : Die) : (s.setDie n v).packets = s.packets := rfl
@[simp] theorem setDie_scopes (s : State) (n : Nat) (v : Die) : (s.setDie n v).scopes = s.scopes := rfl
@[simp] theorem setDie_launches (s : State) (n : Nat) (v : Die) : (s.setDie n v).launches = s.launches := rfl
@[simp] theorem setDie_ats (s : State) (n : Nat) (v : Die) : (s.setDie n v).ats = s.ats := rfl
@[simp] theorem setDie_mem (s : State) (n : Nat) (v : Die) : (s.setDie n v).mem = s.mem := rfl
@[simp] theorem setDie_host (s : State) (n : Nat) (v : Die) : (s.setDie n v).host = s.host := rfl
@[simp] theorem setDie_poison (s : State) (n : Nat) (v : Die) : (s.setDie n v).poison = s.poison := rfl
@[simp] theorem setDie_hostPoison (s : State) (n : Nat) (v : Die) : (s.setDie n v).hostPoison = s.hostPoison := rfl
@[simp] theorem setDie_hostRmw (s : State) (n : Nat) (v : Die) : (s.setDie n v).hostRmw = s.hostRmw := rfl
@[simp] theorem setDie_rows (s : State) (n : Nat) (v : Die) : (s.setDie n v).rows = s.rows := rfl
@[simp] theorem setDie_cells (s : State) (n : Nat) (v : Die) : (s.setDie n v).cells = s.cells := rfl
@[simp] theorem setDie_frozen (s : State) (n : Nat) (v : Die) : (s.setDie n v).frozen = s.frozen := rfl
@[simp] theorem setDie_agenda (s : State) (n : Nat) (v : Die) : (s.setDie n v).agenda = s.agenda := rfl
@[simp] theorem setDie_issueQ (s : State) (n : Nat) (v : Die) : (s.setDie n v).issueQ = s.issueQ := rfl
@[simp] theorem setDie_cur (s : State) (n : Nat) (v : Die) : (s.setDie n v).cur = s.cur := rfl
@[simp] theorem setDie_free (s : State) (n : Nat) (v : Die) : (s.setDie n v).free = s.free := rfl
@[simp] theorem setDie_nextId (s : State) (n : Nat) (v : Die) : (s.setDie n v).nextId = s.nextId := rfl

/-! ### setPort -/

@[simp] theorem setPort_times (s : State) (n : Nat) (v : Port) : (s.setPort n v).times = s.times := rfl
@[simp] theorem setPort_timeAdj (s : State) (n : Nat) (v : Port) : (s.setPort n v).timeAdj = s.timeAdj := rfl
@[simp] theorem setPort_cores (s : State) (n : Nat) (v : Port) : (s.setPort n v).cores = s.cores := rfl
@[simp] theorem setPort_clusters (s : State) (n : Nat) (v : Port) : (s.setPort n v).clusters = s.clusters := rfl
@[simp] theorem setPort_dies (s : State) (n : Nat) (v : Port) : (s.setPort n v).dies = s.dies := rfl
@[simp] theorem setPort_ports (s : State) (n : Nat) (v : Port) : (s.setPort n v).ports = s.ports.put n v := rfl
@[simp] theorem setPort_rails (s : State) (n : Nat) (v : Port) : (s.setPort n v).rails = s.rails := rfl
@[simp] theorem setPort_changes (s : State) (n : Nat) (v : Port) : (s.setPort n v).changes = s.changes := rfl
@[simp] theorem setPort_fns (s : State) (n : Nat) (v : Port) : (s.setPort n v).fns = s.fns := rfl
@[simp] theorem setPort_parts (s : State) (n : Nat) (v : Port) : (s.setPort n v).parts = s.parts := rfl
@[simp] theorem setPort_fown (s : State) (n : Nat) (v : Port) : (s.setPort n v).fown = s.fown := rfl
@[simp] theorem setPort_fmap (s : State) (n : Nat) (v : Port) : (s.setPort n v).fmap = s.fmap := rfl
@[simp] theorem setPort_fwall (s : State) (n : Nat) (v : Port) : (s.setPort n v).fwall = s.fwall := rfl
@[simp] theorem setPort_merr (s : State) (n : Nat) (v : Port) : (s.setPort n v).merr = s.merr := rfl
@[simp] theorem setPort_ppmap0 (s : State) (n : Nat) (v : Port) : (s.setPort n v).ppmap0 = s.ppmap0 := rfl
@[simp] theorem setPort_ppmap1 (s : State) (n : Nat) (v : Port) : (s.setPort n v).ppmap1 = s.ppmap1 := rfl
@[simp] theorem setPort_capsel (s : State) (n : Nat) (v : Port) : (s.setPort n v).capsel = s.capsel := rfl
@[simp] theorem setPort_slice (s : State) (n : Nat) (v : Port) : (s.setPort n v).slice = s.slice := rfl
@[simp] theorem setPort_sliceAt (s : State) (n : Nat) (v : Port) : (s.setPort n v).sliceAt = s.sliceAt := rfl
@[simp] theorem setPort_ending (s : State) (n : Nat) (v : Port) : (s.setPort n v).ending = s.ending := rfl
@[simp] theorem setPort_pulseAt (s : State) (n : Nat) (v : Port) : (s.setPort n v).pulseAt = s.pulseAt := rfl
@[simp] theorem setPort_intervalAt (s : State) (n : Nat) (v : Port) : (s.setPort n v).intervalAt = s.intervalAt := rfl
@[simp] theorem setPort_since (s : State) (n : Nat) (v : Port) : (s.setPort n v).since = s.since := rfl
@[simp] theorem setPort_worked (s : State) (n : Nat) (v : Port) : (s.setPort n v).worked = s.worked := rfl
@[simp] theorem setPort_spent (s : State) (n : Nat) (v : Port) : (s.setPort n v).spent = s.spent := rfl
@[simp] theorem setPort_packets (s : State) (n : Nat) (v : Port) : (s.setPort n v).packets = s.packets := rfl
@[simp] theorem setPort_scopes (s : State) (n : Nat) (v : Port) : (s.setPort n v).scopes = s.scopes := rfl
@[simp] theorem setPort_launches (s : State) (n : Nat) (v : Port) : (s.setPort n v).launches = s.launches := rfl
@[simp] theorem setPort_ats (s : State) (n : Nat) (v : Port) : (s.setPort n v).ats = s.ats := rfl
@[simp] theorem setPort_mem (s : State) (n : Nat) (v : Port) : (s.setPort n v).mem = s.mem := rfl
@[simp] theorem setPort_host (s : State) (n : Nat) (v : Port) : (s.setPort n v).host = s.host := rfl
@[simp] theorem setPort_poison (s : State) (n : Nat) (v : Port) : (s.setPort n v).poison = s.poison := rfl
@[simp] theorem setPort_hostPoison (s : State) (n : Nat) (v : Port) : (s.setPort n v).hostPoison = s.hostPoison := rfl
@[simp] theorem setPort_hostRmw (s : State) (n : Nat) (v : Port) : (s.setPort n v).hostRmw = s.hostRmw := rfl
@[simp] theorem setPort_rows (s : State) (n : Nat) (v : Port) : (s.setPort n v).rows = s.rows := rfl
@[simp] theorem setPort_cells (s : State) (n : Nat) (v : Port) : (s.setPort n v).cells = s.cells := rfl
@[simp] theorem setPort_frozen (s : State) (n : Nat) (v : Port) : (s.setPort n v).frozen = s.frozen := rfl
@[simp] theorem setPort_agenda (s : State) (n : Nat) (v : Port) : (s.setPort n v).agenda = s.agenda := rfl
@[simp] theorem setPort_issueQ (s : State) (n : Nat) (v : Port) : (s.setPort n v).issueQ = s.issueQ := rfl
@[simp] theorem setPort_cur (s : State) (n : Nat) (v : Port) : (s.setPort n v).cur = s.cur := rfl
@[simp] theorem setPort_free (s : State) (n : Nat) (v : Port) : (s.setPort n v).free = s.free := rfl
@[simp] theorem setPort_nextId (s : State) (n : Nat) (v : Port) : (s.setPort n v).nextId = s.nextId := rfl

/-! ### setRail -/

@[simp] theorem setRail_times (s : State) (n : Nat) (v : Rail) : (s.setRail n v).times = s.times := rfl
@[simp] theorem setRail_timeAdj (s : State) (n : Nat) (v : Rail) : (s.setRail n v).timeAdj = s.timeAdj := rfl
@[simp] theorem setRail_cores (s : State) (n : Nat) (v : Rail) : (s.setRail n v).cores = s.cores := rfl
@[simp] theorem setRail_clusters (s : State) (n : Nat) (v : Rail) : (s.setRail n v).clusters = s.clusters := rfl
@[simp] theorem setRail_dies (s : State) (n : Nat) (v : Rail) : (s.setRail n v).dies = s.dies := rfl
@[simp] theorem setRail_ports (s : State) (n : Nat) (v : Rail) : (s.setRail n v).ports = s.ports := rfl
@[simp] theorem setRail_rails (s : State) (n : Nat) (v : Rail) : (s.setRail n v).rails = s.rails.put n v := rfl
@[simp] theorem setRail_changes (s : State) (n : Nat) (v : Rail) : (s.setRail n v).changes = s.changes := rfl
@[simp] theorem setRail_fns (s : State) (n : Nat) (v : Rail) : (s.setRail n v).fns = s.fns := rfl
@[simp] theorem setRail_parts (s : State) (n : Nat) (v : Rail) : (s.setRail n v).parts = s.parts := rfl
@[simp] theorem setRail_fown (s : State) (n : Nat) (v : Rail) : (s.setRail n v).fown = s.fown := rfl
@[simp] theorem setRail_fmap (s : State) (n : Nat) (v : Rail) : (s.setRail n v).fmap = s.fmap := rfl
@[simp] theorem setRail_fwall (s : State) (n : Nat) (v : Rail) : (s.setRail n v).fwall = s.fwall := rfl
@[simp] theorem setRail_merr (s : State) (n : Nat) (v : Rail) : (s.setRail n v).merr = s.merr := rfl
@[simp] theorem setRail_ppmap0 (s : State) (n : Nat) (v : Rail) : (s.setRail n v).ppmap0 = s.ppmap0 := rfl
@[simp] theorem setRail_ppmap1 (s : State) (n : Nat) (v : Rail) : (s.setRail n v).ppmap1 = s.ppmap1 := rfl
@[simp] theorem setRail_capsel (s : State) (n : Nat) (v : Rail) : (s.setRail n v).capsel = s.capsel := rfl
@[simp] theorem setRail_slice (s : State) (n : Nat) (v : Rail) : (s.setRail n v).slice = s.slice := rfl
@[simp] theorem setRail_sliceAt (s : State) (n : Nat) (v : Rail) : (s.setRail n v).sliceAt = s.sliceAt := rfl
@[simp] theorem setRail_ending (s : State) (n : Nat) (v : Rail) : (s.setRail n v).ending = s.ending := rfl
@[simp] theorem setRail_pulseAt (s : State) (n : Nat) (v : Rail) : (s.setRail n v).pulseAt = s.pulseAt := rfl
@[simp] theorem setRail_intervalAt (s : State) (n : Nat) (v : Rail) : (s.setRail n v).intervalAt = s.intervalAt := rfl
@[simp] theorem setRail_since (s : State) (n : Nat) (v : Rail) : (s.setRail n v).since = s.since := rfl
@[simp] theorem setRail_worked (s : State) (n : Nat) (v : Rail) : (s.setRail n v).worked = s.worked := rfl
@[simp] theorem setRail_spent (s : State) (n : Nat) (v : Rail) : (s.setRail n v).spent = s.spent := rfl
@[simp] theorem setRail_packets (s : State) (n : Nat) (v : Rail) : (s.setRail n v).packets = s.packets := rfl
@[simp] theorem setRail_scopes (s : State) (n : Nat) (v : Rail) : (s.setRail n v).scopes = s.scopes := rfl
@[simp] theorem setRail_launches (s : State) (n : Nat) (v : Rail) : (s.setRail n v).launches = s.launches := rfl
@[simp] theorem setRail_ats (s : State) (n : Nat) (v : Rail) : (s.setRail n v).ats = s.ats := rfl
@[simp] theorem setRail_mem (s : State) (n : Nat) (v : Rail) : (s.setRail n v).mem = s.mem := rfl
@[simp] theorem setRail_host (s : State) (n : Nat) (v : Rail) : (s.setRail n v).host = s.host := rfl
@[simp] theorem setRail_poison (s : State) (n : Nat) (v : Rail) : (s.setRail n v).poison = s.poison := rfl
@[simp] theorem setRail_hostPoison (s : State) (n : Nat) (v : Rail) : (s.setRail n v).hostPoison = s.hostPoison := rfl
@[simp] theorem setRail_hostRmw (s : State) (n : Nat) (v : Rail) : (s.setRail n v).hostRmw = s.hostRmw := rfl
@[simp] theorem setRail_rows (s : State) (n : Nat) (v : Rail) : (s.setRail n v).rows = s.rows := rfl
@[simp] theorem setRail_cells (s : State) (n : Nat) (v : Rail) : (s.setRail n v).cells = s.cells := rfl
@[simp] theorem setRail_frozen (s : State) (n : Nat) (v : Rail) : (s.setRail n v).frozen = s.frozen := rfl
@[simp] theorem setRail_agenda (s : State) (n : Nat) (v : Rail) : (s.setRail n v).agenda = s.agenda := rfl
@[simp] theorem setRail_issueQ (s : State) (n : Nat) (v : Rail) : (s.setRail n v).issueQ = s.issueQ := rfl
@[simp] theorem setRail_cur (s : State) (n : Nat) (v : Rail) : (s.setRail n v).cur = s.cur := rfl
@[simp] theorem setRail_free (s : State) (n : Nat) (v : Rail) : (s.setRail n v).free = s.free := rfl
@[simp] theorem setRail_nextId (s : State) (n : Nat) (v : Rail) : (s.setRail n v).nextId = s.nextId := rfl

/-! ### setFn -/

@[simp] theorem setFn_times (s : State) (n : Nat) (v : Fn) : (s.setFn n v).times = s.times := rfl
@[simp] theorem setFn_timeAdj (s : State) (n : Nat) (v : Fn) : (s.setFn n v).timeAdj = s.timeAdj := rfl
@[simp] theorem setFn_cores (s : State) (n : Nat) (v : Fn) : (s.setFn n v).cores = s.cores := rfl
@[simp] theorem setFn_clusters (s : State) (n : Nat) (v : Fn) : (s.setFn n v).clusters = s.clusters := rfl
@[simp] theorem setFn_dies (s : State) (n : Nat) (v : Fn) : (s.setFn n v).dies = s.dies := rfl
@[simp] theorem setFn_ports (s : State) (n : Nat) (v : Fn) : (s.setFn n v).ports = s.ports := rfl
@[simp] theorem setFn_rails (s : State) (n : Nat) (v : Fn) : (s.setFn n v).rails = s.rails := rfl
@[simp] theorem setFn_changes (s : State) (n : Nat) (v : Fn) : (s.setFn n v).changes = s.changes := rfl
@[simp] theorem setFn_fns (s : State) (n : Nat) (v : Fn) : (s.setFn n v).fns = s.fns.put n v := rfl
@[simp] theorem setFn_parts (s : State) (n : Nat) (v : Fn) : (s.setFn n v).parts = s.parts := rfl
@[simp] theorem setFn_fown (s : State) (n : Nat) (v : Fn) : (s.setFn n v).fown = s.fown := rfl
@[simp] theorem setFn_fmap (s : State) (n : Nat) (v : Fn) : (s.setFn n v).fmap = s.fmap := rfl
@[simp] theorem setFn_fwall (s : State) (n : Nat) (v : Fn) : (s.setFn n v).fwall = s.fwall := rfl
@[simp] theorem setFn_merr (s : State) (n : Nat) (v : Fn) : (s.setFn n v).merr = s.merr := rfl
@[simp] theorem setFn_ppmap0 (s : State) (n : Nat) (v : Fn) : (s.setFn n v).ppmap0 = s.ppmap0 := rfl
@[simp] theorem setFn_ppmap1 (s : State) (n : Nat) (v : Fn) : (s.setFn n v).ppmap1 = s.ppmap1 := rfl
@[simp] theorem setFn_capsel (s : State) (n : Nat) (v : Fn) : (s.setFn n v).capsel = s.capsel := rfl
@[simp] theorem setFn_slice (s : State) (n : Nat) (v : Fn) : (s.setFn n v).slice = s.slice := rfl
@[simp] theorem setFn_sliceAt (s : State) (n : Nat) (v : Fn) : (s.setFn n v).sliceAt = s.sliceAt := rfl
@[simp] theorem setFn_ending (s : State) (n : Nat) (v : Fn) : (s.setFn n v).ending = s.ending := rfl
@[simp] theorem setFn_pulseAt (s : State) (n : Nat) (v : Fn) : (s.setFn n v).pulseAt = s.pulseAt := rfl
@[simp] theorem setFn_intervalAt (s : State) (n : Nat) (v : Fn) : (s.setFn n v).intervalAt = s.intervalAt := rfl
@[simp] theorem setFn_since (s : State) (n : Nat) (v : Fn) : (s.setFn n v).since = s.since := rfl
@[simp] theorem setFn_worked (s : State) (n : Nat) (v : Fn) : (s.setFn n v).worked = s.worked := rfl
@[simp] theorem setFn_spent (s : State) (n : Nat) (v : Fn) : (s.setFn n v).spent = s.spent := rfl
@[simp] theorem setFn_packets (s : State) (n : Nat) (v : Fn) : (s.setFn n v).packets = s.packets := rfl
@[simp] theorem setFn_scopes (s : State) (n : Nat) (v : Fn) : (s.setFn n v).scopes = s.scopes := rfl
@[simp] theorem setFn_launches (s : State) (n : Nat) (v : Fn) : (s.setFn n v).launches = s.launches := rfl
@[simp] theorem setFn_ats (s : State) (n : Nat) (v : Fn) : (s.setFn n v).ats = s.ats := rfl
@[simp] theorem setFn_mem (s : State) (n : Nat) (v : Fn) : (s.setFn n v).mem = s.mem := rfl
@[simp] theorem setFn_host (s : State) (n : Nat) (v : Fn) : (s.setFn n v).host = s.host := rfl
@[simp] theorem setFn_poison (s : State) (n : Nat) (v : Fn) : (s.setFn n v).poison = s.poison := rfl
@[simp] theorem setFn_hostPoison (s : State) (n : Nat) (v : Fn) : (s.setFn n v).hostPoison = s.hostPoison := rfl
@[simp] theorem setFn_hostRmw (s : State) (n : Nat) (v : Fn) : (s.setFn n v).hostRmw = s.hostRmw := rfl
@[simp] theorem setFn_rows (s : State) (n : Nat) (v : Fn) : (s.setFn n v).rows = s.rows := rfl
@[simp] theorem setFn_cells (s : State) (n : Nat) (v : Fn) : (s.setFn n v).cells = s.cells := rfl
@[simp] theorem setFn_frozen (s : State) (n : Nat) (v : Fn) : (s.setFn n v).frozen = s.frozen := rfl
@[simp] theorem setFn_agenda (s : State) (n : Nat) (v : Fn) : (s.setFn n v).agenda = s.agenda := rfl
@[simp] theorem setFn_issueQ (s : State) (n : Nat) (v : Fn) : (s.setFn n v).issueQ = s.issueQ := rfl
@[simp] theorem setFn_cur (s : State) (n : Nat) (v : Fn) : (s.setFn n v).cur = s.cur := rfl
@[simp] theorem setFn_free (s : State) (n : Nat) (v : Fn) : (s.setFn n v).free = s.free := rfl
@[simp] theorem setFn_nextId (s : State) (n : Nat) (v : Fn) : (s.setFn n v).nextId = s.nextId := rfl

/-! ### setPart -/

@[simp] theorem setPart_times (s : State) (n : Nat) (v : Part) : (s.setPart n v).times = s.times := rfl
@[simp] theorem setPart_timeAdj (s : State) (n : Nat) (v : Part) : (s.setPart n v).timeAdj = s.timeAdj := rfl
@[simp] theorem setPart_cores (s : State) (n : Nat) (v : Part) : (s.setPart n v).cores = s.cores := rfl
@[simp] theorem setPart_clusters (s : State) (n : Nat) (v : Part) : (s.setPart n v).clusters = s.clusters := rfl
@[simp] theorem setPart_dies (s : State) (n : Nat) (v : Part) : (s.setPart n v).dies = s.dies := rfl
@[simp] theorem setPart_ports (s : State) (n : Nat) (v : Part) : (s.setPart n v).ports = s.ports := rfl
@[simp] theorem setPart_rails (s : State) (n : Nat) (v : Part) : (s.setPart n v).rails = s.rails := rfl
@[simp] theorem setPart_changes (s : State) (n : Nat) (v : Part) : (s.setPart n v).changes = s.changes := rfl
@[simp] theorem setPart_fns (s : State) (n : Nat) (v : Part) : (s.setPart n v).fns = s.fns := rfl
@[simp] theorem setPart_parts (s : State) (n : Nat) (v : Part) : (s.setPart n v).parts = s.parts.put n v := rfl
@[simp] theorem setPart_fown (s : State) (n : Nat) (v : Part) : (s.setPart n v).fown = s.fown := rfl
@[simp] theorem setPart_fmap (s : State) (n : Nat) (v : Part) : (s.setPart n v).fmap = s.fmap := rfl
@[simp] theorem setPart_fwall (s : State) (n : Nat) (v : Part) : (s.setPart n v).fwall = s.fwall := rfl
@[simp] theorem setPart_merr (s : State) (n : Nat) (v : Part) : (s.setPart n v).merr = s.merr := rfl
@[simp] theorem setPart_ppmap0 (s : State) (n : Nat) (v : Part) : (s.setPart n v).ppmap0 = s.ppmap0 := rfl
@[simp] theorem setPart_ppmap1 (s : State) (n : Nat) (v : Part) : (s.setPart n v).ppmap1 = s.ppmap1 := rfl
@[simp] theorem setPart_capsel (s : State) (n : Nat) (v : Part) : (s.setPart n v).capsel = s.capsel := rfl
@[simp] theorem setPart_slice (s : State) (n : Nat) (v : Part) : (s.setPart n v).slice = s.slice := rfl
@[simp] theorem setPart_sliceAt (s : State) (n : Nat) (v : Part) : (s.setPart n v).sliceAt = s.sliceAt := rfl
@[simp] theorem setPart_ending (s : State) (n : Nat) (v : Part) : (s.setPart n v).ending = s.ending := rfl
@[simp] theorem setPart_pulseAt (s : State) (n : Nat) (v : Part) : (s.setPart n v).pulseAt = s.pulseAt := rfl
@[simp] theorem setPart_intervalAt (s : State) (n : Nat) (v : Part) : (s.setPart n v).intervalAt = s.intervalAt := rfl
@[simp] theorem setPart_since (s : State) (n : Nat) (v : Part) : (s.setPart n v).since = s.since := rfl
@[simp] theorem setPart_worked (s : State) (n : Nat) (v : Part) : (s.setPart n v).worked = s.worked := rfl
@[simp] theorem setPart_spent (s : State) (n : Nat) (v : Part) : (s.setPart n v).spent = s.spent := rfl
@[simp] theorem setPart_packets (s : State) (n : Nat) (v : Part) : (s.setPart n v).packets = s.packets := rfl
@[simp] theorem setPart_scopes (s : State) (n : Nat) (v : Part) : (s.setPart n v).scopes = s.scopes := rfl
@[simp] theorem setPart_launches (s : State) (n : Nat) (v : Part) : (s.setPart n v).launches = s.launches := rfl
@[simp] theorem setPart_ats (s : State) (n : Nat) (v : Part) : (s.setPart n v).ats = s.ats := rfl
@[simp] theorem setPart_mem (s : State) (n : Nat) (v : Part) : (s.setPart n v).mem = s.mem := rfl
@[simp] theorem setPart_host (s : State) (n : Nat) (v : Part) : (s.setPart n v).host = s.host := rfl
@[simp] theorem setPart_poison (s : State) (n : Nat) (v : Part) : (s.setPart n v).poison = s.poison := rfl
@[simp] theorem setPart_hostPoison (s : State) (n : Nat) (v : Part) : (s.setPart n v).hostPoison = s.hostPoison := rfl
@[simp] theorem setPart_hostRmw (s : State) (n : Nat) (v : Part) : (s.setPart n v).hostRmw = s.hostRmw := rfl
@[simp] theorem setPart_rows (s : State) (n : Nat) (v : Part) : (s.setPart n v).rows = s.rows := rfl
@[simp] theorem setPart_cells (s : State) (n : Nat) (v : Part) : (s.setPart n v).cells = s.cells := rfl
@[simp] theorem setPart_frozen (s : State) (n : Nat) (v : Part) : (s.setPart n v).frozen = s.frozen := rfl
@[simp] theorem setPart_agenda (s : State) (n : Nat) (v : Part) : (s.setPart n v).agenda = s.agenda := rfl
@[simp] theorem setPart_issueQ (s : State) (n : Nat) (v : Part) : (s.setPart n v).issueQ = s.issueQ := rfl
@[simp] theorem setPart_cur (s : State) (n : Nat) (v : Part) : (s.setPart n v).cur = s.cur := rfl
@[simp] theorem setPart_free (s : State) (n : Nat) (v : Part) : (s.setPart n v).free = s.free := rfl
@[simp] theorem setPart_nextId (s : State) (n : Nat) (v : Part) : (s.setPart n v).nextId = s.nextId := rfl

/-! ### modCore -/

@[simp] theorem modCore_times (s : State) (n : Nat) (f : Core → Core) : (s.modCore n f).times = s.times := rfl
@[simp] theorem modCore_timeAdj (s : State) (n : Nat) (f : Core → Core) : (s.modCore n f).timeAdj = s.timeAdj := rfl
@[simp] theorem modCore_clusters (s : State) (n : Nat) (f : Core → Core) : (s.modCore n f).clusters = s.clusters := rfl
@[simp] theorem modCore_dies (s : State) (n : Nat) (f : Core → Core) : (s.modCore n f).dies = s.dies := rfl
@[simp] theorem modCore_ports (s : State) (n : Nat) (f : Core → Core) : (s.modCore n f).ports = s.ports := rfl
@[simp] theorem modCore_rails (s : State) (n : Nat) (f : Core → Core) : (s.modCore n f).rails = s.rails := rfl
@[simp] theorem modCore_changes (s : State) (n : Nat) (f : Core → Core) : (s.modCore n f).changes = s.changes := rfl
@[simp] theorem modCore_fns (s : State) (n : Nat) (f : Core → Core) : (s.modCore n f).fns = s.fns := rfl
@[simp] theorem modCore_parts (s : State) (n : Nat) (f : Core → Core) : (s.modCore n f).parts = s.parts := rfl
@[simp] theorem modCore_fown (s : State) (n : Nat) (f : Core → Core) : (s.modCore n f).fown = s.fown := rfl
@[simp] theorem modCore_fmap (s : State) (n : Nat) (f : Core → Core) : (s.modCore n f).fmap = s.fmap := rfl
@[simp] theorem modCore_fwall (s : State) (n : Nat) (f : Core → Core) : (s.modCore n f).fwall = s.fwall := rfl
@[simp] theorem modCore_merr (s : State) (n : Nat) (f : Core → Core) : (s.modCore n f).merr = s.merr := rfl
@[simp] theorem modCore_ppmap0 (s : State) (n : Nat) (f : Core → Core) : (s.modCore n f).ppmap0 = s.ppmap0 := rfl
@[simp] theorem modCore_ppmap1 (s : State) (n : Nat) (f : Core → Core) : (s.modCore n f).ppmap1 = s.ppmap1 := rfl
@[simp] theorem modCore_capsel (s : State) (n : Nat) (f : Core → Core) : (s.modCore n f).capsel = s.capsel := rfl
@[simp] theorem modCore_slice (s : State) (n : Nat) (f : Core → Core) : (s.modCore n f).slice = s.slice := rfl
@[simp] theorem modCore_sliceAt (s : State) (n : Nat) (f : Core → Core) : (s.modCore n f).sliceAt = s.sliceAt := rfl
@[simp] theorem modCore_ending (s : State) (n : Nat) (f : Core → Core) : (s.modCore n f).ending = s.ending := rfl
@[simp] theorem modCore_pulseAt (s : State) (n : Nat) (f : Core → Core) : (s.modCore n f).pulseAt = s.pulseAt := rfl
@[simp] theorem modCore_intervalAt (s : State) (n : Nat) (f : Core → Core) : (s.modCore n f).intervalAt = s.intervalAt := rfl
@[simp] theorem modCore_since (s : State) (n : Nat) (f : Core → Core) : (s.modCore n f).since = s.since := rfl
@[simp] theorem modCore_worked (s : State) (n : Nat) (f : Core → Core) : (s.modCore n f).worked = s.worked := rfl
@[simp] theorem modCore_spent (s : State) (n : Nat) (f : Core → Core) : (s.modCore n f).spent = s.spent := rfl
@[simp] theorem modCore_packets (s : State) (n : Nat) (f : Core → Core) : (s.modCore n f).packets = s.packets := rfl
@[simp] theorem modCore_scopes (s : State) (n : Nat) (f : Core → Core) : (s.modCore n f).scopes = s.scopes := rfl
@[simp] theorem modCore_launches (s : State) (n : Nat) (f : Core → Core) : (s.modCore n f).launches = s.launches := rfl
@[simp] theorem modCore_ats (s : State) (n : Nat) (f : Core → Core) : (s.modCore n f).ats = s.ats := rfl
@[simp] theorem modCore_mem (s : State) (n : Nat) (f : Core → Core) : (s.modCore n f).mem = s.mem := rfl
@[simp] theorem modCore_host (s : State) (n : Nat) (f : Core → Core) : (s.modCore n f).host = s.host := rfl
@[simp] theorem modCore_poison (s : State) (n : Nat) (f : Core → Core) : (s.modCore n f).poison = s.poison := rfl
@[simp] theorem modCore_hostPoison (s : State) (n : Nat) (f : Core → Core) : (s.modCore n f).hostPoison = s.hostPoison := rfl
@[simp] theorem modCore_hostRmw (s : State) (n : Nat) (f : Core → Core) : (s.modCore n f).hostRmw = s.hostRmw := rfl
@[simp] theorem modCore_rows (s : State) (n : Nat) (f : Core → Core) : (s.modCore n f).rows = s.rows := rfl
@[simp] theorem modCore_cells (s : State) (n : Nat) (f : Core → Core) : (s.modCore n f).cells = s.cells := rfl
@[simp] theorem modCore_frozen (s : State) (n : Nat) (f : Core → Core) : (s.modCore n f).frozen = s.frozen := rfl
@[simp] theorem modCore_agenda (s : State) (n : Nat) (f : Core → Core) : (s.modCore n f).agenda = s.agenda := rfl
@[simp] theorem modCore_issueQ (s : State) (n : Nat) (f : Core → Core) : (s.modCore n f).issueQ = s.issueQ := rfl
@[simp] theorem modCore_cur (s : State) (n : Nat) (f : Core → Core) : (s.modCore n f).cur = s.cur := rfl
@[simp] theorem modCore_free (s : State) (n : Nat) (f : Core → Core) : (s.modCore n f).free = s.free := rfl
@[simp] theorem modCore_nextId (s : State) (n : Nat) (f : Core → Core) : (s.modCore n f).nextId = s.nextId := rfl

/-! ### modCluster -/

@[simp] theorem modCluster_times (s : State) (n : Nat) (f : Cluster → Cluster) : (s.modCluster n f).times = s.times := rfl
@[simp] theorem modCluster_timeAdj (s : State) (n : Nat) (f : Cluster → Cluster) : (s.modCluster n f).timeAdj = s.timeAdj := rfl
@[simp] theorem modCluster_cores (s : State) (n : Nat) (f : Cluster → Cluster) : (s.modCluster n f).cores = s.cores := rfl
@[simp] theorem modCluster_dies (s : State) (n : Nat) (f : Cluster → Cluster) : (s.modCluster n f).dies = s.dies := rfl
@[simp] theorem modCluster_ports (s : State) (n : Nat) (f : Cluster → Cluster) : (s.modCluster n f).ports = s.ports := rfl
@[simp] theorem modCluster_rails (s : State) (n : Nat) (f : Cluster → Cluster) : (s.modCluster n f).rails = s.rails := rfl
@[simp] theorem modCluster_changes (s : State) (n : Nat) (f : Cluster → Cluster) : (s.modCluster n f).changes = s.changes := rfl
@[simp] theorem modCluster_fns (s : State) (n : Nat) (f : Cluster → Cluster) : (s.modCluster n f).fns = s.fns := rfl
@[simp] theorem modCluster_parts (s : State) (n : Nat) (f : Cluster → Cluster) : (s.modCluster n f).parts = s.parts := rfl
@[simp] theorem modCluster_fown (s : State) (n : Nat) (f : Cluster → Cluster) : (s.modCluster n f).fown = s.fown := rfl
@[simp] theorem modCluster_fmap (s : State) (n : Nat) (f : Cluster → Cluster) : (s.modCluster n f).fmap = s.fmap := rfl
@[simp] theorem modCluster_fwall (s : State) (n : Nat) (f : Cluster → Cluster) : (s.modCluster n f).fwall = s.fwall := rfl
@[simp] theorem modCluster_merr (s : State) (n : Nat) (f : Cluster → Cluster) : (s.modCluster n f).merr = s.merr := rfl
@[simp] theorem modCluster_ppmap0 (s : State) (n : Nat) (f : Cluster → Cluster) : (s.modCluster n f).ppmap0 = s.ppmap0 := rfl
@[simp] theorem modCluster_ppmap1 (s : State) (n : Nat) (f : Cluster → Cluster) : (s.modCluster n f).ppmap1 = s.ppmap1 := rfl
@[simp] theorem modCluster_capsel (s : State) (n : Nat) (f : Cluster → Cluster) : (s.modCluster n f).capsel = s.capsel := rfl
@[simp] theorem modCluster_slice (s : State) (n : Nat) (f : Cluster → Cluster) : (s.modCluster n f).slice = s.slice := rfl
@[simp] theorem modCluster_sliceAt (s : State) (n : Nat) (f : Cluster → Cluster) : (s.modCluster n f).sliceAt = s.sliceAt := rfl
@[simp] theorem modCluster_ending (s : State) (n : Nat) (f : Cluster → Cluster) : (s.modCluster n f).ending = s.ending := rfl
@[simp] theorem modCluster_pulseAt (s : State) (n : Nat) (f : Cluster → Cluster) : (s.modCluster n f).pulseAt = s.pulseAt := rfl
@[simp] theorem modCluster_intervalAt (s : State) (n : Nat) (f : Cluster → Cluster) : (s.modCluster n f).intervalAt = s.intervalAt := rfl
@[simp] theorem modCluster_since (s : State) (n : Nat) (f : Cluster → Cluster) : (s.modCluster n f).since = s.since := rfl
@[simp] theorem modCluster_worked (s : State) (n : Nat) (f : Cluster → Cluster) : (s.modCluster n f).worked = s.worked := rfl
@[simp] theorem modCluster_spent (s : State) (n : Nat) (f : Cluster → Cluster) : (s.modCluster n f).spent = s.spent := rfl
@[simp] theorem modCluster_packets (s : State) (n : Nat) (f : Cluster → Cluster) : (s.modCluster n f).packets = s.packets := rfl
@[simp] theorem modCluster_scopes (s : State) (n : Nat) (f : Cluster → Cluster) : (s.modCluster n f).scopes = s.scopes := rfl
@[simp] theorem modCluster_launches (s : State) (n : Nat) (f : Cluster → Cluster) : (s.modCluster n f).launches = s.launches := rfl
@[simp] theorem modCluster_ats (s : State) (n : Nat) (f : Cluster → Cluster) : (s.modCluster n f).ats = s.ats := rfl
@[simp] theorem modCluster_mem (s : State) (n : Nat) (f : Cluster → Cluster) : (s.modCluster n f).mem = s.mem := rfl
@[simp] theorem modCluster_host (s : State) (n : Nat) (f : Cluster → Cluster) : (s.modCluster n f).host = s.host := rfl
@[simp] theorem modCluster_poison (s : State) (n : Nat) (f : Cluster → Cluster) : (s.modCluster n f).poison = s.poison := rfl
@[simp] theorem modCluster_hostPoison (s : State) (n : Nat) (f : Cluster → Cluster) : (s.modCluster n f).hostPoison = s.hostPoison := rfl
@[simp] theorem modCluster_hostRmw (s : State) (n : Nat) (f : Cluster → Cluster) : (s.modCluster n f).hostRmw = s.hostRmw := rfl
@[simp] theorem modCluster_rows (s : State) (n : Nat) (f : Cluster → Cluster) : (s.modCluster n f).rows = s.rows := rfl
@[simp] theorem modCluster_cells (s : State) (n : Nat) (f : Cluster → Cluster) : (s.modCluster n f).cells = s.cells := rfl
@[simp] theorem modCluster_frozen (s : State) (n : Nat) (f : Cluster → Cluster) : (s.modCluster n f).frozen = s.frozen := rfl
@[simp] theorem modCluster_agenda (s : State) (n : Nat) (f : Cluster → Cluster) : (s.modCluster n f).agenda = s.agenda := rfl
@[simp] theorem modCluster_issueQ (s : State) (n : Nat) (f : Cluster → Cluster) : (s.modCluster n f).issueQ = s.issueQ := rfl
@[simp] theorem modCluster_cur (s : State) (n : Nat) (f : Cluster → Cluster) : (s.modCluster n f).cur = s.cur := rfl
@[simp] theorem modCluster_free (s : State) (n : Nat) (f : Cluster → Cluster) : (s.modCluster n f).free = s.free := rfl
@[simp] theorem modCluster_nextId (s : State) (n : Nat) (f : Cluster → Cluster) : (s.modCluster n f).nextId = s.nextId := rfl

/-! ### modDie -/

@[simp] theorem modDie_times (s : State) (n : Nat) (f : Die → Die) : (s.modDie n f).times = s.times := rfl
@[simp] theorem modDie_timeAdj (s : State) (n : Nat) (f : Die → Die) : (s.modDie n f).timeAdj = s.timeAdj := rfl
@[simp] theorem modDie_cores (s : State) (n : Nat) (f : Die → Die) : (s.modDie n f).cores = s.cores := rfl
@[simp] theorem modDie_clusters (s : State) (n : Nat) (f : Die → Die) : (s.modDie n f).clusters = s.clusters := rfl
@[simp] theorem modDie_ports (s : State) (n : Nat) (f : Die → Die) : (s.modDie n f).ports = s.ports := rfl
@[simp] theorem modDie_rails (s : State) (n : Nat) (f : Die → Die) : (s.modDie n f).rails = s.rails := rfl
@[simp] theorem modDie_changes (s : State) (n : Nat) (f : Die → Die) : (s.modDie n f).changes = s.changes := rfl
@[simp] theorem modDie_fns (s : State) (n : Nat) (f : Die → Die) : (s.modDie n f).fns = s.fns := rfl
@[simp] theorem modDie_parts (s : State) (n : Nat) (f : Die → Die) : (s.modDie n f).parts = s.parts := rfl
@[simp] theorem modDie_fown (s : State) (n : Nat) (f : Die → Die) : (s.modDie n f).fown = s.fown := rfl
@[simp] theorem modDie_fmap (s : State) (n : Nat) (f : Die → Die) : (s.modDie n f).fmap = s.fmap := rfl
@[simp] theorem modDie_fwall (s : State) (n : Nat) (f : Die → Die) : (s.modDie n f).fwall = s.fwall := rfl
@[simp] theorem modDie_merr (s : State) (n : Nat) (f : Die → Die) : (s.modDie n f).merr = s.merr := rfl
@[simp] theorem modDie_ppmap0 (s : State) (n : Nat) (f : Die → Die) : (s.modDie n f).ppmap0 = s.ppmap0 := rfl
@[simp] theorem modDie_ppmap1 (s : State) (n : Nat) (f : Die → Die) : (s.modDie n f).ppmap1 = s.ppmap1 := rfl
@[simp] theorem modDie_capsel (s : State) (n : Nat) (f : Die → Die) : (s.modDie n f).capsel = s.capsel := rfl
@[simp] theorem modDie_slice (s : State) (n : Nat) (f : Die → Die) : (s.modDie n f).slice = s.slice := rfl
@[simp] theorem modDie_sliceAt (s : State) (n : Nat) (f : Die → Die) : (s.modDie n f).sliceAt = s.sliceAt := rfl
@[simp] theorem modDie_ending (s : State) (n : Nat) (f : Die → Die) : (s.modDie n f).ending = s.ending := rfl
@[simp] theorem modDie_pulseAt (s : State) (n : Nat) (f : Die → Die) : (s.modDie n f).pulseAt = s.pulseAt := rfl
@[simp] theorem modDie_intervalAt (s : State) (n : Nat) (f : Die → Die) : (s.modDie n f).intervalAt = s.intervalAt := rfl
@[simp] theorem modDie_since (s : State) (n : Nat) (f : Die → Die) : (s.modDie n f).since = s.since := rfl
@[simp] theorem modDie_worked (s : State) (n : Nat) (f : Die → Die) : (s.modDie n f).worked = s.worked := rfl
@[simp] theorem modDie_spent (s : State) (n : Nat) (f : Die → Die) : (s.modDie n f).spent = s.spent := rfl
@[simp] theorem modDie_packets (s : State) (n : Nat) (f : Die → Die) : (s.modDie n f).packets = s.packets := rfl
@[simp] theorem modDie_scopes (s : State) (n : Nat) (f : Die → Die) : (s.modDie n f).scopes = s.scopes := rfl
@[simp] theorem modDie_launches (s : State) (n : Nat) (f : Die → Die) : (s.modDie n f).launches = s.launches := rfl
@[simp] theorem modDie_ats (s : State) (n : Nat) (f : Die → Die) : (s.modDie n f).ats = s.ats := rfl
@[simp] theorem modDie_mem (s : State) (n : Nat) (f : Die → Die) : (s.modDie n f).mem = s.mem := rfl
@[simp] theorem modDie_host (s : State) (n : Nat) (f : Die → Die) : (s.modDie n f).host = s.host := rfl
@[simp] theorem modDie_poison (s : State) (n : Nat) (f : Die → Die) : (s.modDie n f).poison = s.poison := rfl
@[simp] theorem modDie_hostPoison (s : State) (n : Nat) (f : Die → Die) : (s.modDie n f).hostPoison = s.hostPoison := rfl
@[simp] theorem modDie_hostRmw (s : State) (n : Nat) (f : Die → Die) : (s.modDie n f).hostRmw = s.hostRmw := rfl
@[simp] theorem modDie_rows (s : State) (n : Nat) (f : Die → Die) : (s.modDie n f).rows = s.rows := rfl
@[simp] theorem modDie_cells (s : State) (n : Nat) (f : Die → Die) : (s.modDie n f).cells = s.cells := rfl
@[simp] theorem modDie_frozen (s : State) (n : Nat) (f : Die → Die) : (s.modDie n f).frozen = s.frozen := rfl
@[simp] theorem modDie_agenda (s : State) (n : Nat) (f : Die → Die) : (s.modDie n f).agenda = s.agenda := rfl
@[simp] theorem modDie_issueQ (s : State) (n : Nat) (f : Die → Die) : (s.modDie n f).issueQ = s.issueQ := rfl
@[simp] theorem modDie_cur (s : State) (n : Nat) (f : Die → Die) : (s.modDie n f).cur = s.cur := rfl
@[simp] theorem modDie_free (s : State) (n : Nat) (f : Die → Die) : (s.modDie n f).free = s.free := rfl
@[simp] theorem modDie_nextId (s : State) (n : Nat) (f : Die → Die) : (s.modDie n f).nextId = s.nextId := rfl

/-! ### modFn -/

@[simp] theorem modFn_times (s : State) (n : Nat) (f : Fn → Fn) : (s.modFn n f).times = s.times := rfl
@[simp] theorem modFn_timeAdj (s : State) (n : Nat) (f : Fn → Fn) : (s.modFn n f).timeAdj = s.timeAdj := rfl
@[simp] theorem modFn_cores (s : State) (n : Nat) (f : Fn → Fn) : (s.modFn n f).cores = s.cores := rfl
@[simp] theorem modFn_clusters (s : State) (n : Nat) (f : Fn → Fn) : (s.modFn n f).clusters = s.clusters := rfl
@[simp] theorem modFn_dies (s : State) (n : Nat) (f : Fn → Fn) : (s.modFn n f).dies = s.dies := rfl
@[simp] theorem modFn_ports (s : State) (n : Nat) (f : Fn → Fn) : (s.modFn n f).ports = s.ports := rfl
@[simp] theorem modFn_rails (s : State) (n : Nat) (f : Fn → Fn) : (s.modFn n f).rails = s.rails := rfl
@[simp] theorem modFn_changes (s : State) (n : Nat) (f : Fn → Fn) : (s.modFn n f).changes = s.changes := rfl
@[simp] theorem modFn_parts (s : State) (n : Nat) (f : Fn → Fn) : (s.modFn n f).parts = s.parts := rfl
@[simp] theorem modFn_fown (s : State) (n : Nat) (f : Fn → Fn) : (s.modFn n f).fown = s.fown := rfl
@[simp] theorem modFn_fmap (s : State) (n : Nat) (f : Fn → Fn) : (s.modFn n f).fmap = s.fmap := rfl
@[simp] theorem modFn_fwall (s : State) (n : Nat) (f : Fn → Fn) : (s.modFn n f).fwall = s.fwall := rfl
@[simp] theorem modFn_merr (s : State) (n : Nat) (f : Fn → Fn) : (s.modFn n f).merr = s.merr := rfl
@[simp] theorem modFn_ppmap0 (s : State) (n : Nat) (f : Fn → Fn) : (s.modFn n f).ppmap0 = s.ppmap0 := rfl
@[simp] theorem modFn_ppmap1 (s : State) (n : Nat) (f : Fn → Fn) : (s.modFn n f).ppmap1 = s.ppmap1 := rfl
@[simp] theorem modFn_capsel (s : State) (n : Nat) (f : Fn → Fn) : (s.modFn n f).capsel = s.capsel := rfl
@[simp] theorem modFn_slice (s : State) (n : Nat) (f : Fn → Fn) : (s.modFn n f).slice = s.slice := rfl
@[simp] theorem modFn_sliceAt (s : State) (n : Nat) (f : Fn → Fn) : (s.modFn n f).sliceAt = s.sliceAt := rfl
@[simp] theorem modFn_ending (s : State) (n : Nat) (f : Fn → Fn) : (s.modFn n f).ending = s.ending := rfl
@[simp] theorem modFn_pulseAt (s : State) (n : Nat) (f : Fn → Fn) : (s.modFn n f).pulseAt = s.pulseAt := rfl
@[simp] theorem modFn_intervalAt (s : State) (n : Nat) (f : Fn → Fn) : (s.modFn n f).intervalAt = s.intervalAt := rfl
@[simp] theorem modFn_since (s : State) (n : Nat) (f : Fn → Fn) : (s.modFn n f).since = s.since := rfl
@[simp] theorem modFn_worked (s : State) (n : Nat) (f : Fn → Fn) : (s.modFn n f).worked = s.worked := rfl
@[simp] theorem modFn_spent (s : State) (n : Nat) (f : Fn → Fn) : (s.modFn n f).spent = s.spent := rfl
@[simp] theorem modFn_packets (s : State) (n : Nat) (f : Fn → Fn) : (s.modFn n f).packets = s.packets := rfl
@[simp] theorem modFn_scopes (s : State) (n : Nat) (f : Fn → Fn) : (s.modFn n f).scopes = s.scopes := rfl
@[simp] theorem modFn_launches (s : State) (n : Nat) (f : Fn → Fn) : (s.modFn n f).launches = s.launches := rfl
@[simp] theorem modFn_ats (s : State) (n : Nat) (f : Fn → Fn) : (s.modFn n f).ats = s.ats := rfl
@[simp] theorem modFn_mem (s : State) (n : Nat) (f : Fn → Fn) : (s.modFn n f).mem = s.mem := rfl
@[simp] theorem modFn_host (s : State) (n : Nat) (f : Fn → Fn) : (s.modFn n f).host = s.host := rfl
@[simp] theorem modFn_poison (s : State) (n : Nat) (f : Fn → Fn) : (s.modFn n f).poison = s.poison := rfl
@[simp] theorem modFn_hostPoison (s : State) (n : Nat) (f : Fn → Fn) : (s.modFn n f).hostPoison = s.hostPoison := rfl
@[simp] theorem modFn_hostRmw (s : State) (n : Nat) (f : Fn → Fn) : (s.modFn n f).hostRmw = s.hostRmw := rfl
@[simp] theorem modFn_rows (s : State) (n : Nat) (f : Fn → Fn) : (s.modFn n f).rows = s.rows := rfl
@[simp] theorem modFn_cells (s : State) (n : Nat) (f : Fn → Fn) : (s.modFn n f).cells = s.cells := rfl
@[simp] theorem modFn_frozen (s : State) (n : Nat) (f : Fn → Fn) : (s.modFn n f).frozen = s.frozen := rfl
@[simp] theorem modFn_agenda (s : State) (n : Nat) (f : Fn → Fn) : (s.modFn n f).agenda = s.agenda := rfl
@[simp] theorem modFn_issueQ (s : State) (n : Nat) (f : Fn → Fn) : (s.modFn n f).issueQ = s.issueQ := rfl
@[simp] theorem modFn_cur (s : State) (n : Nat) (f : Fn → Fn) : (s.modFn n f).cur = s.cur := rfl
@[simp] theorem modFn_free (s : State) (n : Nat) (f : Fn → Fn) : (s.modFn n f).free = s.free := rfl
@[simp] theorem modFn_nextId (s : State) (n : Nat) (f : Fn → Fn) : (s.modFn n f).nextId = s.nextId := rfl

/-! ### modPart -/

@[simp] theorem modPart_times (s : State) (n : Nat) (f : Part → Part) : (s.modPart n f).times = s.times := rfl
@[simp] theorem modPart_timeAdj (s : State) (n : Nat) (f : Part → Part) : (s.modPart n f).timeAdj = s.timeAdj := rfl
@[simp] theorem modPart_cores (s : State) (n : Nat) (f : Part → Part) : (s.modPart n f).cores = s.cores := rfl
@[simp] theorem modPart_clusters (s : State) (n : Nat) (f : Part → Part) : (s.modPart n f).clusters = s.clusters := rfl
@[simp] theorem modPart_dies (s : State) (n : Nat) (f : Part → Part) : (s.modPart n f).dies = s.dies := rfl
@[simp] theorem modPart_ports (s : State) (n : Nat) (f : Part → Part) : (s.modPart n f).ports = s.ports := rfl
@[simp] theorem modPart_rails (s : State) (n : Nat) (f : Part → Part) : (s.modPart n f).rails = s.rails := rfl
@[simp] theorem modPart_changes (s : State) (n : Nat) (f : Part → Part) : (s.modPart n f).changes = s.changes := rfl
@[simp] theorem modPart_fns (s : State) (n : Nat) (f : Part → Part) : (s.modPart n f).fns = s.fns := rfl
@[simp] theorem modPart_fown (s : State) (n : Nat) (f : Part → Part) : (s.modPart n f).fown = s.fown := rfl
@[simp] theorem modPart_fmap (s : State) (n : Nat) (f : Part → Part) : (s.modPart n f).fmap = s.fmap := rfl
@[simp] theorem modPart_fwall (s : State) (n : Nat) (f : Part → Part) : (s.modPart n f).fwall = s.fwall := rfl
@[simp] theorem modPart_merr (s : State) (n : Nat) (f : Part → Part) : (s.modPart n f).merr = s.merr := rfl
@[simp] theorem modPart_ppmap0 (s : State) (n : Nat) (f : Part → Part) : (s.modPart n f).ppmap0 = s.ppmap0 := rfl
@[simp] theorem modPart_ppmap1 (s : State) (n : Nat) (f : Part → Part) : (s.modPart n f).ppmap1 = s.ppmap1 := rfl
@[simp] theorem modPart_capsel (s : State) (n : Nat) (f : Part → Part) : (s.modPart n f).capsel = s.capsel := rfl
@[simp] theorem modPart_slice (s : State) (n : Nat) (f : Part → Part) : (s.modPart n f).slice = s.slice := rfl
@[simp] theorem modPart_sliceAt (s : State) (n : Nat) (f : Part → Part) : (s.modPart n f).sliceAt = s.sliceAt := rfl
@[simp] theorem modPart_ending (s : State) (n : Nat) (f : Part → Part) : (s.modPart n f).ending = s.ending := rfl
@[simp] theorem modPart_pulseAt (s : State) (n : Nat) (f : Part → Part) : (s.modPart n f).pulseAt = s.pulseAt := rfl
@[simp] theorem modPart_intervalAt (s : State) (n : Nat) (f : Part → Part) : (s.modPart n f).intervalAt = s.intervalAt := rfl
@[simp] theorem modPart_since (s : State) (n : Nat) (f : Part → Part) : (s.modPart n f).since = s.since := rfl
@[simp] theorem modPart_worked (s : State) (n : Nat) (f : Part → Part) : (s.modPart n f).worked = s.worked := rfl
@[simp] theorem modPart_spent (s : State) (n : Nat) (f : Part → Part) : (s.modPart n f).spent = s.spent := rfl
@[simp] theorem modPart_packets (s : State) (n : Nat) (f : Part → Part) : (s.modPart n f).packets = s.packets := rfl
@[simp] theorem modPart_scopes (s : State) (n : Nat) (f : Part → Part) : (s.modPart n f).scopes = s.scopes := rfl
@[simp] theorem modPart_launches (s : State) (n : Nat) (f : Part → Part) : (s.modPart n f).launches = s.launches := rfl
@[simp] theorem modPart_ats (s : State) (n : Nat) (f : Part → Part) : (s.modPart n f).ats = s.ats := rfl
@[simp] theorem modPart_mem (s : State) (n : Nat) (f : Part → Part) : (s.modPart n f).mem = s.mem := rfl
@[simp] theorem modPart_host (s : State) (n : Nat) (f : Part → Part) : (s.modPart n f).host = s.host := rfl
@[simp] theorem modPart_poison (s : State) (n : Nat) (f : Part → Part) : (s.modPart n f).poison = s.poison := rfl
@[simp] theorem modPart_hostPoison (s : State) (n : Nat) (f : Part → Part) : (s.modPart n f).hostPoison = s.hostPoison := rfl
@[simp] theorem modPart_hostRmw (s : State) (n : Nat) (f : Part → Part) : (s.modPart n f).hostRmw = s.hostRmw := rfl
@[simp] theorem modPart_rows (s : State) (n : Nat) (f : Part → Part) : (s.modPart n f).rows = s.rows := rfl
@[simp] theorem modPart_cells (s : State) (n : Nat) (f : Part → Part) : (s.modPart n f).cells = s.cells := rfl
@[simp] theorem modPart_frozen (s : State) (n : Nat) (f : Part → Part) : (s.modPart n f).frozen = s.frozen := rfl
@[simp] theorem modPart_agenda (s : State) (n : Nat) (f : Part → Part) : (s.modPart n f).agenda = s.agenda := rfl
@[simp] theorem modPart_issueQ (s : State) (n : Nat) (f : Part → Part) : (s.modPart n f).issueQ = s.issueQ := rfl
@[simp] theorem modPart_cur (s : State) (n : Nat) (f : Part → Part) : (s.modPart n f).cur = s.cur := rfl
@[simp] theorem modPart_free (s : State) (n : Nat) (f : Part → Part) : (s.modPart n f).free = s.free := rfl
@[simp] theorem modPart_nextId (s : State) (n : Nat) (f : Part → Part) : (s.modPart n f).nextId = s.nextId := rfl

/-! ### setAqi -/

@[simp] theorem setAqi_times (s : State) (n m : Nat) (a : Aqi) : (s.setAqi n m a).times = s.times := rfl
@[simp] theorem setAqi_timeAdj (s : State) (n m : Nat) (a : Aqi) : (s.setAqi n m a).timeAdj = s.timeAdj := rfl
@[simp] theorem setAqi_cores (s : State) (n m : Nat) (a : Aqi) : (s.setAqi n m a).cores = s.cores := rfl
@[simp] theorem setAqi_clusters (s : State) (n m : Nat) (a : Aqi) : (s.setAqi n m a).clusters = s.clusters := rfl
@[simp] theorem setAqi_dies (s : State) (n m : Nat) (a : Aqi) : (s.setAqi n m a).dies = s.dies := rfl
@[simp] theorem setAqi_ports (s : State) (n m : Nat) (a : Aqi) : (s.setAqi n m a).ports = s.ports := rfl
@[simp] theorem setAqi_rails (s : State) (n m : Nat) (a : Aqi) : (s.setAqi n m a).rails = s.rails := rfl
@[simp] theorem setAqi_changes (s : State) (n m : Nat) (a : Aqi) : (s.setAqi n m a).changes = s.changes := rfl
@[simp] theorem setAqi_parts (s : State) (n m : Nat) (a : Aqi) : (s.setAqi n m a).parts = s.parts := rfl
@[simp] theorem setAqi_fown (s : State) (n m : Nat) (a : Aqi) : (s.setAqi n m a).fown = s.fown := rfl
@[simp] theorem setAqi_fmap (s : State) (n m : Nat) (a : Aqi) : (s.setAqi n m a).fmap = s.fmap := rfl
@[simp] theorem setAqi_fwall (s : State) (n m : Nat) (a : Aqi) : (s.setAqi n m a).fwall = s.fwall := rfl
@[simp] theorem setAqi_merr (s : State) (n m : Nat) (a : Aqi) : (s.setAqi n m a).merr = s.merr := rfl
@[simp] theorem setAqi_ppmap0 (s : State) (n m : Nat) (a : Aqi) : (s.setAqi n m a).ppmap0 = s.ppmap0 := rfl
@[simp] theorem setAqi_ppmap1 (s : State) (n m : Nat) (a : Aqi) : (s.setAqi n m a).ppmap1 = s.ppmap1 := rfl
@[simp] theorem setAqi_capsel (s : State) (n m : Nat) (a : Aqi) : (s.setAqi n m a).capsel = s.capsel := rfl
@[simp] theorem setAqi_slice (s : State) (n m : Nat) (a : Aqi) : (s.setAqi n m a).slice = s.slice := rfl
@[simp] theorem setAqi_sliceAt (s : State) (n m : Nat) (a : Aqi) : (s.setAqi n m a).sliceAt = s.sliceAt := rfl
@[simp] theorem setAqi_ending (s : State) (n m : Nat) (a : Aqi) : (s.setAqi n m a).ending = s.ending := rfl
@[simp] theorem setAqi_pulseAt (s : State) (n m : Nat) (a : Aqi) : (s.setAqi n m a).pulseAt = s.pulseAt := rfl
@[simp] theorem setAqi_intervalAt (s : State) (n m : Nat) (a : Aqi) : (s.setAqi n m a).intervalAt = s.intervalAt := rfl
@[simp] theorem setAqi_since (s : State) (n m : Nat) (a : Aqi) : (s.setAqi n m a).since = s.since := rfl
@[simp] theorem setAqi_worked (s : State) (n m : Nat) (a : Aqi) : (s.setAqi n m a).worked = s.worked := rfl
@[simp] theorem setAqi_spent (s : State) (n m : Nat) (a : Aqi) : (s.setAqi n m a).spent = s.spent := rfl
@[simp] theorem setAqi_packets (s : State) (n m : Nat) (a : Aqi) : (s.setAqi n m a).packets = s.packets := rfl
@[simp] theorem setAqi_scopes (s : State) (n m : Nat) (a : Aqi) : (s.setAqi n m a).scopes = s.scopes := rfl
@[simp] theorem setAqi_launches (s : State) (n m : Nat) (a : Aqi) : (s.setAqi n m a).launches = s.launches := rfl
@[simp] theorem setAqi_ats (s : State) (n m : Nat) (a : Aqi) : (s.setAqi n m a).ats = s.ats := rfl
@[simp] theorem setAqi_mem (s : State) (n m : Nat) (a : Aqi) : (s.setAqi n m a).mem = s.mem := rfl
@[simp] theorem setAqi_host (s : State) (n m : Nat) (a : Aqi) : (s.setAqi n m a).host = s.host := rfl
@[simp] theorem setAqi_poison (s : State) (n m : Nat) (a : Aqi) : (s.setAqi n m a).poison = s.poison := rfl
@[simp] theorem setAqi_hostPoison (s : State) (n m : Nat) (a : Aqi) : (s.setAqi n m a).hostPoison = s.hostPoison := rfl
@[simp] theorem setAqi_hostRmw (s : State) (n m : Nat) (a : Aqi) : (s.setAqi n m a).hostRmw = s.hostRmw := rfl
@[simp] theorem setAqi_rows (s : State) (n m : Nat) (a : Aqi) : (s.setAqi n m a).rows = s.rows := rfl
@[simp] theorem setAqi_cells (s : State) (n m : Nat) (a : Aqi) : (s.setAqi n m a).cells = s.cells := rfl
@[simp] theorem setAqi_frozen (s : State) (n m : Nat) (a : Aqi) : (s.setAqi n m a).frozen = s.frozen := rfl
@[simp] theorem setAqi_agenda (s : State) (n m : Nat) (a : Aqi) : (s.setAqi n m a).agenda = s.agenda := rfl
@[simp] theorem setAqi_issueQ (s : State) (n m : Nat) (a : Aqi) : (s.setAqi n m a).issueQ = s.issueQ := rfl
@[simp] theorem setAqi_cur (s : State) (n m : Nat) (a : Aqi) : (s.setAqi n m a).cur = s.cur := rfl
@[simp] theorem setAqi_free (s : State) (n m : Nat) (a : Aqi) : (s.setAqi n m a).free = s.free := rfl
@[simp] theorem setAqi_nextId (s : State) (n m : Nat) (a : Aqi) : (s.setAqi n m a).nextId = s.nextId := rfl

/-! ### modCrew -/

@[simp] theorem modCrew_times (s : State) (n m : Nat) (f : Crew → Crew) : (s.modCrew n m f).times = s.times := rfl
@[simp] theorem modCrew_timeAdj (s : State) (n m : Nat) (f : Crew → Crew) : (s.modCrew n m f).timeAdj = s.timeAdj := rfl
@[simp] theorem modCrew_clusters (s : State) (n m : Nat) (f : Crew → Crew) : (s.modCrew n m f).clusters = s.clusters := rfl
@[simp] theorem modCrew_dies (s : State) (n m : Nat) (f : Crew → Crew) : (s.modCrew n m f).dies = s.dies := rfl
@[simp] theorem modCrew_ports (s : State) (n m : Nat) (f : Crew → Crew) : (s.modCrew n m f).ports = s.ports := rfl
@[simp] theorem modCrew_rails (s : State) (n m : Nat) (f : Crew → Crew) : (s.modCrew n m f).rails = s.rails := rfl
@[simp] theorem modCrew_changes (s : State) (n m : Nat) (f : Crew → Crew) : (s.modCrew n m f).changes = s.changes := rfl
@[simp] theorem modCrew_fns (s : State) (n m : Nat) (f : Crew → Crew) : (s.modCrew n m f).fns = s.fns := rfl
@[simp] theorem modCrew_parts (s : State) (n m : Nat) (f : Crew → Crew) : (s.modCrew n m f).parts = s.parts := rfl
@[simp] theorem modCrew_fown (s : State) (n m : Nat) (f : Crew → Crew) : (s.modCrew n m f).fown = s.fown := rfl
@[simp] theorem modCrew_fmap (s : State) (n m : Nat) (f : Crew → Crew) : (s.modCrew n m f).fmap = s.fmap := rfl
@[simp] theorem modCrew_fwall (s : State) (n m : Nat) (f : Crew → Crew) : (s.modCrew n m f).fwall = s.fwall := rfl
@[simp] theorem modCrew_merr (s : State) (n m : Nat) (f : Crew → Crew) : (s.modCrew n m f).merr = s.merr := rfl
@[simp] theorem modCrew_ppmap0 (s : State) (n m : Nat) (f : Crew → Crew) : (s.modCrew n m f).ppmap0 = s.ppmap0 := rfl
@[simp] theorem modCrew_ppmap1 (s : State) (n m : Nat) (f : Crew → Crew) : (s.modCrew n m f).ppmap1 = s.ppmap1 := rfl
@[simp] theorem modCrew_capsel (s : State) (n m : Nat) (f : Crew → Crew) : (s.modCrew n m f).capsel = s.capsel := rfl
@[simp] theorem modCrew_slice (s : State) (n m : Nat) (f : Crew → Crew) : (s.modCrew n m f).slice = s.slice := rfl
@[simp] theorem modCrew_sliceAt (s : State) (n m : Nat) (f : Crew → Crew) : (s.modCrew n m f).sliceAt = s.sliceAt := rfl
@[simp] theorem modCrew_ending (s : State) (n m : Nat) (f : Crew → Crew) : (s.modCrew n m f).ending = s.ending := rfl
@[simp] theorem modCrew_pulseAt (s : State) (n m : Nat) (f : Crew → Crew) : (s.modCrew n m f).pulseAt = s.pulseAt := rfl
@[simp] theorem modCrew_intervalAt (s : State) (n m : Nat) (f : Crew → Crew) : (s.modCrew n m f).intervalAt = s.intervalAt := rfl
@[simp] theorem modCrew_since (s : State) (n m : Nat) (f : Crew → Crew) : (s.modCrew n m f).since = s.since := rfl
@[simp] theorem modCrew_worked (s : State) (n m : Nat) (f : Crew → Crew) : (s.modCrew n m f).worked = s.worked := rfl
@[simp] theorem modCrew_spent (s : State) (n m : Nat) (f : Crew → Crew) : (s.modCrew n m f).spent = s.spent := rfl
@[simp] theorem modCrew_packets (s : State) (n m : Nat) (f : Crew → Crew) : (s.modCrew n m f).packets = s.packets := rfl
@[simp] theorem modCrew_scopes (s : State) (n m : Nat) (f : Crew → Crew) : (s.modCrew n m f).scopes = s.scopes := rfl
@[simp] theorem modCrew_launches (s : State) (n m : Nat) (f : Crew → Crew) : (s.modCrew n m f).launches = s.launches := rfl
@[simp] theorem modCrew_ats (s : State) (n m : Nat) (f : Crew → Crew) : (s.modCrew n m f).ats = s.ats := rfl
@[simp] theorem modCrew_mem (s : State) (n m : Nat) (f : Crew → Crew) : (s.modCrew n m f).mem = s.mem := rfl
@[simp] theorem modCrew_host (s : State) (n m : Nat) (f : Crew → Crew) : (s.modCrew n m f).host = s.host := rfl
@[simp] theorem modCrew_poison (s : State) (n m : Nat) (f : Crew → Crew) : (s.modCrew n m f).poison = s.poison := rfl
@[simp] theorem modCrew_hostPoison (s : State) (n m : Nat) (f : Crew → Crew) : (s.modCrew n m f).hostPoison = s.hostPoison := rfl
@[simp] theorem modCrew_hostRmw (s : State) (n m : Nat) (f : Crew → Crew) : (s.modCrew n m f).hostRmw = s.hostRmw := rfl
@[simp] theorem modCrew_rows (s : State) (n m : Nat) (f : Crew → Crew) : (s.modCrew n m f).rows = s.rows := rfl
@[simp] theorem modCrew_cells (s : State) (n m : Nat) (f : Crew → Crew) : (s.modCrew n m f).cells = s.cells := rfl
@[simp] theorem modCrew_frozen (s : State) (n m : Nat) (f : Crew → Crew) : (s.modCrew n m f).frozen = s.frozen := rfl
@[simp] theorem modCrew_agenda (s : State) (n m : Nat) (f : Crew → Crew) : (s.modCrew n m f).agenda = s.agenda := rfl
@[simp] theorem modCrew_issueQ (s : State) (n m : Nat) (f : Crew → Crew) : (s.modCrew n m f).issueQ = s.issueQ := rfl
@[simp] theorem modCrew_cur (s : State) (n m : Nat) (f : Crew → Crew) : (s.modCrew n m f).cur = s.cur := rfl
@[simp] theorem modCrew_free (s : State) (n m : Nat) (f : Crew → Crew) : (s.modCrew n m f).free = s.free := rfl
@[simp] theorem modCrew_nextId (s : State) (n m : Nat) (f : Crew → Crew) : (s.modCrew n m f).nextId = s.nextId := rfl

/-! ### modGroup -/

@[simp] theorem modGroup_times (s : State) (n m g : Nat) (f : Group → Group) : (s.modGroup n m g f).times = s.times := rfl
@[simp] theorem modGroup_timeAdj (s : State) (n m g : Nat) (f : Group → Group) : (s.modGroup n m g f).timeAdj = s.timeAdj := rfl
@[simp] theorem modGroup_clusters (s : State) (n m g : Nat) (f : Group → Group) : (s.modGroup n m g f).clusters = s.clusters := rfl
@[simp] theorem modGroup_dies (s : State) (n m g : Nat) (f : Group → Group) : (s.modGroup n m g f).dies = s.dies := rfl
@[simp] theorem modGroup_ports (s : State) (n m g : Nat) (f : Group → Group) : (s.modGroup n m g f).ports = s.ports := rfl
@[simp] theorem modGroup_rails (s : State) (n m g : Nat) (f : Group → Group) : (s.modGroup n m g f).rails = s.rails := rfl
@[simp] theorem modGroup_changes (s : State) (n m g : Nat) (f : Group → Group) : (s.modGroup n m g f).changes = s.changes := rfl
@[simp] theorem modGroup_fns (s : State) (n m g : Nat) (f : Group → Group) : (s.modGroup n m g f).fns = s.fns := rfl
@[simp] theorem modGroup_parts (s : State) (n m g : Nat) (f : Group → Group) : (s.modGroup n m g f).parts = s.parts := rfl
@[simp] theorem modGroup_fown (s : State) (n m g : Nat) (f : Group → Group) : (s.modGroup n m g f).fown = s.fown := rfl
@[simp] theorem modGroup_fmap (s : State) (n m g : Nat) (f : Group → Group) : (s.modGroup n m g f).fmap = s.fmap := rfl
@[simp] theorem modGroup_fwall (s : State) (n m g : Nat) (f : Group → Group) : (s.modGroup n m g f).fwall = s.fwall := rfl
@[simp] theorem modGroup_merr (s : State) (n m g : Nat) (f : Group → Group) : (s.modGroup n m g f).merr = s.merr := rfl
@[simp] theorem modGroup_ppmap0 (s : State) (n m g : Nat) (f : Group → Group) : (s.modGroup n m g f).ppmap0 = s.ppmap0 := rfl
@[simp] theorem modGroup_ppmap1 (s : State) (n m g : Nat) (f : Group → Group) : (s.modGroup n m g f).ppmap1 = s.ppmap1 := rfl
@[simp] theorem modGroup_capsel (s : State) (n m g : Nat) (f : Group → Group) : (s.modGroup n m g f).capsel = s.capsel := rfl
@[simp] theorem modGroup_slice (s : State) (n m g : Nat) (f : Group → Group) : (s.modGroup n m g f).slice = s.slice := rfl
@[simp] theorem modGroup_sliceAt (s : State) (n m g : Nat) (f : Group → Group) : (s.modGroup n m g f).sliceAt = s.sliceAt := rfl
@[simp] theorem modGroup_ending (s : State) (n m g : Nat) (f : Group → Group) : (s.modGroup n m g f).ending = s.ending := rfl
@[simp] theorem modGroup_pulseAt (s : State) (n m g : Nat) (f : Group → Group) : (s.modGroup n m g f).pulseAt = s.pulseAt := rfl
@[simp] theorem modGroup_intervalAt (s : State) (n m g : Nat) (f : Group → Group) : (s.modGroup n m g f).intervalAt = s.intervalAt := rfl
@[simp] theorem modGroup_since (s : State) (n m g : Nat) (f : Group → Group) : (s.modGroup n m g f).since = s.since := rfl
@[simp] theorem modGroup_worked (s : State) (n m g : Nat) (f : Group → Group) : (s.modGroup n m g f).worked = s.worked := rfl
@[simp] theorem modGroup_spent (s : State) (n m g : Nat) (f : Group → Group) : (s.modGroup n m g f).spent = s.spent := rfl
@[simp] theorem modGroup_packets (s : State) (n m g : Nat) (f : Group → Group) : (s.modGroup n m g f).packets = s.packets := rfl
@[simp] theorem modGroup_scopes (s : State) (n m g : Nat) (f : Group → Group) : (s.modGroup n m g f).scopes = s.scopes := rfl
@[simp] theorem modGroup_launches (s : State) (n m g : Nat) (f : Group → Group) : (s.modGroup n m g f).launches = s.launches := rfl
@[simp] theorem modGroup_ats (s : State) (n m g : Nat) (f : Group → Group) : (s.modGroup n m g f).ats = s.ats := rfl
@[simp] theorem modGroup_mem (s : State) (n m g : Nat) (f : Group → Group) : (s.modGroup n m g f).mem = s.mem := rfl
@[simp] theorem modGroup_host (s : State) (n m g : Nat) (f : Group → Group) : (s.modGroup n m g f).host = s.host := rfl
@[simp] theorem modGroup_poison (s : State) (n m g : Nat) (f : Group → Group) : (s.modGroup n m g f).poison = s.poison := rfl
@[simp] theorem modGroup_hostPoison (s : State) (n m g : Nat) (f : Group → Group) : (s.modGroup n m g f).hostPoison = s.hostPoison := rfl
@[simp] theorem modGroup_hostRmw (s : State) (n m g : Nat) (f : Group → Group) : (s.modGroup n m g f).hostRmw = s.hostRmw := rfl
@[simp] theorem modGroup_rows (s : State) (n m g : Nat) (f : Group → Group) : (s.modGroup n m g f).rows = s.rows := rfl
@[simp] theorem modGroup_cells (s : State) (n m g : Nat) (f : Group → Group) : (s.modGroup n m g f).cells = s.cells := rfl
@[simp] theorem modGroup_frozen (s : State) (n m g : Nat) (f : Group → Group) : (s.modGroup n m g f).frozen = s.frozen := rfl
@[simp] theorem modGroup_agenda (s : State) (n m g : Nat) (f : Group → Group) : (s.modGroup n m g f).agenda = s.agenda := rfl
@[simp] theorem modGroup_issueQ (s : State) (n m g : Nat) (f : Group → Group) : (s.modGroup n m g f).issueQ = s.issueQ := rfl
@[simp] theorem modGroup_cur (s : State) (n m g : Nat) (f : Group → Group) : (s.modGroup n m g f).cur = s.cur := rfl
@[simp] theorem modGroup_free (s : State) (n m g : Nat) (f : Group → Group) : (s.modGroup n m g f).free = s.free := rfl
@[simp] theorem modGroup_nextId (s : State) (n m g : Nat) (f : Group → Group) : (s.modGroup n m g f).nextId = s.nextId := rfl

/-! ### modSplit -/

@[simp] theorem modSplit_times (s : State) (r : SplitRef) (f : Split → Split) : (s.modSplit r f).times = s.times := rfl
@[simp] theorem modSplit_timeAdj (s : State) (r : SplitRef) (f : Split → Split) : (s.modSplit r f).timeAdj = s.timeAdj := rfl
@[simp] theorem modSplit_clusters (s : State) (r : SplitRef) (f : Split → Split) : (s.modSplit r f).clusters = s.clusters := rfl
@[simp] theorem modSplit_dies (s : State) (r : SplitRef) (f : Split → Split) : (s.modSplit r f).dies = s.dies := rfl
@[simp] theorem modSplit_ports (s : State) (r : SplitRef) (f : Split → Split) : (s.modSplit r f).ports = s.ports := rfl
@[simp] theorem modSplit_rails (s : State) (r : SplitRef) (f : Split → Split) : (s.modSplit r f).rails = s.rails := rfl
@[simp] theorem modSplit_changes (s : State) (r : SplitRef) (f : Split → Split) : (s.modSplit r f).changes = s.changes := rfl
@[simp] theorem modSplit_fns (s : State) (r : SplitRef) (f : Split → Split) : (s.modSplit r f).fns = s.fns := rfl
@[simp] theorem modSplit_parts (s : State) (r : SplitRef) (f : Split → Split) : (s.modSplit r f).parts = s.parts := rfl
@[simp] theorem modSplit_fown (s : State) (r : SplitRef) (f : Split → Split) : (s.modSplit r f).fown = s.fown := rfl
@[simp] theorem modSplit_fmap (s : State) (r : SplitRef) (f : Split → Split) : (s.modSplit r f).fmap = s.fmap := rfl
@[simp] theorem modSplit_fwall (s : State) (r : SplitRef) (f : Split → Split) : (s.modSplit r f).fwall = s.fwall := rfl
@[simp] theorem modSplit_merr (s : State) (r : SplitRef) (f : Split → Split) : (s.modSplit r f).merr = s.merr := rfl
@[simp] theorem modSplit_ppmap0 (s : State) (r : SplitRef) (f : Split → Split) : (s.modSplit r f).ppmap0 = s.ppmap0 := rfl
@[simp] theorem modSplit_ppmap1 (s : State) (r : SplitRef) (f : Split → Split) : (s.modSplit r f).ppmap1 = s.ppmap1 := rfl
@[simp] theorem modSplit_capsel (s : State) (r : SplitRef) (f : Split → Split) : (s.modSplit r f).capsel = s.capsel := rfl
@[simp] theorem modSplit_slice (s : State) (r : SplitRef) (f : Split → Split) : (s.modSplit r f).slice = s.slice := rfl
@[simp] theorem modSplit_sliceAt (s : State) (r : SplitRef) (f : Split → Split) : (s.modSplit r f).sliceAt = s.sliceAt := rfl
@[simp] theorem modSplit_ending (s : State) (r : SplitRef) (f : Split → Split) : (s.modSplit r f).ending = s.ending := rfl
@[simp] theorem modSplit_pulseAt (s : State) (r : SplitRef) (f : Split → Split) : (s.modSplit r f).pulseAt = s.pulseAt := rfl
@[simp] theorem modSplit_intervalAt (s : State) (r : SplitRef) (f : Split → Split) : (s.modSplit r f).intervalAt = s.intervalAt := rfl
@[simp] theorem modSplit_since (s : State) (r : SplitRef) (f : Split → Split) : (s.modSplit r f).since = s.since := rfl
@[simp] theorem modSplit_worked (s : State) (r : SplitRef) (f : Split → Split) : (s.modSplit r f).worked = s.worked := rfl
@[simp] theorem modSplit_spent (s : State) (r : SplitRef) (f : Split → Split) : (s.modSplit r f).spent = s.spent := rfl
@[simp] theorem modSplit_packets (s : State) (r : SplitRef) (f : Split → Split) : (s.modSplit r f).packets = s.packets := rfl
@[simp] theorem modSplit_scopes (s : State) (r : SplitRef) (f : Split → Split) : (s.modSplit r f).scopes = s.scopes := rfl
@[simp] theorem modSplit_launches (s : State) (r : SplitRef) (f : Split → Split) : (s.modSplit r f).launches = s.launches := rfl
@[simp] theorem modSplit_ats (s : State) (r : SplitRef) (f : Split → Split) : (s.modSplit r f).ats = s.ats := rfl
@[simp] theorem modSplit_mem (s : State) (r : SplitRef) (f : Split → Split) : (s.modSplit r f).mem = s.mem := rfl
@[simp] theorem modSplit_host (s : State) (r : SplitRef) (f : Split → Split) : (s.modSplit r f).host = s.host := rfl
@[simp] theorem modSplit_poison (s : State) (r : SplitRef) (f : Split → Split) : (s.modSplit r f).poison = s.poison := rfl
@[simp] theorem modSplit_hostPoison (s : State) (r : SplitRef) (f : Split → Split) : (s.modSplit r f).hostPoison = s.hostPoison := rfl
@[simp] theorem modSplit_hostRmw (s : State) (r : SplitRef) (f : Split → Split) : (s.modSplit r f).hostRmw = s.hostRmw := rfl
@[simp] theorem modSplit_rows (s : State) (r : SplitRef) (f : Split → Split) : (s.modSplit r f).rows = s.rows := rfl
@[simp] theorem modSplit_cells (s : State) (r : SplitRef) (f : Split → Split) : (s.modSplit r f).cells = s.cells := rfl
@[simp] theorem modSplit_frozen (s : State) (r : SplitRef) (f : Split → Split) : (s.modSplit r f).frozen = s.frozen := rfl
@[simp] theorem modSplit_agenda (s : State) (r : SplitRef) (f : Split → Split) : (s.modSplit r f).agenda = s.agenda := rfl
@[simp] theorem modSplit_issueQ (s : State) (r : SplitRef) (f : Split → Split) : (s.modSplit r f).issueQ = s.issueQ := rfl
@[simp] theorem modSplit_cur (s : State) (r : SplitRef) (f : Split → Split) : (s.modSplit r f).cur = s.cur := rfl
@[simp] theorem modSplit_free (s : State) (r : SplitRef) (f : Split → Split) : (s.modSplit r f).free = s.free := rfl
@[simp] theorem modSplit_nextId (s : State) (r : SplitRef) (f : Split → Split) : (s.modSplit r f).nextId = s.nextId := rfl

end Sys2Proof.Machine.State
end

