-- ==== Sys2Proof/Laws/Place.lean ====
section
/-! SUPPORT. Where an update of one core, crew, group or split can be seen, and where it cannot. -/
namespace Sys2Proof.Machine

theorem modFirst_find? {α : Type} (l : List α) (p : α → Bool) (f : α → α) (hf : ∀ x, p x = true → p (f x) = true) :
    (modFirst l p f).find? p = (l.find? p).map f := by
  induction l with
  | nil => rfl
  | cons x t ih =>
    unfold modFirst
    cases h : p x with
    | true => simp [hf x h, h]
    | false => simp [h, ih]

theorem modFirst_find?_other {α : Type} (l : List α) (p q : α → Bool) (f : α → α) (hq : ∀ x, p x = true → q x = false ∧ q (f x) = false) :
    (modFirst l p f).find? q = l.find? q := by
  induction l with
  | nil => rfl
  | cons x t ih =>
    unfold modFirst
    cases h : p x with
    | true => simp [List.find?_cons, hq x h]
    | false => simp [List.find?_cons, ih]

namespace State

@[simp] theorem core_setCore_same (s : State) (c : Nat) (v : Core) : (s.setCore c v).core c = v := by simp [core]
@[simp] theorem core_setCore_other (s : State) (c d : Nat) (v : Core) (h : d ≠ c) : (s.setCore c v).core d = s.core d := by simp [core, h]
@[simp] theorem core_modCore_same (s : State) (c : Nat) (f : Core → Core) : (s.modCore c f).core c = f (s.core c) := by simp [modCore]
@[simp] theorem core_modCore_other (s : State) (c d : Nat) (f : Core → Core) (h : d ≠ c) : (s.modCore c f).core d = s.core d := by simp [modCore, h]
@[simp] theorem core_modCrew_other (s : State) (c w d : Nat) (f : Crew → Crew) (h : d ≠ c) : (s.modCrew c w f).core d = s.core d := by simp [modCrew, h]
@[simp] theorem core_modGroup_other (s : State) (c w g d : Nat) (f : Group → Group) (h : d ≠ c) : (s.modGroup c w g f).core d = s.core d := by simp [modGroup, h]

/-- Of a core only its crews change. -/
theorem core_modCrew (s : State) (c w : Nat) (f : Crew → Crew) :
    (s.modCrew c w f).core c = { s.core c with crews := modFirst (s.core c).crews (fun x => x.slot == w) f } := by simp [modCrew]

theorem crew?_modCrew (s : State) (c w : Nat) (f : Crew → Crew) (hf : ∀ x : Crew, x.slot = w → (f x).slot = w) :
    (s.modCrew c w f).crew? c w = (s.crew? c w).map f := by
  simp only [crew?, core_modCrew]
  exact modFirst_find? _ _ f (by simpa using hf)

theorem crew?_modCrew_other (s : State) (c w d x : Nat) (f : Crew → Crew) (hf : ∀ x : Crew, x.slot = w → (f x).slot = w) (h : d ≠ c ∨ x ≠ w) :
    (s.modCrew c w f).crew? d x = s.crew? d x := by
  by_cases hd : d = c
  · subst hd
    simp only [crew?, core_modCrew]
    refine modFirst_find?_other _ _ _ f ?_
    intro y hy
    have hx : x ≠ w := h.resolve_left (by simp)
    have hy : y.slot = w := by simpa using hy
    simp [hf y hy, hy, Ne.symm hx]
  · simp [crew?, hd]

theorem crew?_modGroup (s : State) (c w g : Nat) (f : Group → Group) : (s.modGroup c w g f).crew? c w = (s.crew? c w).map fun x => x.modGroup g f :=
  crew?_modCrew s c w _ (by simp [Crew.modGroup])

theorem crew?_modGroup_other (s : State) (c w g d x : Nat) (f : Group → Group) (h : d ≠ c ∨ x ≠ w) : (s.modGroup c w g f).crew? d x = s.crew? d x :=
  crew?_modCrew_other s c w d x _ (by simp [Crew.modGroup]) h

theorem group?_modGroup (s : State) (c w g : Nat) (f : Group → Group) (hf : ∀ x : Group, x.gid = g → (f x).gid = g) :
    (s.modGroup c w g f).group? c w g = (s.group? c w g).map f := by
  simp only [group?, crew?_modGroup]
  cases s.crew? c w with
  | none => rfl
  | some x => exact modFirst_find? _ _ f (by simpa using hf)

theorem group?_modGroup_other (s : State) (c w g d x j : Nat) (f : Group → Group) (hf : ∀ x : Group, x.gid = g → (f x).gid = g)
    (h : d ≠ c ∨ x ≠ w ∨ j ≠ g) : (s.modGroup c w g f).group? d x j = s.group? d x j := by
  by_cases hd : d ≠ c ∨ x ≠ w
  · simp only [group?, crew?_modGroup_other s c w g d x f hd]
  · have hc : d = c ∧ x = w := by omega
    obtain ⟨rfl, rfl⟩ := hc
    have hj : j ≠ g := by omega
    simp only [group?, crew?_modGroup]
    cases s.crew? d x with
    | none => rfl
    | some y =>
      refine modFirst_find?_other _ _ _ f ?_
      intro z hz
      have hz : z.gid = g := by simpa using hz
      simp [hf z hz, hz, Ne.symm hj]

/-- The context of the executing word names the crew, group and split that the state holds. -/
theorem of_ctx {s : State} {c : Ctx} (h : s.ctx = some c) :
    s.cur = some ⟨c.r, c.onQ, c.pre⟩ ∧ s.crew? c.r.core c.r.crew = some c.crew ∧ c.crew.group? c.r.gid = some c.g ∧ c.g.live = true ∧
      c.g.split? c.r.split = some c.sp := by
  unfold ctx at h
  split at h
  · cases h
  · rename_i u hu
    split at h
    · cases h
    · rename_i w hw
      split at h
      · cases h
      · rename_i g hg
        split at h
        · cases h
        · rename_i hl
          split at h
          · cases h
          · rename_i p hp
            cases h
            exact ⟨hu, hw, hg, by simpa using hl, hp⟩

theorem group?_of_ctx {s : State} {c : Ctx} (h : s.ctx = some c) : s.group? c.r.core c.r.crew c.r.gid = some c.g := by
  obtain ⟨-, hw, hg, -, -⟩ := of_ctx h
  simp [group?, hw, hg]

end State

theorem Group.split?_modSplit (g : Group) (n : Nat) (f : Split → Split) (hf : ∀ x : Split, x.num = n → (f x).num = n) :
    (g.modSplit n f).split? n = (g.split? n).map f := modFirst_find? _ _ f (by simpa using hf)

theorem Group.split?_modSplit_other (g : Group) (n m : Nat) (f : Split → Split) (hf : ∀ x : Split, x.num = n → (f x).num = n) (h : m ≠ n) :
    (g.modSplit n f).split? m = g.split? m := by
  refine modFirst_find?_other _ _ _ f ?_
  intro z hz
  have hz : z.num = n := by simpa using hz
  simp [hf z hz, hz, Ne.symm h]

end Sys2Proof.Machine
end

