-- ==== Sys2Proof/Laws/Word.lean ====
section
/-! SUPPORT. The driver of the instruction words: when a word completes, when it traps, and that a completed word leaves no trap waiting. -/
namespace Sys2Proof.Machine

/-! ## Splits and groups through a completed word -/

theorem Group.write_keeps (g : Group) (r : Reg) (m : Mask) (v : Val) :
    (g.write r m v).gid = g.gid ∧ (g.write r m v).live = g.live ∧ (g.write r m v).seq = g.seq ∧ (g.write r m v).flags = g.flags ∧
      (g.write r m v).ctx = g.ctx ∧ (g.write r m v).frec = g.frec ∧ (g.write r m v).handler = g.handler ∧ (g.write r m v).pendTrap = g.pendTrap ∧
      (g.write r m v).mseed = g.mseed ∧ (g.write r m v).heldTraps = g.heldTraps := by
  unfold Group.write
  split <;> simp

theorem Group.writes_keep (ws : List Wr) (g : Group) :
    let h := ws.foldl (fun (h : Group) w => h.write w.reg w.lanes w.val) g
    h.gid = g.gid ∧ h.live = g.live ∧ h.seq = g.seq ∧ h.flags = g.flags ∧ h.ctx = g.ctx ∧ h.frec = g.frec ∧ h.handler = g.handler ∧
      h.pendTrap = g.pendTrap ∧ h.mseed = g.mseed ∧ h.heldTraps = g.heldTraps := by
  induction ws generalizing g with
  | nil => simp
  | cons w t ih =>
    have h1 := ih (g.write w.reg w.lanes w.val)
    have h2 := Group.write_keeps g w.reg w.lanes w.val
    simp only [List.foldl_cons] at h1 ⊢
    simp only [h1, h2, and_self]

theorem Group.writeWord_keeps (g : Group) (n split : Nat) (pre : Option Pre) (t : TClass) (ws : List Wr) :
    (g.writeWord n split pre t ws).gid = g.gid ∧ (g.writeWord n split pre t ws).live = g.live ∧ (g.writeWord n split pre t ws).seq = g.seq ∧
      (g.writeWord n split pre t ws).flags = g.flags ∧ (g.writeWord n split pre t ws).ctx = g.ctx ∧ (g.writeWord n split pre t ws).frec = g.frec ∧
      (g.writeWord n split pre t ws).handler = g.handler ∧ (g.writeWord n split pre t ws).pendTrap = g.pendTrap ∧
      (g.writeWord n split pre t ws).heldTraps = g.heldTraps := by
  have h := Group.writes_keep ws g
  simp only [Group.writeWord]
  exact ⟨h.1, h.2.1, h.2.2.1, h.2.2.2.1, h.2.2.2.2.1, h.2.2.2.2.2.1, h.2.2.2.2.2.2.1, h.2.2.2.2.2.2.2.1, h.2.2.2.2.2.2.2.2.2⟩

/-- The group after a completed word. -/
theorem completeWith_group {s : State} {c : Ctx} (h : s.ctx = some c) (ws : List Wr) (fl : Byte) (t : TClass) (f : Split → Split) :
    (completeWith s c ws fl t f).group? c.r.core c.r.crew c.r.gid =
      some (({ c.g.writeWord s.free c.r.split c.pre t ws with flags := (c.g.writeWord s.free c.r.split c.pre t ws).flags ||| fl } : Group).modSplit c.r.split
        fun p => f { p with parked := none, oldSpec := none, barWait := none }) := by
  have hg := State.group?_of_ctx h
  show (s.modGroup c.r.core c.r.crew c.r.gid _).group? c.r.core c.r.crew c.r.gid = _
  rw [State.group?_modGroup, hg]
  · simp [Group.writeWord_keeps c.g s.free c.r.split c.pre t ws]
  · intro x hx
    simp [Group.modSplit, Group.writeWord_keeps x s.free c.r.split c.pre t ws, hx]

/-- Where no trap waits, and none is held that the group could take, none is taken. -/
theorem pendingTrap_none {s : State} {core crew gid : Nat} {g : Group} (h : s.group? core crew gid = some g) (hp : g.pendTrap = none)
    (hh : g.handler = none → g.heldTraps = []) : pendingTrap s core crew gid = s := by
  simp only [pendingTrap, h, hp]
  cases hl : g.heldTraps with
  | nil => simp
  | cons x l =>
    have hn : g.handler.isNone = false := by
      cases hg : g.handler with
      | none => simp [hh hg] at hl
      | some y => rfl
    simp [hn]

theorem pendingTrap_gone {s : State} {core crew gid : Nat} (h : s.group? core crew gid = none) : pendingTrap s core crew gid = s := by
  simp [pendingTrap, h]

/-- A completed word leaves no trap waiting. -/
theorem pendingTrap_completeWith {s : State} {c : Ctx} (h : Issues s c) (ws : List Wr) (fl : Byte) (t : TClass) (f : Split → Split) :
    pendingTrap (completeWith s c ws fl t f) c.r.core c.r.crew c.r.gid = completeWith s c ws fl t f := by
  refine pendingTrap_none (completeWith_group h.ctx ws fl t f) ?_ ?_
  · simp [Group.modSplit, Group.writeWord_keeps c.g s.free c.r.split c.pre t ws, h.noTrap]
  · simpa [Group.modSplit, Group.writeWord_keeps c.g s.free c.r.split c.pre t ws] using h.noHeld

theorem pendingTrap_complete {s : State} {c : Ctx} (h : Issues s c) (ws : List Wr) (fl : Byte) (t : TClass) :
    pendingTrap (complete s c ws fl t) c.r.core c.r.crew c.r.gid = complete s c ws fl t := pendingTrap_completeWith h ws fl t _

/-- A later update of the group that leaves its waiting trap alone. -/
theorem pendingTrap_modGroup {s : State} {c : Ctx} {g : Group} (hg : s.group? c.r.core c.r.crew c.r.gid = some g) (f : Group → Group) (hf : ∀ x, (f x).gid = x.gid) (hq : (f g).pendTrap = none)
    (hh : (f g).handler = none → (f g).heldTraps = []) : pendingTrap (s.modGroup c.r.core c.r.crew c.r.gid f) c.r.core c.r.crew c.r.gid = s.modGroup c.r.core c.r.crew c.r.gid f := by
  refine pendingTrap_none (g := f g) ?_ hq hh
  rw [State.group?_modGroup _ _ _ _ _ (fun x hx => by rw [hf, hx]), hg]
  rfl

theorem pendingTrap_commit {s : State} {c : Ctx} (h : Issues s c) (ws : List Wr) (t : TClass) :
    pendingTrap (commit s c ws t) c.r.core c.r.crew c.r.gid = commit s c ws t := by
  refine pendingTrap_modGroup (completeWith_group h.ctx ws 0 t _) _ (fun _ => rfl) ?_ ?_
  · simp [Group.modSplit, Group.writeWord_keeps c.g s.free c.r.split c.pre t ws, h.noTrap]
  · simpa [Group.modSplit, Group.writeWord_keeps c.g s.free c.r.split c.pre t ws] using h.noHeld

/-! ## The driver -/

/-- The row is not masked for the crew's partition (R255). -/
def capable (s : State) (c : Ctx) (k : RowKind) : Prop := ∀ b, k.cap = some b → (capOf s c.crew.part 2).getLsbD b = true

/-- Where the row is not masked, the gate asks the rest. -/
theorem gate_capable {s : State} {c : Ctx} {k : RowKind} {codes : List (Option Byte)} (hcap : capable s c k) :
    gate s c k codes = if k.closes && c.g.handler.isSome then some 0x0F
      else match lowest codes with
        | some e => some e
        | none => if c.g.handler.isNone && ((c.sp.closed && !k.closedOk) || c.sp.fused) then some 0x1B else none := by
  unfold gate
  cases hb : k.cap with
  | none => rfl
  | some b =>
    simp only [hcap b hb, Bool.not_true, Bool.false_eq_true, if_false] <;> rfl

theorem gate_none {s : State} {c : Ctx} {k : RowKind} {codes : List (Option Byte)} (h : MayRun s c) (hcap : capable s c k)
    (hk : k.closes = true → c.g.handler = none) (hl : lowest codes = none) : gate s c k codes = none := by
  rw [gate_capable hcap, hl]
  cases hh : c.g.handler with
  | none => simp [h.strand hh]
  | some x =>
    have : k.closes = false := by
      cases hkc : k.closes with
      | false => rfl
      | true => simp [hk hkc] at hh
    simp [this]

/-- A word that passes the gate comes to what its body says. -/
theorem runWord_body {s : State} {c : Ctx} {k : RowKind} {codes : Ctx → List (Option Byte)} {body : Ctx → Res} (h : MayRun s c) (hcap : capable s c k)
    (hk : k.closes = true → c.g.handler = none) (hl : lowest (codes c) = none) : runWord s k codes body = finish s c (body c) := by
  simp [runWord, h.ctx, gate_none h hcap hk hl]

/-- A word of a plain row that passes the gate. -/
theorem runWord_plain {s : State} {c : Ctx} {codes : Ctx → List (Option Byte)} {body : Ctx → Res} (h : MayRun s c) (hl : lowest (codes c) = none) :
    runWord s .plain codes body = finish s c (body c) :=
  runWord_body h (by intro b hb; cases hb) (by intro hb; cases hb) hl

/-- A commit that passes the gate. -/
theorem runWord_commit {s : State} {c : Ctx} {codes : Ctx → List (Option Byte)} {body : Ctx → Res} (h : MayCommit s c) (hl : lowest (codes c) = none) :
    runWord s .commit codes body = finish s c (body c) :=
  runWord_body h.toMayRun (by intro b hb; cases hb) (fun _ => h.noHandler) hl

/-- A word whose lowest operand code is e traps with it, wherever the codes before it do not apply (R181, R228). -/
theorem runWord_code {s : State} {c : Ctx} {k : RowKind} {codes : Ctx → List (Option Byte)} {body : Ctx → Res} {e : Byte} (h : s.ctx = some c)
    (hcap : capable s c k) (hk : k.closes = true → c.g.handler = none) (hl : lowest (codes c) = some e) :
    runWord s k codes body = .next (takeTrap s c.r.core c.r.crew c.r.gid c.r.split e 0 0) := by
  have hg : gate s c k (codes c) = some e := by
    rw [gate_capable hcap, hl]
    cases hkc : k.closes with
    | false => simp
    | true => simp [hk hkc]
  simp [runWord, h, hg, finish]

theorem finish_ok {s t : State} {c : Ctx} (h : pendingTrap t c.r.core c.r.crew c.r.gid = t) : finish s c (.ok t) = .next t := by
  simp [finish, h]

/-- A word that writes registers and raises no enabled flag completes (R188). -/
theorem finish_writes {s : State} {c : Ctx} (h : Issues s c) (ws : List Wr) (fl : Byte) (t : TClass) (hf : flagTrap c.ctxNow fl = none) :
    finish s c (finishWrites s c ws fl t) = .next (complete s c ws fl t) := by
  rw [finishWrites, hf]
  exact finish_ok (pendingTrap_complete h ws fl t)

/-- A word that raises no flag meets no flag trap. -/
@[simp] theorem flagTrap_zero (x : Dword) : flagTrap x 0#8 = none := by simp [flagTrap]

/-- A word that raises an enabled flag traps and has no effect (R188). -/
theorem finish_flagTrap {s : State} {c : Ctx} (ws : List Wr) (fl : Byte) (t : TClass) (e : Byte) (hf : flagTrap c.ctxNow fl = some e) :
    finish s c (finishWrites s c ws fl t) = .next (takeTrap s c.r.core c.r.crew c.r.gid c.r.split e 0 0) := by
  rw [finishWrites, hf]
  rfl

end Sys2Proof.Machine
end

