-- ==== Sys2Proof/Laws/Lane.lean ====
section
/-! SUPPORT. Lane-by-lane words complete with their results, or take the flag trap, when the split may run them and no operand code applies. -/
namespace Sys2Proof.Machine

/-- No flag raised is enabled exactly where the two have no common bit (R188). -/
theorem flagTrap_none {x : Dword} {fl : Byte} (h : fl &&& x.extractLsb' 48 8 = 0#8) : flagTrap x fl = none := by
  simp [flagTrap, fteOf, h]

/-- The lowest enabled flag raised gives its code (R188). -/
theorem flagTrap_some {x : Dword} {fl : Byte} {i : Nat} (hi : i < 8) (h : (fl &&& x.extractLsb' 48 8).getLsbD i = true)
    (hl : ∀ j < i, (fl &&& x.extractLsb' 48 8).getLsbD j = false) : flagTrap x fl = some (BitVec.ofNat 8 (0x30 + i)) := by
  have hr : List.range 8 = [0, 1, 2, 3, 4, 5, 6, 7] := by decide
  have hc : i = 0 ∨ i = 1 ∨ i = 2 ∨ i = 3 ∨ i = 4 ∨ i = 5 ∨ i = 6 ∨ i = 7 := by omega
  have hf : (List.range 8).find? (fun i => (fl &&& fteOf x).getLsbD i) = some i := by
    rw [hr]
    simp only [fteOf]
    generalize fl &&& x.extractLsb' 48 8 = v at h hl
    rcases hc with rfl | rfl | rfl | rfl | rfl | rfl | rfl | rfl
    · simp only [List.find?_cons, h]
    · simp only [List.find?_cons, hl 0 (by omega), h]
    · simp only [List.find?_cons, hl 0 (by omega), hl 1 (by omega), h]
    · simp only [List.find?_cons, hl 0 (by omega), hl 1 (by omega), hl 2 (by omega), h]
    · simp only [List.find?_cons, hl 0 (by omega), hl 1 (by omega), hl 2 (by omega), hl 3 (by omega), h]
    · simp only [List.find?_cons, hl 0 (by omega), hl 1 (by omega), hl 2 (by omega), hl 3 (by omega), hl 4 (by omega), h]
    · simp only [List.find?_cons, hl 0 (by omega), hl 1 (by omega), hl 2 (by omega), hl 3 (by omega), hl 4 (by omega), hl 5 (by omega), h]
    · simp only [List.find?_cons, hl 0 (by omega), hl 1 (by omega), hl 2 (by omega), hl 3 (by omega), hl 4 (by omega), hl 5 (by omega), hl 6 (by omega), h]
  simp only [flagTrap]
  rw [hf]
  rfl

theorem laneWord_next {f : MRWord} {two dirs sat : Bool} {t : TClass} {konst : BitVec 7 → Word} {op : Word → Word → Word × Byte} {s : State} {c : Ctx}
    (h : MayRun s c) (hl : lowest (mrCodes c f two dirs sat) = none)
    (hf : flagTrap c.ctxNow (laneFlags (actOf s c f.mask) fun l => (op (lane (vval s c konst 1 f.a) l) (lane (bLanes s c konst f.tail) l)).2) = none) :
    laneWord f two dirs sat t konst op s = .next (complete s c
      (wrLanes f.d (actOf s c f.mask) (ofLanes fun l => (op (lane (vval s c konst 1 f.a) l) (lane (bLanes s c konst f.tail) l)).1))
      (laneFlags (actOf s c f.mask) fun l => (op (lane (vval s c konst 1 f.a) l) (lane (bLanes s c konst f.tail) l)).2) (tailClass t f.tail)) := by
  rw [laneWord, runWord_plain h hl]
  exact finish_writes h.toIssues _ _ _ hf

theorem laneWord_flagTrap {f : MRWord} {two dirs sat : Bool} {t : TClass} {konst : BitVec 7 → Word} {op : Word → Word → Word × Byte} {s : State} {c : Ctx}
    {e : Byte} (h : MayRun s c) (hl : lowest (mrCodes c f two dirs sat) = none)
    (hf : flagTrap c.ctxNow (laneFlags (actOf s c f.mask) fun l => (op (lane (vval s c konst 1 f.a) l) (lane (bLanes s c konst f.tail) l)).2) = some e) :
    laneWord f two dirs sat t konst op s = .next (takeTrap s c.r.core c.r.crew c.r.gid c.r.split e 0 0) := by
  rw [laneWord, runWord_plain h hl]
  exact finish_flagTrap _ _ _ _ hf

end Sys2Proof.Machine
end

