-- ==== Sys2Proof/Laws/Scalar.lean ====
section
/-! SUPPORT. Each shared shape of scalar word completes with its result when the split may run it and no operand code applies. -/
namespace Sys2Proof.Machine

theorem scalar2_next {f : RWord} {t : TClass} {op : Dword → Dword → Dword} {s : State} {c : Ctx} (h : MayRun s c)
    (hl : lowest [dstS f.d, srcS f.a, srcS f.b] = none) :
    scalar2 f t op s = .next (complete s c (wrScalar f.d (op (sval s c 1 f.a) (sval s c 2 f.b))) 0 t) := by
  rw [scalar2, runWord_plain h hl]
  exact finish_writes h.toIssues _ 0 t (flagTrap_zero _)

theorem scalar3_next {f : RWord} {op : Dword → Dword → Dword → Dword} {s : State} {c : Ctx} (h : MayRun s c)
    (hl : lowest [dstS f.d, srcS f.a, srcS f.b, srcS f.c] = none) :
    scalar3 f op s = .next (complete s c (wrScalar f.d (op (sval s c 1 f.a) (sval s c 2 f.b) (sval s c 3 f.c))) 0 .t1) := by
  rw [scalar3, runWord_plain h hl]
  exact finish_writes h.toIssues _ 0 _ (flagTrap_zero _)

theorem scalar1_next {f : RWord} {op : Dword → Dword} {s : State} {c : Ctx} (h : MayRun s c) (hl : lowest [dstS f.d, srcS f.a] = none) :
    scalar1 f op s = .next (complete s c (wrScalar f.d (op (sval s c 1 f.a))) 0 .t1) := by
  rw [scalar1, runWord_plain h hl]
  exact finish_writes h.toIssues _ 0 _ (flagTrap_zero _)

theorem scalarCmp_next {f : RWord} {p : Dword → Dword → Bool} {s : State} {c : Ctx} (h : MayRun s c)
    (hl : lowest [dstS f.d, srcS f.a, srcS f.b] = none) :
    scalarCmp f p s = .next (complete s c (wrScalar f.d (if p (sval s c 1 f.a) (sval s c 2 f.b) then (match f.d with | .k _ => 0xFFFFFFFF | _ => 1) else 0)) 0 .t1) := by
  rw [scalarCmp, runWord_plain h hl]
  exact finish_writes h.toIssues _ 0 _ (flagTrap_zero _)

theorem scalarImm_next {f : IWord} {op : Dword → Word → Dword} {s : State} {c : Ctx} (h : MayRun s c) (hl : lowest [dstS f.d, srcS f.a] = none) :
    scalarImm f op s = .next (complete s c (wrScalar f.d (op (sval s c 1 f.a) f.imm)) 0 .t1) := by
  rw [scalarImm, runWord_plain h hl]
  exact finish_writes h.toIssues _ 0 _ (flagTrap_zero _)

end Sys2Proof.Machine
end

