-- ==== Sys2Proof/Laws/Traps.lean ====
section
/-! SUPPORT. What the shared operations on a waiting trap, a resuming group, a message and a launch's energy can do. -/
namespace Sys2Proof.Machine

/-- A trap that joins a group's takes the one place, is held behind it, or is dropped; nothing else of the group changes (log 74). -/
theorem Group.pend_cases (g : Group) (t : PendTrap) :
    g.pend t = { g with pendTrap := some t } ∨ (softTrap t.code = true ∧ g.pend t = { g with heldTraps := g.heldTraps ++ [t] }) ∨ g.pend t = g := by
  unfold Group.pend
  split
  · exact .inl rfl
  · repeat' split
    · exact .inr (.inr rfl)
    · exact .inl rfl
    · rename_i h; exact .inr (.inl ⟨h, rfl⟩)
    · exact .inr (.inr rfl)

/-- A group that a trap has joined has a trap to take. -/
@[simp] theorem Group.pend_isSome (g : Group) (t : PendTrap) : (g.pend t).pendTrap.isSome = true := by
  unfold Group.pend
  split
  · rfl
  · rename_i u h
    repeat' split
    all_goals simp [h]

/-- A cause that waits stays, whatever joins it. -/
theorem Group.pend_first (g : Group) (t u : PendTrap) (h : g.pendTrap = some u) (hr : u.code ≠ reRun) (hs : u.code ≠ stopSe) :
    (g.pend t).pendTrap = some u := by
  unfold Group.pend
  simp only [h]
  repeat' split
  all_goals simp_all

@[simp] theorem Group.pend_live (g : Group) (t : PendTrap) : (g.pend t).live = g.live := by
  rcases g.pend_cases t with h | ⟨_, h⟩ | h <;> rw [h]
@[simp] theorem Group.pend_gid (g : Group) (t : PendTrap) : (g.pend t).gid = g.gid := by
  rcases g.pend_cases t with h | ⟨_, h⟩ | h <;> rw [h]
@[simp] theorem Group.pend_splits (g : Group) (t : PendTrap) : (g.pend t).splits = g.splits := by
  rcases g.pend_cases t with h | ⟨_, h⟩ | h <;> rw [h]
@[simp] theorem Group.pend_outs (g : Group) (t : PendTrap) : (g.pend t).outs = g.outs := by
  rcases g.pend_cases t with h | ⟨_, h⟩ | h <;> rw [h]

/-- A group that runs again is not stopped, and keeps every register: only its stops, its wait, its TOKEN and its record change (R185). -/
theorem Group.wake_cases (g : Group) : ∃ w t r,
    g.wake = { g with stopped := false, migStop := false, fwait := w, openToken := t, frec := r } := by
  unfold Group.wake
  split
  · exact ⟨_, _, _, rfl⟩
  · exact ⟨_, _, _, rfl⟩
  · exact ⟨_, _, _, rfl⟩

@[simp] theorem Group.wake_stopped (g : Group) : g.wake.stopped = false := by obtain ⟨w, t, r, h⟩ := g.wake_cases; rw [h]
@[simp] theorem Group.wake_live (g : Group) : g.wake.live = g.live := by obtain ⟨w, t, r, h⟩ := g.wake_cases; rw [h]
@[simp] theorem Group.wake_s (g : Group) : g.wake.s = g.s := by obtain ⟨w, t, r, h⟩ := g.wake_cases; rw [h]
@[simp] theorem Group.wake_k (g : Group) : g.wake.k = g.k := by obtain ⟨w, t, r, h⟩ := g.wake_cases; rw [h]

/-- Sharing energy changes nothing of a launch but its energy (R62). -/
theorem shareUnits_energy (n p left : Nat) (l : List Launch) :
    (shareUnits n p left l).map (fun x => { x with energy := 0 }) = l.map fun x => { x with energy := 0 } := by
  induction l generalizing left with
  | nil => rfl
  | cons a t ih =>
    unfold shareUnits
    split <;> simp only [List.map_cons, ih]

end Sys2Proof.Machine
end

