-- ==== Sys2Proof/Tests/Slice0.lean ====
section
/-!
SUPPORT. Tests: words of the spec decode to what they stand for, ill-formed terms are refused, and for every statement a state and operands that meet its hypotheses.
-/
namespace Sys2Proof.Machine.Tests
open Sys2Proof Sys2Proof.Claim
set_option Elab.async false

/-! ## Words written out from the spec decode to what they stand for -/

/-- An R-format word (R214). -/
def rWord (maj : BitVec 6) (fn : BitVec 5) (d a b c : BitVec 10) (mod : BitVec 12) : Dword := maj ++ (0#1 ++ (fn ++ (d ++ (a ++ (b ++ (c ++ mod))))))
/-- An I-format word (R214). -/
def iWord (maj : BitVec 6) (fn : BitVec 5) (d a : BitVec 10) (imm : BitVec 32) : Dword := maj ++ (0#1 ++ (fn ++ (d ++ (a ++ imm))))
/-- An M-format word (R214). -/
def mWord (maj : BitVec 6) (scope : BitVec 3) (size : BitVec 2) (d base idx : BitVec 10) (scale ord : BitVec 2) (off : BitVec 18) : Dword :=
  maj ++ (0#1 ++ (scope ++ (size ++ (d ++ (base ++ (idx ++ (scale ++ (ord ++ off))))))))

/-- 13: the words of its encoding table. -/
theorem test_decode_addB64 : decode 0x080C0F01C0800000 = .instr (.addB64 ⟨false, .s 3, .s 1, .s 2, .m 0, 0⟩) := by decide +kernel
theorem test_decode_addiB64 : decode 0x0C0C0F01000003E8 = .instr (.addiB64 ⟨false, .s 3, .s 1, 1000⟩) := by decide +kernel
theorem test_decode_bk : decode 0x0430034200000005 = .instr (.bk ⟨false, .m 0, .k 2, 5⟩) := by decide +kernel
theorem test_decode_call : decode 0x045C500000000040 = .instr (.call ⟨false, .s 20, .m 0, 0x40⟩) := by decide +kernel
theorem test_decode_ret : decode 0x0460031400000000 = .instr (.ret ⟨false, .m 0, .s 20, 0⟩) := by decide +kernel
theorem test_decode_join : decode 0x0480000000000000 = .instr (.join ⟨false, .m 0, .m 0, 0⟩) := by decide +kernel
theorem test_decode_se : decode 0x1800000000000003 = .instr (.se ⟨false, .m 0, .m 0, 3⟩) := by decide +kernel
theorem test_decode_migr : decode 0x181C240000000000 = .instr (.migr ⟨false, .s 9, .m 0, 0⟩) := by decide +kernel
theorem test_decode_capq : decode 0x001C17C200000000 = .instr (.capq ⟨false, .s 5, .const 66, .m 0, .m 0, 0⟩) := by decide +kernel
/-- 0x04 FN 0: cmp.eq.b64 k1, s2, -64 (R237; the inline constant of value v is 0x3C0 + v). -/
theorem test_decode_cmpEqB64 : decode (rWord 0x04 0x00 0x341 0x302 0x380 0 0) = .instr (.cmpEqB64 ⟨false, .k 1, .s 2, .const 0, .m 0, 0⟩) := by decide +kernel
/-- 0x05 FN 0: rdfr s4, 7 (R248). -/
theorem test_decode_rdfr : decode (rWord 0x05 0x00 0x304 0x3C7 0 0 0) = .instr (.rdfr ⟨false, .s 4, .const 71, .m 0, .m 0, 0⟩) := by decide +kernel
/-- 17: trap 3, rte, and the words of its encoding table. -/
theorem test_decode_trap : decode 0x002003C300000000 = .instr (.trap ⟨false, .m 0, .const 67, .m 0, .m 0, 0⟩) := by decide +kernel
theorem test_decode_rte : decode 0x0030000000000000 = .instr (.rte ⟨false, .m 0, .m 0, .m 0, .m 0, 0⟩) := by decide +kernel
theorem test_decode_barArr : decode 0x800C13C2F0000000 = .instr (.barArr ⟨false, .s 4, .const 66, .const 64, .m 0, 0⟩) := by decide +kernel
theorem test_decode_barHold : decode 0x801003C1F0000000 = .instr (.barHold ⟨false, .m 0, .const 65, .const 64, .m 0, 0⟩) := by decide +kernel
theorem test_decode_wait : decode 0x802C2B0CC4000000 = .instr (.wait ⟨false, .s 10, .s 12, .s 16, .m 0, 0⟩) := by decide +kernel
theorem test_decode_pass : decode 0x8030000000000000 = .instr (.pass ⟨false, .m 0, .m 0, .m 0, .m 0, 0⟩) := by decide +kernel
theorem test_decode_cpost : decode 0x840C0F1400000000 = .instr (.cpost ⟨false, .s 3, .s 20, .m 0, .m 0, 0⟩) := by decide +kernel
theorem test_decode_cdrain : decode 0x8410000000100200 = .instr (.cdrain ⟨false, .m 0, .m 0, .m 0, .o 0, 512⟩) := by decide +kernel
theorem test_decode_spawn : decode 0x940C1B1400000000 = .instr (.spawn ⟨false, .s 6, .s 20, .m 0, .m 0, 0⟩) := by decide +kernel
theorem test_decode_cancel : decode 0x943C1F1500000000 = .instr (.cancel ⟨false, .s 7, .s 21, .m 0, .m 0, 0⟩) := by decide +kernel
theorem test_decode_retire : decode 0x9450000000000000 = .instr (.retire ⟨false, .m 0, .m 0, .m 0, .m 0, 0⟩) := by decide +kernel
/-- 0x07 FN 0: add.i32.sat v1, v2, v3 rotated by 1 in segments of 4 under k2 (R222, R224, R277). -/
theorem test_decode_addI32 : decode (rWord 0x07 0x00 0x001 0x002 0x003 0b0000001010 0b010100000001) =
    .instr (.addI32 ⟨false, .m 1, .m 2, .src .rne (.m 3) ⟨.rotate, 2, 1⟩, true, 2⟩) := by decide +kernel
/-- 0x08 FN 0: addi.i32 o1, LANE, -1 (R280). -/
theorem test_decode_addiI32 : decode (iWord 0x08 0x00 0x101 0x350 0xFFFFFFFF) = .instr (.addiI32 ⟨false, .o 1, .lane, 0xFFFFFFFF⟩) := by decide +kernel
/-- 0x09 FN 0: add.f32.rd x1, v2, TIME (R281). -/
theorem test_decode_addF32 : decode (rWord 0x09 0x00 0x201 0x002 0x35B 0b0100000000 0) =
    .instr (.addF32 ⟨false, .x 1, .m 2, .src .rd (.special .time) ⟨.none, 0, 0⟩, false, 0⟩) := by decide +kernel
/-- 15: fma.f32.rz of its example. -/
theorem test_decode_fmaF32 : decode 0x2880100540A01000 = .instr (.fmaF32 ⟨false, 1, .m 4, .m 5, .o 2, .x 1, ⟨.none, 0, 0⟩⟩) := by decide +kernel
/-- 0x0B FN 8: cmp.lt.f32 k3, v2, v4 (R284). -/
theorem test_decode_cmpLtF32 : decode (rWord 0x0B 0x08 0x343 0x002 0x004 0 0) =
    .instr (.cmpLtF32 ⟨false, .k 3, .m 2, .src .rne (.m 4) ⟨.none, 0, 0⟩, false, 0⟩) := by decide +kernel
/-- 15: compress.b32 v9, v8 ?k2 and cvt.bf16.f32.ef of its examples. -/
theorem test_decode_compressB32 : decode 0x3000240800002000 = .instr (.compressB32 ⟨false, .m 9, .m 8, .src .rne (.m 0) ⟨.none, 0, 0⟩, false, 2⟩) := by decide +kernel
theorem test_decode_cvtBf16F32 : decode 0x3830281407A0001F = .instr (.cvtBf16F32 ⟨1, ⟨false, .m 10, .m 20, .ef (.m 30) (.m 31), false, 0⟩⟩) := by decide +kernel
/-- 0x0D FN 0: red.add.i32 s5, v7 (R288). -/
theorem test_decode_redAddI32 : decode (rWord 0x0D 0x00 0x305 0x007 0 0 0) =
    .instr (.redAddI32 ⟨false, .s 5, .m 7, .src .rne (.m 0) ⟨.none, 0, 0⟩, false, 0⟩) := by decide +kernel
/-- 0x0F FN 0: rcp.f32 v1, v2 (R295). -/
theorem test_decode_rcpF32 : decode (rWord 0x0F 0x00 0x001 0x002 0 0 0) =
    .instr (.rcpF32 ⟨false, .m 1, .m 2, .src .rne (.m 0) ⟨.none, 0, 0⟩, false, 0⟩) := by decide +kernel
/-- The M-format majors (R258): OFF is signed, the inline constant 0 means no index. -/
theorem test_decode_lds : decode (mWord 0x10 0 2 0x001 0x302 0x3C0 0 0 0x3FFFC) = .instr (.lds ⟨false, .default, .b32, .m 1, .s 2, .const 64, 0, .plain, 0x3FFFC⟩) := by decide +kernel
theorem test_decode_sts : decode 0x4410270201500010 = .instr (.sts ⟨false, .default, .b16, .m 9, .s 2, .m 5, 1, .plain, 16⟩) := by decide +kernel
theorem test_decode_ldc : decode (mWord 0x12 3 0 0x001 0x302 0x003 0 1 0) = .instr (.ldc ⟨false, .cluster, .b8, .m 1, .s 2, .m 3, 0, .acq, 0⟩) := by decide +kernel
theorem test_decode_stc : decode (mWord 0x13 2 2 0x101 0x302 0x003 3 2 0) = .instr (.stc ⟨false, .crew, .b32, .o 1, .s 2, .m 3, 3, .rel, 0⟩) := by decide +kernel
theorem test_decode_ldd : decode (mWord 0x14 6 3 0x304 0x302 0x305 0 1 8) = .instr (.ldd ⟨false, .system, .b64, .s 4, .s 2, .s 5, 0, .acq, 8⟩) := by decide +kernel
theorem test_decode_std : decode (mWord 0x15 5 3 0x304 0x302 0x3C0 0 2 8) = .instr (.std ⟨false, .device, .b64, .s 4, .s 2, .const 64, 0, .rel, 8⟩) := by decide +kernel
theorem test_decode_ldp : decode (mWord 0x16 0 2 0x001 0x302 0x3C0 0 0 0) = .instr (.ldp ⟨false, .default, .b32, .m 1, .s 2, .const 64, 0, .plain, 0⟩) := by decide +kernel
theorem test_decode_stp : decode (mWord 0x17 0 2 0x001 0x302 0x3C0 0 0 0) = .instr (.stp ⟨false, .default, .b32, .m 1, .s 2, .const 64, 0, .plain, 0⟩) := by decide +kernel
theorem test_decode_ldh : decode (mWord 0x18 0 2 0x001 0x302 0x3C0 0 0 0) = .instr (.ldh ⟨false, .default, .b32, .m 1, .s 2, .const 64, 0, .plain, 0⟩) := by decide +kernel
theorem test_decode_sth : decode (mWord 0x19 0 2 0x001 0x302 0x3C0 0 0 0) = .instr (.sth ⟨false, .default, .b32, .m 1, .s 2, .const 64, 0, .plain, 0⟩) := by decide +kernel
theorem test_decode_ldk : decode (mWord 0x1A 0 2 0x001 0x302 0x3C0 0 0 0) = .instr (.ldk ⟨false, .default, .b32, .m 1, .s 2, .const 64, 0, .plain, 0⟩) := by decide +kernel
/-- The atomics: ORD, SCOPE, ASZ of R223 in MOD. -/
theorem test_decode_atsAdd : decode (rWord 0x1B 0x00 0x001 0x002 0x003 0 0b000000001000000) = .instr (.atsAdd ⟨false, .m 1, .m 2, .m 3, .m 0, .plain, .default, 2⟩) := by decide +kernel
theorem test_decode_atcExch : decode (rWord 0x1C 0x08 0x301 0x302 0x303 0 0b01_011_11_00000) = .instr (.atcExch ⟨false, .s 1, .s 2, .s 3, .m 0, .acq, .cluster, 3⟩) := by decide +kernel
theorem test_decode_atdCas : decode 0x749C1B08EFF0AEC0 = .instr (.atdCas ⟨false, .s 6, .s 8, .const 63, .s 10, .ar, .device, 2⟩) := by decide +kernel
theorem test_decode_atrHAdd : decode (rWord 0x1E 0x10 0x301 0x302 0x303 0 0b10_110_10_00000) = .instr (.atrHAdd ⟨false, .s 1, .s 2, .s 3, .m 0, .rel, .system, 2⟩) := by decide +kernel
/-- 14: the fences. -/
theorem test_decode_fenceRel : decode 0x7C00000000000A00 = .instr (.fenceRel ⟨false, .die⟩) := by decide +kernel
theorem test_decode_fenceTot : decode 0x7C10000000000E80 = .instr (.fenceTot ⟨false, .device⟩) := by decide +kernel
theorem test_decode_xfence : decode 0x7C200000000A0000 = .instr (.xfence ⟨false, .cp, .mx⟩) := by decide +kernel
theorem test_decode_fenceI : decode 0x7C30000000000000 = .instr (.fenceI false) := by decide +kernel
/-- 16: the words of its encoding table. -/
theorem test_decode_mldaT : decode 0x88508304C1400100 = .instr (.mldaT ⟨false, .default, .b16, .m 32, .s 4, .s 5, 0, .plain, 256⟩) := by decide +kernel
theorem test_decode_mma : decode 0x8C0D2420C1B07080 = .instr (.mma ⟨false, .acc 1, .m 32, .s 6, .s 7, 128⟩) := by decide +kernel
theorem test_decode_mdrain : decode 0x901C3349C2309108 = .instr (.mdrain ⟨false, .s 12, .acc 1, .s 8, .s 9, 0x108⟩) := by decide +kernel
/-- 0x26 FN 0: ctab s4 (R315). -/
theorem test_decode_ctab : decode (rWord 0x26 0x00 0 0x304 0 0 0) = .instr (.ctab ⟨false, .m 0, .s 4, .m 0, .m 0, 0⟩) := by decide +kernel
/-- A pair word: add.f32 v1, v2, v3 and mul.f32 o0, v4, s5 (R214, R227). -/
theorem test_decode_pairWord : decode (0b111#3 ++ (0#1 ++ ((0x10#6 ++ (0x01#8 ++ (0x02#8 ++ 0x03#8))) ++ (0x12#6 ++ (0x40#8 ++ (0x04#8 ++ 0xC5#8)))))) =
    .instr (.pairWord ⟨false, ⟨.addF32, .m 1, .m 2, .m 3⟩, ⟨.mulF32, .o 0, .m 4, .s 5⟩⟩) := by decide +kernel
theorem test_decode_nop : decode 0 = .instr (.nop ⟨false, .m 0, .m 0, .m 0, .m 0, 0⟩) := by decide +kernel

/-! ## Words and terms that are refused (R215, R228) -/

/-- A reserved major, an unassigned function, a field that must be zero, an illegal pair, an illegal order, an illegal path. -/
theorem test_refused_words : decode (rWord 0x27 0 0 0 0 0 0) = .err .reservedMajor ∧ decode (rWord 0x02 0x1F 0x301 0x302 0x303 0 0) = .err .unassignedFn ∧
    decode (rWord 0x02 0x00 0x301 0x302 0x303 0x304 0) = .err .reservedField ∧
    decode (0b111#3 ++ (0#1 ++ ((0x10#6 ++ (0x01#8 ++ (0x02#8 ++ 0x03#8))) ++ (0x02#6 ++ (0x40#8 ++ (0x04#8 ++ 0xC5#8)))))) = .err .illegalPair ∧
    decode (mWord 0x10 0 2 0x001 0x302 0x3C0 0 2 0) = .err .illegalOrder ∧ decode (rWord 0x1F 0x02 0 0 0 0b0010010000 0) = .err .illegalPath := by
  decide +kernel

/-- The checks of WellFormed each refuse a term: unused fields that are not zero, a pair of two classes, four M sources, two sources in one bank, two destinations
in one bank, orders and scopes that a load, a store, an atomic or a plain access may not have, the reserved scope, xfence with equal paths; an event is no word. -/
theorem test_refused_terms :
    ¬(Instr.addB64 ⟨false, .s 1, .s 2, .s 3, .s 4, 0⟩).WellFormed ∧ ¬(Instr.nop ⟨false, .m 0, .m 0, .m 0, .m 0, 1⟩).WellFormed ∧
    ¬(Instr.moviB64 ⟨false, .s 1, .s 2, 0⟩).WellFormed ∧ ¬(Instr.se ⟨false, .m 0, .m 0, 0x10000⟩).WellFormed ∧
    ¬(Instr.absF32 ⟨false, .m 1, .m 2, .src .rne (.m 3) ⟨.none, 0, 0⟩, false, 0⟩).WellFormed ∧
    ¬(Instr.pairWord ⟨false, ⟨.mov, .m 1, .m 2, .m 3⟩, ⟨.addI32, .o 0, .m 4, .s 5⟩⟩).WellFormed ∧
    ¬(Instr.pairWord ⟨false, ⟨.addF32, .m 1, .m 2, .m 3⟩, ⟨.addI32, .o 0, .m 4, .s 5⟩⟩).WellFormed ∧
    ¬(Instr.pairWord ⟨false, ⟨.addI32, .m 1, .m 2, .m 3⟩, ⟨.addI32, .o 0, .m 4, .m 5⟩⟩).WellFormed ∧
    ¬(Instr.pairWord ⟨false, ⟨.addI32, .m 1, .m 2, .m 6⟩, ⟨.addI32, .o 0, .m 4, .s 5⟩⟩).WellFormed ∧
    ¬(Instr.pairWord ⟨false, ⟨.addI32, .m 1, .m 2, .m 3⟩, ⟨.addI32, .m 5, .m 4, .s 5⟩⟩).WellFormed ∧
    ¬(Instr.lds ⟨false, .default, .b32, .m 1, .s 2, .const 64, 0, .rel, 0⟩).WellFormed ∧
    ¬(Instr.sts ⟨false, .default, .b32, .m 1, .s 2, .const 64, 0, .acq, 0⟩).WellFormed ∧
    ¬(Instr.lds ⟨false, .crew, .b32, .m 1, .s 2, .const 64, 0, .plain, 0⟩).WellFormed ∧
    ¬(Instr.ldd ⟨false, .reserved, .b32, .m 1, .s 2, .const 64, 0, .acq, 0⟩).WellFormed ∧
    ¬(Instr.atdAdd ⟨false, .s 1, .s 2, .s 3, .m 0, .plain, .device, 2⟩).WellFormed ∧
    ¬(Instr.mlda ⟨false, .default, .b8, .m 32, .s 4, .s 5, 1, .plain, 0⟩).WellFormed ∧ ¬(Instr.xfence ⟨false, .mx, .mx⟩).WellFormed ∧ ¬Instr.moduleReset.WellFormed := by
  unfold Instr.WellFormed
  decide +kernel

/-! ## States for the witnesses -/

/-- The standard crew's one split executes on core 0. -/
def w0 : State := State.reset.selectOne.popSlot ⟨⟨0, 0, 0, 0⟩, false, none⟩ []
def c0 : Ctx := w0.ctx.get (by decide +kernel)
/-- The context of a state, where a split executes. -/
def ctxOf (s : State) : Ctx := match s.ctx with | some c => c | none => c0
/-- The same with the executing split, group, crew or core changed. -/
def inSplit (f : Split → Split) : State := w0.modSplit ⟨0, 0, 0, 0⟩ f
def inGroup (f : Group → Group) : State := w0.modGroup 0 0 0 f
def inCrew (f : Crew → Crew) : State := w0.modCrew 0 0 f
/-- The first 288 bytes of the scratchpad written with zeros. -/
@[irreducible] def zeroed (s : State) : State := s.modCrew 0 0 fun w => { w with spad := (List.range 288).map fun i => (i, 0) }
def inCore (f : Core → Core) : State := w0.modCore 0 f
/-- The same with s registers given. -/
def withS (l : List (Nat × Dword)) : State := inGroup fun g => { g with s := Vector.ofFn fun i => ((l.find? fun e => e.1 == i.val).map (·.2)).getD 0 }

def lives (s : State) : Bool := match s.ctx with | some c => c.g.pendTrap.isNone && c.g.heldTraps.isEmpty | none => false
def strandOk (s : State) : Bool := (ctxOf s).g.handler.isSome || (!(ctxOf s).sp.closed && !(ctxOf s).sp.fused)

theorem issues {s : State} (h : lives s = true) : Issues s (ctxOf s) := by
  unfold lives at h
  unfold ctxOf
  cases hc : s.ctx with
  | none => simp [hc] at h
  | some c =>
    simp only [hc, Bool.and_eq_true, List.isEmpty_iff] at h
    exact ⟨hc, by simpa using h.1, fun _ => h.2⟩

theorem may_run {s : State} (h : (lives s && strandOk s) = true) : MayRun s (ctxOf s) := by
  simp only [Bool.and_eq_true] at h
  refine ⟨issues h.1, fun hn => ?_⟩
  simpa [strandOk, hn] using h.2

theorem may_commit {s : State} (h : (lives s && strandOk s && (ctxOf s).g.handler.isNone) = true) : MayCommit s (ctxOf s) := by
  simp only [Bool.and_eq_true] at h
  exact ⟨may_run (by simp [h.1.1, h.1.2]), by simpa using h.2⟩

theorem may_branch {s : State} (h : (lives s && !(ctxOf s).sp.fused) = true) : MayBranch s (ctxOf s) := by
  simp only [Bool.and_eq_true, Bool.not_eq_true'] at h
  exact ⟨issues h.1, fun _ => h.2⟩

theorem spared_of {s : State} (h : groupDoomed s (ctxOf s).r.core (ctxOf s).crew (ctxOf s).g = false) : spared s (ctxOf s) := h

/-! ## Witnesses: scalar words -/

def rOp (d a b c : Operand) (mod : BitVec 12 := 0) : RWord := ⟨false, d, a, b, c, mod⟩

theorem witness_ScalarTwoSourceResults : ∃ (f : RWord) (s : State) (c : Ctx), MayRun s c ∧ scalarDst f.d = true ∧ scalarSrc f.a = true ∧ scalarSrc f.b = true :=
  ⟨rOp (.k 1) (.s 63) (.special .time) (.m 0), w0, ctxOf w0, may_run (by decide +kernel), rfl, rfl, rfl⟩

/-- The largest sum in range, and the least out of range with FTE bit 7 clear and set. -/
theorem witness_ScalarFlaggingResults : ∃ (f : RWord) (s t u : State), MayRun s (ctxOf s) ∧ MayRun t (ctxOf t) ∧ MayRun u (ctxOf u) ∧ scalarDst f.d = true ∧
    scalarSrc f.a = true ∧ scalarSrc f.b = true ∧ (Instr.addoI64, true, fun a b => a + b) ∈ flaggingRows ∧
    formRange true (formVal true (sval s (ctxOf s) 1 f.a) + formVal true (sval s (ctxOf s) 2 f.b)) ∧
    (¬formRange true (formVal true (sval t (ctxOf t) 1 f.a) + formVal true (sval t (ctxOf t) 2 f.b)) ∧ (ctxOf t).ctxNow.getLsbD 55 = false) ∧
    ¬formRange true (formVal true (sval u (ctxOf u) 1 f.a) + formVal true (sval u (ctxOf u) 2 f.b)) ∧ (ctxOf u).ctxNow.getLsbD 55 = true := by
  refine ⟨rOp (.s 1) (.s 2) (.s 3) (.m 0), withS [(2, 0x7FFFFFFFFFFFFFFF)], withS [(2, 0x7FFFFFFFFFFFFFFF), (3, 1)],
    (withS [(2, 0x7FFFFFFFFFFFFFFF), (3, 1)]).modGroup 0 0 0 fun g => { g with ctx := 0x0080000000000000 },
    may_run (by decide +kernel), may_run (by decide +kernel), may_run (by decide +kernel), rfl, rfl, rfl, List.mem_cons_self, ?_, ?_, ?_⟩ <;>
    (unfold formRange; decide +kernel)

/-- The widest field and one bit more. -/
theorem witness_ScalarThreeSourceResults : ∃ (f : RWord) (s t : State), MayRun s (ctxOf s) ∧ MayRun t (ctxOf t) ∧ scalarDst f.d = true ∧ scalarSrc f.a = true ∧
    scalarSrc f.b = true ∧ scalarSrc f.c = true ∧ fieldGood (sval s (ctxOf s) 3 f.c) ∧ ¬fieldGood (sval t (ctxOf t) 3 f.c) := by
  refine ⟨rOp (.s 1) (.s 2) (.s 3) (.s 4), withS [(4, 0x4000)], withS [(4, 0x4001)], may_run (by decide +kernel), may_run (by decide +kernel), rfl, rfl, rfl, rfl, ?_, ?_⟩ <;>
    (unfold fieldGood; decide +kernel)

theorem witness_ScalarUnaryCompareImmediate : ∃ (f : RWord) (g : IWord) (s t : State), MayRun s (ctxOf s) ∧ MayRun t (ctxOf t) ∧ scalarDst f.d = true ∧ scalarSrc f.a = true ∧
    scalarSrc f.b = true ∧ scalarSrc f.c = true ∧ fieldGood (sval s (ctxOf s) 3 f.c) ∧ ¬fieldGood (sval t (ctxOf t) 3 f.c) ∧ scalarDst g.d = true ∧ scalarSrc g.a = true := by
  refine ⟨rOp (.s 1) (.s 2) (.const 127) (.s 4), ⟨false, .k 7, .s 1, 0x80000000⟩, withS [(4, 0x13F)], withS [(4, 0x23F)], may_run (by decide +kernel),
    may_run (by decide +kernel), rfl, rfl, rfl, rfl, ?_, ?_, rfl, rfl⟩ <;> (unfold fieldGood; decide +kernel)

theorem witness_ScalarOperandCauses : w0.ctx = some (ctxOf w0) ∧ scalarSrc (.const 0) = true ∧ scalarDst (.s 0) = true := by decide +kernel

/-- Every clause of the reads, and wrsr of CTX with and without a reserved bit. -/
theorem witness_SpecialReadsAndWrites : ∃ (f : RWord) (n : Nat) (g h : RWord) (s t : State), MayRun s (ctxOf s) ∧ MayRun t (ctxOf t) ∧ (∃ i, f.d = .s i) ∧ scalarSrc f.a = true ∧
    smallConst f.a n ∧ n = 7 ∧ g.d = .special .flags ∧ scalarSrc g.a = true ∧ h.d = .special .ctx ∧ scalarSrc h.a = true ∧
    ((sval s (ctxOf s) 1 h.a).extractLsb' 56 4 = 0 ∧ (sval s (ctxOf s) 1 h.a).extractLsb' 32 16 = 0) ∧ (sval t (ctxOf t) 1 h.a).extractLsb' 56 4 ≠ 0 := by
  refine ⟨rOp (.s 1) (.const 71) (.m 0) (.m 0), 7, rOp (.special .flags) (.s 1) (.m 0) (.m 0), rOp (.special .ctx) (.s 1) (.m 0) (.m 0), withS [(1, 0xF0FF0000FFFFFFFF)],
    withS [(1, 0x0800000000000000)], may_run (by decide +kernel), may_run (by decide +kernel), ⟨_, rfl⟩, rfl, ⟨by decide, by decide⟩, rfl, rfl, rfl, rfl, rfl, ?_, ?_⟩ <;>
    decide +kernel

/-! ## Witnesses: control and strand words -/

/-- The last target in range, and the first below and above it; ret to the last offset and beyond it. -/
theorem witness_UniformBranches : ∃ (s : State) (f : IWord) (t : Pcoff), MayBranch s (ctxOf s) ∧ MayRun s (ctxOf s) ∧ targetIs (ctxOf s).sp.pc f.imm t ∧ f.d = .s 20 ∧
    scalarSrc f.a = true ∧ (sval s (ctxOf s) 1 f.a).toNat < 2 ^ 32 := by
  refine ⟨(withS [(1, 0xFFFFFFFF)]).modSplit ⟨0, 0, 0, 0⟩ fun p => { p with pc := 0x80000000 }, ⟨false, .s 20, .s 1, 0x7FFFFFFF⟩, 0xFFFFFFFF, may_branch (by decide +kernel),
    may_run (by decide +kernel), ?_, rfl, rfl, by decide +kernel⟩
  unfold targetIs; decide +kernel

theorem witness_BranchTargetChecked : ∃ (s t u : State) (f : IWord), MayRun s (ctxOf s) ∧ MayRun t (ctxOf t) ∧ MayRun u (ctxOf u) ∧ targetBad (ctxOf s).sp.pc f.imm ∧
    targetBad (ctxOf t).sp.pc (1 : Word) ∧ f.d = .s 20 ∧ scalarSrc f.a = true ∧ 2 ^ 32 ≤ (sval u (ctxOf u) 1 f.a).toNat := by
  refine ⟨w0, inSplit fun p => { p with pc := 0xFFFFFFFF }, withS [(1, 0x100000000)], ⟨false, .s 20, .s 1, 0xFFFFFFFF⟩, may_run (by decide +kernel), may_run (by decide +kernel),
    may_run (by decide +kernel), ?_, ?_, rfl, rfl, by decide +kernel⟩ <;> (unfold targetBad; decide +kernel)

/-- k1 with these lanes. -/
def withK (m : Word) : State := inGroup fun g => { g with k := vmod g.k 1 fun _ => m }
/-- Four splits, the first executing. -/
def fourSplits (m : Word) : State := (withK m).modGroup 0 0 0 fun g => { g with splits := g.splits.flatMap fun p => [p, { p with num := 1 }, { p with num := 2 }, { p with num := 3 }] }
def someEntry (k : EntryKind) : Entry := ⟨k, BitVec.allOnes 32, 0, 0, 0, 0, false, false, [], [], [], [], []⟩
def fullStack (s : State) (k : EntryKind) (n : Nat) : State := s.modGroup 0 0 0 fun g => { g with stack := List.replicate n (someEntry k) }

/-- Taken by all, by none, by some: with a free split number, with four splits and room on the stack, and with the stack full. -/
theorem witness_SplitBranchDivides : ∃ (f : IWord) (t : Pcoff), f.a = .k 1 ∧
    (∀ s ∈ [withK 0xFFFFFFFF, withK 0, withK 1, fullStack (fourSplits 1) .mark 15, fullStack (fourSplits 1) .mark 16],
      (lives s && strandOk s) = true ∧ (ctxOf s).sp.pc.toNat + f.imm.toInt = t.toNat) ∧ t.toNat < 2 ^ 32 ∧
    (∀ p ∈ (ctxOf (withK 1)).g.splits, p.num ≠ 1) ∧ (∀ n < 4, ∃ p ∈ (ctxOf (fourSplits 1)).g.splits, p.num = n) ∧
    (ctxOf (fullStack (fourSplits 1) .mark 15)).g.stack.length < 16 ∧ 16 ≤ (ctxOf (fullStack (fourSplits 1) .mark 16)).g.stack.length := by
  refine ⟨⟨false, .m 0, .k 1, 5⟩, 5, rfl, ?_, ?_, ?_, ?_, ?_, ?_⟩ <;> decide +kernel

/-- A join stack with one MARK of every lane, of which the split holds some. -/
def marked (arr mask : Word) : State :=
  (inSplit fun p => { p with mask := mask }).modGroup 0 0 0 fun g => { g with stack := [{ someEntry .mark with arr := arr }] }

/-- mark with room, at the last place, and without; join of the last lanes, of some lanes, and of lanes that no MARK holds. -/
theorem witness_MarkAndJoin : ∃ (f : IWord) (t : Pcoff), targetIs (ctxOf w0).sp.pc f.imm t ∧
    (∀ s ∈ [w0, fullStack w0 .park 15, fullStack w0 .park 16, marked 0xFFFF0000 0xFFFF, marked 0 1], (lives s && strandOk s && (ctxOf s).g.handler.isNone) = true) ∧
    (ctxOf (fullStack w0 .park 15)).g.stack.length < 16 ∧ 16 ≤ (ctxOf (fullStack w0 .park 16)).g.stack.length ∧ targetBad (ctxOf w0).sp.pc (-1 : Word) ∧
    (∀ s ∈ [marked 0xFFFF0000 0xFFFF, marked 0 1], ∃ e, (ctxOf s).g.stack = [e] ∧ e.kind = .mark ∧ e.pcoff = (ctxOf s).sp.pc ∧ (ctxOf s).sp.mask &&& e.mask = (ctxOf s).sp.mask ∧
      (ctxOf s).sp.mask ≠ 0) ∧
    (∃ e, (ctxOf (marked 0xFFFF0000 0xFFFF)).g.stack = [e] ∧ e.arr ||| (ctxOf (marked 0xFFFF0000 0xFFFF)).sp.mask = e.mask ∧
      (ctxOf (marked 0xFFFF0000 0xFFFF)).g.splits = [(ctxOf (marked 0xFFFF0000 0xFFFF)).sp]) ∧
    (∃ e, (ctxOf (marked 0 1)).g.stack = [e] ∧ e.arr ||| (ctxOf (marked 0 1)).sp.mask ≠ e.mask) ∧
    (∀ e ∈ (ctxOf w0).g.stack, e.kind = .mark → e.mask &&& (ctxOf w0).sp.mask = 0) := by
  refine ⟨⟨false, .m 0, .m 0, 0⟩, 0, by unfold targetIs; decide +kernel, by decide +kernel, by decide +kernel, by decide +kernel, by unfold targetBad; decide +kernel, ?_, ?_, ?_,
    by decide +kernel⟩
  · intro s hs
    simp only [List.mem_cons, List.not_mem_nil, or_false] at hs
    rcases hs with rfl | rfl
    · exact ⟨{ someEntry .mark with arr := 0xFFFF0000 }, by decide +kernel⟩
    · exact ⟨{ someEntry .mark with arr := 0 }, by decide +kernel⟩
  · exact ⟨{ someEntry .mark with arr := 0xFFFF0000 }, by decide +kernel⟩
  · exact ⟨{ someEntry .mark with arr := 0 }, by decide +kernel⟩

/-- Two splits, and the last one. -/
theorem witness_ExitEndsLanes : ∃ (s : State) (q : Split), MayBranch s (ctxOf s) ∧ (ctxOf s).g.handler = none ∧ (ctxOf s).g.splits = [(ctxOf s).sp, q] ∧ q.num ≠ (ctxOf s).sp.num ∧
    (ctxOf s).g.stack = [] ∧ MayBranch w0 (ctxOf w0) ∧ (ctxOf w0).g.splits = [(ctxOf w0).sp] ∧ (ctxOf w0).crew.killed = false := by
  refine ⟨inGroup fun g => { g with splits := g.splits.flatMap fun p => [p, { p with num := 3 }] }, { (ctxOf w0).sp with num := 3 }, may_branch (by decide +kernel), ?_, ?_, ?_, ?_,
    may_branch (by decide +kernel), ?_, ?_⟩ <;> decide +kernel

/-- The first MiB of the device space of PASID 0 lies in frame 0, which partition 0 owns: the address-space entry is valid, and core 0 and the dispatcher hold a translation. -/
def mapIn (s : State) : State :=
  let e : Tlb := ⟨0, 0, 0, 2 ^ 20, 0, true, true, 0⟩
  { ((s.modCluster 0 fun k => { k with tlb := [e] }).modCluster 104 fun k => { k with tlb := [e] }).modFn 0 fun x => { x with astb := 0x8000000000000000 } with
    fown := [(0, 0x40)]
    mem := [(0, 1), (2, 1)] }

/-- A mapping with one equivalence point, number 0 at offset 0, whose survivors are none. -/
def withMapping (s : State) : State :=
  { mapIn (s.modCrew 0 0 fun w => { w with code := { w.code with smtab := 0x1000, nep := 1 } }) with mem := [(0, 1), (2, 1), (0x1004, 1)] }

/-- se at its point, at another offset, with a number that is none, and in handler mode. -/
theorem witness_StrandEntry : ∃ (f g : IWord) (e : EqPoint) (s t u : State), (∀ x ∈ [s, t, u], (lives x && !(ctxOf x).g.doomed && !(ctxOf x).g.migStop &&
      !x.cancelledOn (ctxOf x).crew.part (dieOf (ctxOf x).r.core) 15 (ctxOf x).crew.task.scopeId) = true) ∧
    eqPoint? s (ctxOf s).crew.part (ctxOf s).crew.pasid.toNat (ctxOf s).crew.code (ctxOf s).crew.task.regs (f.imm.setWidth 16 : BitVec 16).toNat = some e ∧
    (ctxOf s).g.handler = none ∧ e.off = (ctxOf s).sp.pc.toNat ∧
    eqPoint? t (ctxOf t).crew.part (ctxOf t).crew.pasid.toNat (ctxOf t).crew.code (ctxOf t).crew.task.regs (f.imm.setWidth 16 : BitVec 16).toNat = some e ∧
    (ctxOf t).g.handler = none ∧ e.off ≠ (ctxOf t).sp.pc.toNat ∧
    eqPoint? s (ctxOf s).crew.part (ctxOf s).crew.pasid.toNat (ctxOf s).crew.code (ctxOf s).crew.task.regs (g.imm.setWidth 16 : BitVec 16).toNat = none ∧
    (ctxOf u).g.handler ≠ none := by
  refine ⟨⟨false, .m 0, .m 0, 0⟩, ⟨false, .m 0, .m 0, 1⟩, ⟨0, []⟩, withMapping w0, withMapping (inSplit fun p => { p with pc := 1 }),
    inGroup fun g => { g with handler := some (0, 0) }, ?_, ?_, ?_, ?_, ?_, ?_, ?_, ?_, ?_⟩ <;> decide +kernel

theorem witness_MigrationRequest : ∃ f : IWord, MayCommit w0 (ctxOf w0) ∧ f.d = .s 9 ∧ ((w0.part (ctxOf w0).crew.part).capmask.getD 2 (BitVec.allOnes 64)).getLsbD 3 = true :=
  ⟨⟨false, .s 9, .m 0, 0⟩, may_commit (by decide +kernel), rfl, by decide +kernel⟩

/-- A group in handler mode: the split runs the handler, closed, and resumes at offset 7. -/
def inHandler : State :=
  (inSplit fun p => { p with hnd := true, closed := true, pc := 0x40 }).modGroup 0 0 0 fun g => { g with handler := some (0, 7), ctx := 0x9000000000000040 }

/-- trap n with a handler for class 00; rte in and out of handler mode. -/
theorem witness_SoftwareTrapAndReturn : ∃ (f : RWord) (s : State), MayCommit s (ctxOf s) ∧ spared s (ctxOf s) ∧ smallConst f.a 7 ∧
    mayInterrupt s (ctxOf s).r.core (ctxOf s).r.crew (ctxOf s).r.gid (ctxOf s).g = true ∧ (((ctxOf s).sp.oldSpec.map (·.2)).getD (ctxOf s).g.ctx).getLsbD 63 = true ∧
    (((ctxOf s).sp.oldSpec.map (·.2)).getD (ctxOf s).g.ctx).getLsbD 60 = true ∧
    Issues w0 (ctxOf w0) ∧ (ctxOf w0).g.handler = none ∧ (ctxOf w0).sp.closed = false ∧ (ctxOf w0).sp.fused = false ∧ Issues inHandler (ctxOf inHandler) ∧
    (ctxOf inHandler).g.handler = some (0, 7) ∧ (ctxOf inHandler).g.outs = [] ∧ (ctxOf inHandler).g.heldTraps = [] ∧
    ∃ p ∈ (ctxOf inHandler).g.splits, p.hnd = true ∧ p.closed = true ∧ p.barWait = none := by
  refine ⟨rOp (.m 0) (.const 71) (.m 0) (.m 0), inGroup fun g => { g with ctx := 0x9000000000000040 }, may_commit (by decide +kernel), spared_of (by decide +kernel), ⟨by decide, rfl⟩,
    ?_, ?_, ?_, issues (by decide +kernel), ?_, ?_, ?_, issues (by decide +kernel), ?_, ?_, ?_, ?_⟩ <;> decide +kernel

/-! ## Witnesses: vector words -/

def vOp (d a : Operand) (t : VTail) (sat : Bool := false) (mask : BitVec 3 := 0) : MRWord := ⟨false, d, a, t, sat, mask⟩
/-- The same with FTE given. -/
def withFte (e : Nat) (s : State) : State := s.modGroup 0 0 0 fun g => { g with ctx := BitVec.ofNat 64 (e * 2 ^ 48) }
/-- v1 with the same word in every lane. -/
def withV (v : Word) : State := inGroup fun g => { g with m := [(1, Vector.replicate 32 v)] }
/-- A modifier at the edge of its range: rotate by 31 in one segment of 32. -/
def edgeMod : SrcMod := ⟨.rotate, 5, 31⟩

theorem edgeMod_good : modGood edgeMod (.m 1) := .inr ⟨by decide, by decide, by decide, by decide, .inl ⟨1, rfl⟩⟩
theorem noMod_good (b : Operand) : modGood ⟨.none, 0, 0⟩ b := .inl ⟨rfl, rfl, rfl⟩

/-- The hypotheses of a row that reads B: the highest M register, an edge modifier, and a sum that overflows with the flag quiet and trapped. -/
theorem witness_IntegerLaneResults : ∃ (row : LaneRow) (f : MRWord) (s t : State) (b : Operand) (m : SrcMod), row ∈ integerRows ∧ MayRun s (ctxOf s) ∧ MayRun t (ctxOf t) ∧
    onCore (ctxOf s) f.d = true ∧ laneSrc (ctxOf s) f.a = true ∧ f.tail = .src .rne b m ∧ rndGood row.dirs .rne ∧ laneSrc (ctxOf s) b = true ∧ modGood m b ∧ row.two = true ∧ f.sat = false ∧
    (let fl := fun s => flagsOf (activeLanes s (ctxOf s) f.mask) fun l =>
        (row.op f.sat .rne (lane (vval s (ctxOf s) row.konst 1 f.a) l) (lane (modified m (vval s (ctxOf s) row.konst 2 b)) l)).2
     quietly (ctxOf s) (fl s) ∧ fl s = 0x80 ∧ flagTraps (ctxOf t) (fl t) 7) := by
  refine ⟨⟨.addI32, true, false, true, .t1, const32, exactRow 32 true fun a b => a + b⟩, vOp (.m 255) (.m 1) (.src .rne (.m 1) edgeMod), withV 0x7FFFFFFF, withFte 0x80 (withV 0x7FFFFFFF),
    .m 1, edgeMod, List.mem_cons_self, may_run (by decide +kernel), may_run (by decide +kernel), by decide +kernel, by decide +kernel, rfl, .inl rfl, by decide +kernel,
    edgeMod_good, rfl, rfl, ?_⟩
  unfold quietly flagTraps
  decide +kernel

/-- A one-source row of 09, and a whole-lane conversion, under a directed rounding; infinite less infinite raises Invalid. -/
theorem witness_FloatAndConversionLaneResults : ∃ (f g : MRWord) (s t : State), MayRun s (ctxOf s) ∧ MayRun t (ctxOf t) ∧ onCore (ctxOf s) f.d = true ∧ laneSrc (ctxOf s) f.a = true ∧
    f.tail = .src .rd (.m 1) ⟨.none, 0, 0⟩ ∧ rndGood true .rd ∧ laneSrc (ctxOf s) (.m 1) = true ∧ f.sat = false ∧ g.tail = .src .ru (.m 0) ⟨.none, 0, 0⟩ ∧
    (let fl := fun s => flagsOf (activeLanes s (ctxOf s) f.mask) fun l =>
        (floatRow .f32 (fun r a b => sumRes .f32 r [FloatFmt.f32.val a, (FloatFmt.f32.val b).flip] false) false .rdn (lane (vval s (ctxOf s) (constF .f32) 1 f.a) l)
          (lane (vval s (ctxOf s) (constF .f32) 2 (.m 1)) l)).2
     quietly (ctxOf s) (fl s) ∧ fl s = 1 ∧ flagTraps (ctxOf t) (fl t) 0) := by
  refine ⟨vOp (.o 7) (.m 1) (.src .rd (.m 1) ⟨.none, 0, 0⟩), vOp (.x 1) (.m 1) (.src .ru (.m 0) ⟨.none, 0, 0⟩), withV 0x7F800000, withFte 1 (withV 0x7F800000), may_run (by decide +kernel),
    may_run (by decide +kernel), by decide +kernel, by decide +kernel, rfl, .inr ⟨rfl, .inr (.inl rfl)⟩, by decide +kernel, rfl, rfl, ?_⟩
  unfold quietly flagTraps
  decide +kernel

theorem witness_FusedMultiplyAddResults : ∃ (f : FmaWord) (s t : State), MayRun s (ctxOf s) ∧ MayRun t (ctxOf t) ∧ onCore (ctxOf s) f.d = true ∧ laneSrc (ctxOf s) f.a = true ∧
    laneSrc (ctxOf s) f.b = true ∧ laneSrc (ctxOf s) f.c = true ∧ modGood f.mod f.b ∧
    (let fl := fun s => flagsOf (ctxOf s).sp.mask fun l => (onElems3 32 (fun x y z =>
        let r := fmaRes .f32 (fmaRounding f.rnd) (FloatFmt.f32.val x) (FloatFmt.f32.val y) (FloatFmt.f32.val z)
        (r.bits, r.flags)) (lane (vval s (ctxOf s) (constF .f32) 1 f.a) l) (lane (modified f.mod (vval s (ctxOf s) (constF .f32) 2 f.b)) l)
          (lane (vval s (ctxOf s) (constF .f32) 3 f.c) l)).2
     quietly (ctxOf s) (fl s) ∧ fl s = 1 ∧ flagTraps (ctxOf t) (fl t) 0) := by
  refine ⟨⟨false, 3, .x 0, .m 1, .m 1, .s 2, edgeMod⟩, (withV 0x7F800000).modGroup 0 0 0 fun g => { g with s := vmod g.s 2 fun _ => 0xFF800000 },
    withFte 1 ((withV 0x7F800000).modGroup 0 0 0 fun g => { g with s := vmod g.s 2 fun _ => 0xFF800000 }), may_run (by decide +kernel), may_run (by decide +kernel), by decide +kernel,
    by decide +kernel, by decide +kernel, by decide +kernel, edgeMod_good, ?_⟩
  unfold quietly flagTraps
  decide +kernel

theorem witness_LaneCompareResults : ∃ (f g h : MRWord), MayRun w0 (ctxOf w0) ∧ (∀ x ∈ [f, g, h], laneSrc (ctxOf w0) x.a = true ∧ x.tail = .src .rne (.m 1) edgeMod ∧ x.sat = false) ∧
    laneSrc (ctxOf w0) (.m 1) = true ∧ modGood edgeMod (.m 1) ∧ onCore (ctxOf w0) f.d = true ∧ g.d = .k 7 ∧ h.d = .k 0 := by
  refine ⟨vOp (.m 0) .lane (.src .rne (.m 1) edgeMod), vOp (.k 7) .lane (.src .rne (.m 1) edgeMod), vOp (.k 0) .lane (.src .rne (.m 1) edgeMod), may_run (by decide +kernel), ?_, ?_,
    edgeMod_good, ?_, rfl, rfl⟩ <;> decide +kernel

/-- The highest shift, and mask logic with and without B. -/
theorem witness_LaneImmediatesAndMaskLogic : ∃ (f : IWord) (g h : MRWord), MayRun w0 (ctxOf w0) ∧ onCore (ctxOf w0) f.d = true ∧ laneSrc (ctxOf w0) f.a = true ∧ f.imm.toNat = 31 ∧ g.d = .k 1 ∧
    g.a = .k 0 ∧ g.sat = false ∧ g.mask = 0 ∧ g.tail = .src .rne (.k 7) ⟨.none, 0, 0⟩ ∧ h.tail = .src .rne (.m 0) ⟨.none, 0, 0⟩ := by
  refine ⟨⟨false, .m 255, .m 255, 31⟩, vOp (.k 1) (.k 0) (.src .rne (.k 7) ⟨.none, 0, 0⟩), vOp (.k 1) (.k 0) (.src .rne (.m 0) ⟨.none, 0, 0⟩), may_run (by decide +kernel), ?_⟩
  decide +kernel

/-- Slides by 31, the most, and by 32, too much. -/
theorem witness_PermuteResults : ∃ (f g h : MRWord) (s t : State), (∀ x ∈ [s, t], (lives x && strandOk x) = true) ∧ onCore (ctxOf s) f.d = true ∧ laneSrc (ctxOf s) f.a = true ∧
    f.tail = .src .rne (.m 0) ⟨.none, 0, 0⟩ ∧ f.sat = false ∧ g.tail = .src .rne (.s 2) ⟨.none, 0, 0⟩ ∧ scalarSrc (.s 2) = true ∧ (sval s (ctxOf s) 2 (.s 2)).toNat = 31 ∧
    (sval t (ctxOf t) 2 (.s 2)).toNat = 32 ∧ h = f := by
  refine ⟨vOp (.m 1) (.m 2) (.src .rne (.m 0) ⟨.none, 0, 0⟩), vOp (.m 1) (.m 2) (.src .rne (.s 2) ⟨.none, 0, 0⟩), vOp (.m 1) (.m 2) (.src .rne (.m 0) ⟨.none, 0, 0⟩), withS [(2, 31)],
    withS [(2, 32)], ?_⟩
  decide +kernel

/-- A reduction to lanes, to an s register, and one whose overflow is trapped; a scan. -/
theorem witness_ReductionAndScanResults : ∃ (f g : MRWord) (s t : State), MayRun s (ctxOf s) ∧ MayRun t (ctxOf t) ∧ laneSrc (ctxOf s) f.a = true ∧
    f.tail = .src .rne (.m 0) ⟨.none, 0, 0⟩ ∧ rndGood false .rne ∧ f.sat = false ∧ onCore (ctxOf s) f.d = true ∧ g.d = .s 63 ∧
    (let fl := fun s => (sumI32 false ((inOrder (activeLanes s (ctxOf s) f.mask)).map (lane (vval s (ctxOf s) const32 1 f.a)))).2
     quietly (ctxOf s) (fl s) ∧ fl s = 0x80 ∧ flagTraps (ctxOf t) (fl t) 7) := by
  refine ⟨vOp (.m 255) (.m 1) (.src .rne (.m 0) ⟨.none, 0, 0⟩), vOp (.s 63) (.m 1) (.src .rne (.m 0) ⟨.none, 0, 0⟩), withV 0x7FFFFFFF, withFte 0x80 (withV 0x7FFFFFFF),
    may_run (by decide +kernel), may_run (by decide +kernel), by decide +kernel, rfl, .inl rfl, rfl, by decide +kernel, rfl, ?_⟩
  unfold quietly flagTraps
  decide +kernel

theorem witness_NarrowingConversions : ∃ (f g : CvtWord), MayRun (withV 0x3F800001) (ctxOf (withV 0x3F800001)) ∧ (∀ x ∈ [f, g], onCore c0 x.v.d = true ∧ laneSrc c0 x.v.a = true ∧ x.v.sat = false) ∧
    f.v.tail = .src .ru (.m 0) ⟨.none, 0, 0⟩ ∧ rndGood true .ru ∧ g.v.tail = .ef (.m 2) (.m 255) ∧ onCore c0 (.m 2) = true ∧ onCore c0 (.m 255) = true ∧ g.v.d ≠ .m 255 ∧
    (∀ e : Byte, quietly (ctxOf (withV 0x3F800001)) e) := by
  refine ⟨⟨1, vOp (.m 9) (.m 1) (.src .ru (.m 0) ⟨.none, 0, 0⟩)⟩, ⟨1, vOp (.m 9) (.m 1) (.ef (.m 2) (.m 255))⟩, may_run (by decide +kernel), by decide +kernel, rfl,
    .inr ⟨rfl, .inr (.inr rfl)⟩, rfl, by decide +kernel, by decide +kernel, by decide, ?_⟩
  unfold quietly
  decide +kernel

/-- rcp of zero: Divide by zero, quiet and trapped; div with a modifier. -/
theorem witness_SpecialFunctionResults : ∃ (f g : MRWord) (s t : State), MayRun s (ctxOf s) ∧ MayRun t (ctxOf t) ∧ f.d = .m 255 ∧ onCore (ctxOf s) (.m 255) = true ∧ laneSrc (ctxOf s) f.a = true ∧
    f.tail = .src .rne (.m 0) ⟨.none, 0, 0⟩ ∧ f.sat = false ∧ g.tail = .src .rne (.m 1) edgeMod ∧ modGood edgeMod (.m 1) ∧ laneSrc (ctxOf s) (.m 1) = true ∧
    (let fl := fun s => flagsOf (activeLanes s (ctxOf s) f.mask) fun l => (rcpRes (FloatFmt.f32.val (lane (vval s (ctxOf s) (constF .f32) 1 f.a) l).toNat)).flags
     quietly (ctxOf s) (fl s) ∧ activeLanes s (ctxOf s) f.mask ≠ 0 ∧ flagTraps (ctxOf t) (fl t) 1) := by
  refine ⟨vOp (.m 255) (.m 1) (.src .rne (.m 0) ⟨.none, 0, 0⟩), vOp (.m 255) (.m 1) (.src .rne (.m 1) edgeMod), withV 0, withFte 2 (withV 0), may_run (by decide +kernel),
    may_run (by decide +kernel), rfl, by decide +kernel, by decide +kernel, rfl, rfl, rfl, edgeMod_good, by decide +kernel, ?_⟩
  unfold quietly flagTraps
  decide +kernel

theorem witness_PairWordResults : ∃ (f : PairWord) (s t : State), MayRun s (ctxOf s) ∧ MayRun t (ctxOf t) ∧ (∀ d ∈ [f.op1.d, f.op2.d], onCore (ctxOf s) (longOperand d) = true) ∧
    (∀ o ∈ [f.op1.a, f.op1.b, f.op2.a, f.op2.b], laneSrc (ctxOf s) (longOperand o) = true) ∧
    (let fl := fun s => flagsOf (ctxOf s).sp.mask fun l => (shortRow f.op1.op (lane (vval s (ctxOf s) const32 1 (longOperand f.op1.a)) l)
        (lane (vval s (ctxOf s) const32 2 (longOperand f.op1.b)) l)).2
     quietly (ctxOf s) (fl s) ∧ fl s = 0x80 ∧ flagTraps (ctxOf t) (fl t) 7) := by
  refine ⟨⟨false, ⟨.addI32, .m 62, .m 1, .m 1⟩, ⟨.mov, .o 7, .s 63, .m 0⟩⟩, withV 0x7FFFFFFF, withFte 0x80 (withV 0x7FFFFFFF), may_run (by decide +kernel), may_run (by decide +kernel),
    by decide +kernel, by decide +kernel, ?_⟩
  unfold quietly flagTraps
  decide +kernel

/-! ## Witnesses: memory words -/

def mOp (size : Size) (d base idx : Operand) (scale : BitVec 2 := 0) (ord : Order := .plain) (off : BitVec 18 := 0) : MWord := ⟨false, .default, size, d, base, idx, scale, ord, off⟩
def aOp (d a b c : Operand) (asz : BitVec 2) (ord : Order := .plain) : AWord := ⟨false, d, a, b, c, ord, .default, asz⟩

/-- Device tables for PASID 0 of partition 0 with one leaf of 1 GiB, and no translation held. -/
def walkedIn (s : State) : State :=
  { s.modFn 0 fun x => { x with astb := 0x8000000000000000 } with
    fown := [(0, 0x40)]
    mem := [(0, 1), (2, 1), (0x10000, 1), (0x10001, 0x10), (0x10002, 1), (0x11000, 1), (0x11001, 0x20), (0x11002, 1), (0x12000, 0x1B), (0x12001, 0x0A)] }
/-- Port 0 of the package in fence 0, and up. -/
def peerIn (s : State) : State := { s.setPort 0 { Port.reset with down := false } with ppmap0 := 8 }
/-- The guest page 0 of PASID 0 translated. -/
def hostIn (s : State) : State := { s with ats := [⟨0, 0, 0, 0x5000, 4096, true, true, 0⟩] }

theorem get_mem {α : Type} (m : SMap α) (k : Nat) (d : α) : m.get k d = d ∨ ∃ e ∈ m, m.get k d = e.2 := by
  induction m with
  | nil => exact .inl rfl
  | cons e t ih =>
    obtain ⟨k', v⟩ := e
    unfold SMap.get
    split
    · exact .inr ⟨(k', v), List.mem_cons_self, rfl⟩
    · exact ih.imp id fun ⟨e, he, h⟩ => ⟨e, List.mem_cons_of_mem _ he, h⟩

/-- Every memory of a state that lists few is canonical. -/
theorem canonical_of {s : State} (h : (s.mem.wf && s.host.wf && s.cores.all fun e => e.2.crews.all fun w => w.spad.wf) = true) : canonical s := by
  simp only [Bool.and_eq_true, List.all_eq_true] at h
  refine ⟨h.1.1, h.1.2, fun core slot w hw => ?_⟩
  have hm := List.mem_of_find?_eq_some hw
  rcases get_mem s.cores core Core.reset with hr | ⟨e, he, hr⟩
  · unfold State.core at hm
    rw [hr] at hm
    simp [Core.reset] at hm
  · unfold State.core at hm
    rw [hr] at hm
    exact h.2 e he w hm

def okAt (r : WordRes) : List (Nat × Loc) := match r with | .ok ls => ls | _ => []

theorem spad_open (s : State) (c : Ctx) : unmasked s c .spad := fun _ h => nomatch h
theorem dev_open (s : State) (c : Ctx) : unmasked s c .dev := fun _ h => nomatch h
theorem const_open (s : State) (c : Ctx) : unmasked s c .const := fun _ h => nomatch h
theorem cluster_open (s : State) (c : Ctx) : unmasked s c .cluster := fun _ h => nomatch h
theorem peer_open {s : State} {c : Ctx} (h : ((s.part c.crew.part).capmask.getD 2 (BitVec.allOnes 64)).getLsbD 0 = true) : unmasked s c .peer := fun _ e => by cases e; exact h

theorem host_open {s : State} {c : Ctx} (h : ((s.part c.crew.part).capmask.getD 2 (BitVec.allOnes 64)).getLsbD 1 = true) : unmasked s c .host := fun _ e => by cases e; exact h

/-- A load of every lane up to the last byte below the ring; one through walked tables, one of the constant space with nothing cached, one of a peer. -/
theorem witness_LoadsComplete :
    (let f := mOp .b32 (.m 255) (.s 2) .lane 2
     let s := withS [(2, 1920)]
     MayRun s (ctxOf s) ∧ unmasked s (ctxOf s) .spad ∧ addressOperand (ctxOf s) f.base ∧ addressOperand (ctxOf s) f.idx ∧ loadTarget (ctxOf s) f ∧ accessWaits (ctxOf s) false false (f.ord == .acq) = [] ∧
       (∃ ls, checkLanes s (ctxOf s) .spad 4 false (memAddrs s (ctxOf s) f false) = .ok ls ∧ ls.length = 32 ∧ ∀ x ∈ ls, poisonedAt s 4 x.2 = false)) ∧
    (let f := mOp .b64 (.s 63) (.s 2) (.const 64)
     let s := walkedIn (withS [(2, 0x3FFFFFF8)])
     MayRun s (ctxOf s) ∧ unmasked s (ctxOf s) .const ∧ loadTarget (ctxOf s) f ∧ (s.core 0).kcache = [] ∧ (s.cluster 0).tlb = [] ∧
       (∃ ls, checkLanes s (ctxOf s) .const 8 false (memAddrs s (ctxOf s) f true) = .ok ls ∧ ls = [(0, .dev 0x3FFFFFF8)] ∧ ∀ x ∈ ls, poisonedAt s 8 x.2 = false)) ∧
    (let f := mOp .b8 (.s 63) (.s 2) (.const 64)
     let s := peerIn w0
     MayRun s (ctxOf s) ∧ unmasked s (ctxOf s) .peer ∧ ∃ ls, checkLanes s (ctxOf s) .peer 1 false (memAddrs s (ctxOf s) f true) = .ok ls ∧ ls ≠ [] ∧ ∀ x ∈ ls, poisonedAt s 1 x.2 = false) := by
  refine ⟨⟨may_run (by decide +kernel), spad_open _ _, .inr (.inr (.inl ⟨_, rfl⟩)), .inr (.inl rfl), .inl ⟨_, rfl, by decide +kernel, fun h => nomatch h⟩, by decide +kernel,
      okAt (checkLanes (withS [(2, 1920)]) (ctxOf (withS [(2, 1920)])) .spad 4 false (memAddrs (withS [(2, 1920)]) (ctxOf (withS [(2, 1920)])) (mOp .b32 (.m 255) (.s 2) .lane 2) false)),
      by decide +kernel⟩,
    ⟨may_run (by decide +kernel), const_open _ _, .inr ⟨⟨_, rfl⟩, rfl, rfl⟩, by decide +kernel, by decide +kernel, [(0, .dev 0x3FFFFFF8)], by decide +kernel⟩,
    may_run (by decide +kernel), peer_open (by decide +kernel), [(0, .peer 0)], by decide +kernel⟩

/-- A store pair to the last word below the ring, a host store, a scalar store to a peer. -/
theorem witness_StoresComplete :
    (let f := mOp .b64 (.m 254) (.s 2) (.const 64)
     let s := withS [(2, 2040)]
     MayRun s (ctxOf s) ∧ unmasked s (ctxOf s) .spad ∧ addressOperand (ctxOf s) f.base ∧ addressOperand (ctxOf s) f.idx ∧ storeSource (ctxOf s) f ∧
       accessWaits (ctxOf s) true (f.ord == .rel) false = [] ∧ canonical s ∧
       (∃ ls, checkLanes s (ctxOf s) .spad 8 true (memAddrs s (ctxOf s) f false) = .ok ls ∧ ls.length = 32 ∧ unjournalled s ls)) ∧
    (let f := mOp .b32 .lane (.s 2) .lane 2
     let s := hostIn (withS [(2, 4096 - 128)])
     MayRun s (ctxOf s) ∧ storeSource (ctxOf s) f ∧
       (∃ ls, checkLanes s (ctxOf s) .host 4 true (memAddrs s (ctxOf s) f false) = .ok ls ∧ ls.length = 32 ∧ unjournalled s ls) ∧
       (ctxOf s).g.outs = [] ∧ (ctxOf s).g.heldTraps = [] ∧ (ctxOf s).crew.killed = false ∧ (∀ x ∈ s.hostRmw, x.id ≠ s.nextId) ∧
       ∀ x ∈ s.allCrews, ∀ g ∈ x.2.groups, ∀ y ∈ g.outs, y.host = true → s.nextId ≤ y.id) := by
  refine ⟨⟨may_run (by decide +kernel), spad_open _ _, .inr (.inr (.inl ⟨_, rfl⟩)), .inr (.inr (.inr (.inr ⟨_, rfl⟩))),
      .inl ⟨_, rfl, by decide +kernel, fun _ => by unfold evenPair; decide +kernel⟩, by decide +kernel, canonical_of (by decide +kernel),
      okAt (checkLanes (withS [(2, 2040)]) (ctxOf (withS [(2, 2040)])) .spad 8 true (memAddrs (withS [(2, 2040)]) (ctxOf (withS [(2, 2040)])) (mOp .b64 (.m 254) (.s 2) (.const 64)) false)),
      by decide +kernel, by decide +kernel, fun _ _ _ _ => rfl⟩,
    may_run (by decide +kernel), .inr (.inr (.inr rfl)),
    ⟨okAt (checkLanes (hostIn (withS [(2, 4096 - 128)])) (ctxOf (hostIn (withS [(2, 4096 - 128)]))) .host 4 true
      (memAddrs (hostIn (withS [(2, 4096 - 128)])) (ctxOf (hostIn (withS [(2, 4096 - 128)]))) (mOp .b32 .lane (.s 2) .lane 2) false)), by decide +kernel, by decide +kernel, fun _ _ _ _ => rfl⟩,
    by decide +kernel⟩

/-- The next state of an outcome. -/
def nextOf (o : Out3) (s : State) : State := match o with | .next t => t | _ => s
/-- A host store of 0xAB that has begun: every lane's bytes are kept, and none is written. -/
noncomputable def storeBegun : State := let s := hostIn (withS [(1, 0xAB), (2, 0x10)]); nextOf (execSth (mOp .b8 (.s 1) (.s 2) (.const 64)) s) s
theorem test_sth_begins : storeBegun.host.length = 0 ∧ (storeBegun.hostRmw.map fun x => x.writes) = [List.replicate 32 (0x5010, [0xAB])] := by decide +kernel
/-- A host store under way, with its bytes to write. -/
def storing : State :=
  { inGroup fun g => { g with outs := [⟨5, 0, .store, 1, [], [], some .host, [(0, 0x10)], 1, true, none, 0, 0, none, false, true⟩] } with hostRmw := [⟨5, 0, [(0x5010, [0xAB])]⟩] }
noncomputable def stored (a : FarAnswer) : State := nextOf (execStoreAcknowledge ⟨0, 0, 0, 0⟩ 5 a storing) storing
/-- Acknowledged, it has written them. -/
theorem test_storeAcknowledge_writes : (stored (.ok [])).host.get 20496 = 171 := by decide +kernel
/-- One whose link has failed has no effect, and its word takes 0x67 (R263); the trap waits here for a reduction. -/
def heldStore : State := storing.modGroup 0 0 0 fun g => { g with holdUntil := 9 }
noncomputable def failed : State := nextOf (execStoreAcknowledge ⟨0, 0, 0, 0⟩ 5 (.fault 7) heldStore) heldStore
theorem test_storeAcknowledge_fails : failed.host.get 20496 = 0 ∧ failed.hostRmw = [] ∧ (ctxOf failed).g.pendTrap.map (·.code) = some 0x67 := by decide +kernel

/-- The lowest lane that faults, in a load and in a store; the edges of every range of the last clause. -/
theorem witness_MemoryAddressFaults :
    (let f := mOp .b32 (.m 1) (.s 2) .lane 2
     let s := withS [(2, 1924)]
     MayRun s (ctxOf s) ∧ accessWaits (ctxOf s) false false (f.ord == .acq) = [] ∧ accessWaits (ctxOf s) true (f.ord == .rel) false = [] ∧
       (memAddrs s (ctxOf s) f false)[31]? = some (31, 2048) ∧ (∀ x ∈ (memAddrs s (ctxOf s) f false).take 31, (checkLane s (ctxOf s) .spad 4 false x.2) = .ok (.spad 0 0 x.2.toNat)) ∧
       checkLane s (ctxOf s) .spad 4 false 2048 = .err 0x41 ∧ checkLane s (ctxOf s) .spad 4 true 2048 = .err 0x41) ∧
    (let c := ctxOf w0
     c.crew.task.spad * 1024 = 4096 ∧ checkLane w0 c .spad 8 false 4096 = .err 0x43 ∧ checkLane w0 c .spad 8 false 4092 = .err 0x42 ∧ checkLane w0 c .spad 8 false 4088 = .err 0x41 ∧
       checkLane w0 c .cluster 8 false 0x8000000 = .err 0x4B ∧ checkLane w0 c .cluster 8 false 0x7FFFFFF = .err 0x4A ∧
       checkLane w0 c .dev 8 false 0x200000000000000 = .err 0x53 ∧ checkLane w0 c .const 8 false 0x200000000000000 = .err 0x6B ∧ checkLane w0 c .host 8 false 0x200000000000000 = .err 0x63 ∧
       checkLane w0 c .dev 8 false 0x1FFFFFFFFFFFFFF = .err 0x52 ∧ checkLane w0 c .const 8 false 0x1FFFFFFFFFFFFFF = .err 0x6A ∧ checkLane w0 c .host 8 false 0x1FFFFFFFFFFFFFF = .err 0x62 ∧
       checkLane w0 c .peer 8 false 0x4000000000000000 = .err 0x5B ∧ checkLane w0 c .peer 8 false 0x3000000000000000 = .err 0x5B ∧
       checkLane w0 c .peer 8 false 0x2FFFFFFFFFFFFFFF = .err 0x5A ∧ checkLane w0 c .peer 8 false 0 = .err 0x5E ∧ checkLane { w0 with ppmap0 := 8 } c .peer 8 false 0 = .err 0x5F) := by
  exact ⟨⟨may_run (by decide +kernel), by decide +kernel⟩, by decide +kernel⟩

/-- A b64 cas with a pair of each kind, at the top of the walked leaf; a peer add in the scalar form. -/
theorem witness_AtomicsComplete :
    (let f := aOp (.m 254) (.s 2) (.m 2) (.m 4) 3
     let s := walkedIn (withS [(2, 0x3FFFFFF8)])
     MayCommit s (ctxOf s) ∧ unmasked s (ctxOf s) .dev ∧ (∃ row, (atomInstrs .dev)[9]? = some row) ∧ (∃ op, atomEffects[9]? = some op) ∧ f.asz = 3 ∧ atomGood (ctxOf s) .dev f true ∧
       accessWaits (ctxOf s) true (f.ord == .rel || f.ord == .ar) (f.ord == .acq || f.ord == .ar) = [] ∧ canonical s ∧
       ∃ ls, checkLanes s (ctxOf s) .dev 8 true (atomAddrs s (ctxOf s) .dev f) = .ok ls ∧ (∀ x ∈ ls, poisonedAt s 8 x.2 = false) ∧ unjournalled s ls ∧ s.cells = [] ∧ deviceScope f = true) ∧
    (let f := aOp (.s 1) (.s 2) (.s 3) (.m 0) 2
     let s := peerIn w0
     MayCommit s (ctxOf s) ∧ unmasked s (ctxOf s) .peer ∧ atomGood (ctxOf s) .peer f false ∧ (ctxOf s).g.outs = [] ∧
       checkLanes s (ctxOf s) .peer 4 true (atomAddrs s (ctxOf s) .peer f) = .ok [(0, .peer 0)] ∧
       ∃ ps : SMap Port, ∀ i, s.nextId ∉ (ps.get i Port.reset).reqs ∧ s.nextId ∉ (ps.get i Port.reset).await) ∧
    (let f := aOp (.s 1) (.s 2) (.s 3) (.m 0) 2
     let s := hostIn w0
     MayCommit s (ctxOf s) ∧ unmasked s (ctxOf s) .host ∧ atomGood (ctxOf s) .host f false ∧ (ctxOf s).g.outs = [] ∧ canonical s ∧ s.hostRmw = [] ∧
       accessWaits (ctxOf s) true false false = [] ∧ checkLanes s (ctxOf s) .host 4 true (atomAddrs s (ctxOf s) .host f) = .ok [(0, .host 0x5000)]) := by
  refine ⟨⟨may_commit (by decide +kernel), dev_open _ _, ⟨_, rfl⟩, ⟨_, rfl⟩, rfl, ⟨.inl rfl, .inr (.inl ⟨_, rfl, by decide +kernel, fun _ => by unfold evenPair; decide +kernel⟩),
      fun _ => .inr (.inl ⟨_, rfl, by decide +kernel, fun _ => by unfold evenPair; decide +kernel⟩), .inl ⟨_, rfl, by decide +kernel, fun _ => by unfold evenPair; decide +kernel⟩⟩,
      by decide +kernel, canonical_of (by decide +kernel),
      okAt (checkLanes (walkedIn (withS [(2, 0x3FFFFFF8)])) (ctxOf (walkedIn (withS [(2, 0x3FFFFFF8)]))) .dev 8 true
        (atomAddrs (walkedIn (withS [(2, 0x3FFFFFF8)])) (ctxOf (walkedIn (withS [(2, 0x3FFFFFF8)]))) .dev (aOp (.m 254) (.s 2) (.m 2) (.m 4) 3))),
      by decide +kernel, by decide +kernel, fun _ _ _ _ => rfl, rfl, rfl⟩,
    ⟨may_commit (by decide +kernel), peer_open (by decide +kernel), ⟨.inl rfl, .inl rfl, (fun h => nomatch h), .inr ⟨⟨_, rfl⟩, rfl, rfl, (fun h => nomatch h)⟩⟩, by decide +kernel,
    by decide +kernel, [], fun i => by constructor <;> simp [SMap.get, Port.reset]⟩,
    may_commit (by decide +kernel), host_open (by decide +kernel), ⟨.inl rfl, .inl rfl, (fun h => nomatch h), .inr ⟨⟨_, rfl⟩, rfl, rfl, (fun h => nomatch h)⟩⟩, by decide +kernel,
    canonical_of (by decide +kernel), by decide +kernel, by decide +kernel, by decide +kernel⟩

/-- An access outstanding for the executing split. -/
def someOut (k : OutKind) (far : Option Far) : Out := ⟨5, 0, k, BitVec.allOnes 32, [], [], far, [], 4, false, none, 0, 0, none, false, false⟩
def withOut (k : OutKind) (far : Option Far := none) : State := inGroup fun g => { g with outs := [someOut k far] }

/-- Fences with nothing outstanding and with a load; a store after a release that waits. -/
theorem witness_FencesComplete : MayRun w0 (ctxOf w0) ∧ (ctxOf w0).g.outs = [] ∧ (w0.core (ctxOf w0).r.core).tun = [] ∧
    (let s := withOut .load
     MayRun s (ctxOf s) ∧ spared s (ctxOf s) ∧
       ((ctxOf s).g.outs.filter fun o => (o.split == (ctxOf s).sp.num || (ctxOf s).sp.past.contains o.id) && (o.kind == .load || o.kind == .atomic)).map (·.id) = [5]) ∧
    (let s := inCore fun k => { k with tun := [⟨0, 0, 0, 0, .mzero 0 0⟩] }
     MayRun s (ctxOf s) ∧ spared s (ctxOf s) ∧ ∃ t ∈ (s.core (ctxOf s).r.core).tun, t.crew = (ctxOf s).r.crew ∧ t.gid = (ctxOf s).r.gid ∧ t.split = (ctxOf s).sp.num) ∧
    (let s := (withOut .store).modSplit ⟨0, 0, 0, 0⟩ fun p => { p with relIds := [5] }
     MayRun s (ctxOf s) ∧ spared s (ctxOf s) ∧ storeSource (ctxOf s) (mOp .b32 (.m 1) (.s 2) (.const 64)) ∧ 5 ∈ (ctxOf s).sp.relIds ∧ ∃ o ∈ (ctxOf s).g.outs, o.id = 5) := by
  refine ⟨may_run (by decide +kernel), by decide +kernel, by decide +kernel, ⟨may_run (by decide +kernel), spared_of (by decide +kernel), by decide +kernel⟩,
    ⟨may_run (by decide +kernel), spared_of (by decide +kernel), by decide +kernel⟩,
    may_run (by decide +kernel), spared_of (by decide +kernel), .inl ⟨_, rfl, by decide +kernel, fun h => nomatch h⟩, by decide +kernel, by decide +kernel⟩

/-! ## Witnesses: synchronisation, copy and task words -/

def rr (d a b : Operand) : RWord := rOp d a b (.m 0)
def withBar (n b : Nat) (bar : Barrier) : State :=
  (inCrew fun w => { w with bars := vmod w.bars b fun _ => bar }).modGroup 0 0 0 fun g => { g with s := vmod g.s 1 fun _ => BitVec.ofNat 64 b, arrived := vmod g.arrived b fun _ => n }

/-- Barrier 8 and barrier 7; a count beyond the groups and the one of the crew; the phase not open, another count, the last arrival and one before it. -/
theorem witness_BarrierArrivals :
    (let f := rr (.s 5) (.s 1) (.const 64)
     valueOperand f.a ∧ valueOperand f.b ∧ f.d = .s 5 ∧
     (let s := withS [(1, 8)]
      MayCommit s (ctxOf s) ∧ 7 < (sval s (ctxOf s) 1 f.a).toNat) ∧
     (let s := withBar 1 7 ⟨1, [], none⟩
      MayCommit s (ctxOf s) ∧ (sval s (ctxOf s) 1 f.a).toNat = 7 ∧ sval s (ctxOf s) 2 f.b = 0 ∧ spared s (ctxOf s) ∧ accessWaits (ctxOf s) true true false = [] ∧ (ctxOf s).crew.n = 1 ∧
        (barrierOf (ctxOf s).crew 7).bph = BitVec.ofNat 64 (phaseOf (ctxOf s) 7) ∧ (ctxOf s).crew.n ≤ countedAt (ctxOf s).crew ((barrierOf (ctxOf s).crew 7).arr ++ [(ctxOf s).r.gid])) ∧
     (let s := withBar 1 7 ⟨0, [], none⟩
      MayCommit s (ctxOf s) ∧ spared s (ctxOf s) ∧ accessWaits (ctxOf s) true true false = [] ∧ (barrierOf (ctxOf s).crew 7).bph ≠ BitVec.ofNat 64 (phaseOf (ctxOf s) 7)) ∧
     (let s := (withBar 1 7 ⟨0, [], none⟩).modGroup 0 0 0 fun g => { g with outs := [someOut .store (some (.peer true))] }
      MayCommit s (ctxOf s) ∧ spared s (ctxOf s) ∧ accessWaits (ctxOf s) true true false ≠ []) ∧
     (let s := withBar 0 7 ⟨0, [3], some 2⟩
      MayCommit s (ctxOf s) ∧ spared s (ctxOf s) ∧ accessWaits (ctxOf s) true true false = [] ∧ (barrierOf (ctxOf s).crew 7).bph = BitVec.ofNat 64 (phaseOf (ctxOf s) 7) ∧ (barrierOf (ctxOf s).crew 7).count = some 2 ∧ (2 : Nat) ≠ (ctxOf s).crew.n)) ∧
    (let f := rr (.m 0) (.s 1) (.s 2)
     let s := withS [(2, 2)]
     MayCommit s (ctxOf s) ∧ (sval s (ctxOf s) 1 f.a).toNat ≤ 7 ∧ (ctxOf s).crew.n < (sval s (ctxOf s) 2 f.b).toNat) ∧
    (let f := rr (.m 0) (.s 1) (.s 2)
     let s := (withS [(2, 2)]).modCrew 0 0 fun w => { w with task := { w.task with shape := w.task.shape ||| 1 }, groups := w.groups ++ w.groups.map fun g => { g with gid := 1 } }
     MayCommit s (ctxOf s) ∧ spared s (ctxOf s) ∧ accessWaits (ctxOf s) true true false = [] ∧ (sval s (ctxOf s) 2 f.b).toNat = (ctxOf s).crew.n ∧
        countedAt (ctxOf s).crew ((barrierOf (ctxOf s).crew 0).arr ++ [(ctxOf s).r.gid]) < (ctxOf s).crew.n) := by
  refine ⟨⟨.inl ⟨_, rfl⟩, .inr (.inr ⟨_, rfl⟩), rfl, ⟨may_commit (by decide +kernel), by decide +kernel⟩,
      ⟨may_commit (by decide +kernel), by decide +kernel, by decide +kernel, spared_of (by decide +kernel), by decide +kernel⟩,
      ⟨may_commit (by decide +kernel), spared_of (by decide +kernel), by decide +kernel⟩, ⟨may_commit (by decide +kernel), spared_of (by decide +kernel), by decide +kernel⟩,
      may_commit (by decide +kernel), spared_of (by decide +kernel), by decide +kernel⟩,
    ⟨may_commit (by decide +kernel), by decide +kernel⟩, may_commit (by decide +kernel), spared_of (by decide +kernel), by decide +kernel⟩

/-- Four conditions from the last s registers that hold them: a counter, a barrier, a scope and the time, the last alone satisfied. -/
def fourConds (ctl : Dword) : State :=
  withS [(56, 0x1000000000000008), (57, 1), (58, 0x2000000000000007), (59, 1), (60, 0x400000000000FFFF), (61, 0), (62, 0x5000000000000000), (63, 0), (1, ctl)]

/-- The conditions reach s63 and one register further; none, five, and a reserved bit; what ends at once, what has no time, and what waits. -/
theorem witness_WaitEvaluates :
    (let f := rr (.s 5) (.s 56) (.s 1)
     let s := withS [(1, 5)]
     MayRun s (ctxOf s) ∧ 64 < 56 + 2 * ((sval s (ctxOf s) 3 f.b).toNat % 8)) ∧
    (let f := rr (.s 5) (.s 0) (.s 1)
     (let s := withS [(1, 0)]
      MayRun s (ctxOf s) ∧ (sval s (ctxOf s) 3 f.b).toNat % 8 = 0) ∧
     (let s := withS [(1, 0x11)]
      MayRun s (ctxOf s) ∧ (sval s (ctxOf s) 3 f.b).extractLsb' 4 28 ≠ 0)) ∧
    (let f := rr (.s 5) (.s 56) (.s 1)
     ∀ ctl ∈ [(4 : Dword), 12, 0x10000000C],
     (let s := fourConds ctl
      MayRun s (ctxOf s) ∧ valueOperand f.b ∧ 56 + 2 * ((sval s (ctxOf s) 3 f.b).toNat % 8) ≤ 64 ∧ (sval s (ctxOf s) 3 f.b).extractLsb' 4 28 = 0 ∧
        (∀ k < 4, condWell (condWords s (ctxOf s) 56 k)) ∧ spared s (ctxOf s) ∧ (ctxOf s).g.walkOut = none ∧ s.poison = [] ∧ (ctxOf s).crew.spadPoison = [] ∧ accessWaits (ctxOf s) false false true = [] ∧
        counterPlace s (ctxOf s) (condWords s (ctxOf s) 56 0).1 = .ok (.spad 0 0 8) ∧ condMet s (ctxOf s) (condWords s (ctxOf s) 56 3) ∧
        ¬condMet s (ctxOf s) (condWords s (ctxOf s) 56 1))) := by
  refine ⟨⟨may_run (by decide +kernel), by decide +kernel⟩, ⟨⟨may_run (by decide +kernel), by decide +kernel⟩, may_run (by decide +kernel), by decide +kernel⟩, ?_⟩
  intro _ ctl hc
  have hn : ∀ {s : State}, condKind (condWords s (ctxOf s) 56 1).1 = 2 → (condWords s (ctxOf s) 56 1).2.toNat = 1 →
      (barrierOf (ctxOf s).crew (condAddr (condWords s (ctxOf s) 56 1).1)).bph.toNat = 0 → ¬condMet s (ctxOf s) (condWords s (ctxOf s) 56 1) := by
    intro s h1 h2 h3 hm
    unfold condMet at hm
    omega
  simp only [List.mem_cons, List.not_mem_nil, or_false] at hc
  obtain rfl | rfl | rfl := hc <;>
    exact ⟨may_run (by decide +kernel), .inl ⟨_, rfl⟩, by decide +kernel, by decide +kernel, by unfold condWell; decide +kernel, spared_of (by decide +kernel), by decide +kernel,
      by decide +kernel, by decide +kernel, by decide +kernel, by decide +kernel, .inr (.inr (.inr (by decide +kernel))), hn (by decide +kernel) (by decide +kernel) (by decide +kernel)⟩

/-- The last register that holds a command and the next; SPAD 1 and 2; a ring full and one short of it; a drain of space 5 with a command of it and none, and of space 6. -/
theorem witness_CopyPostAndDrain :
    (let f := rr (.s 5) (.s 60) (.m 0)
     ∃ s t u v : State, MayCommit s (ctxOf s) ∧ (ctxOf s).crew.task.spad = 1 ∧ MayCommit t (ctxOf t) ∧ 2 ≤ (ctxOf t).crew.task.spad ∧
       (ctxOf t).crew.take.toNat + 64 = (ctxOf t).crew.pub.toNat ∧ spared t (ctxOf t) ∧ MayCommit u (ctxOf u) ∧ 2 ≤ (ctxOf u).crew.task.spad ∧
       (ctxOf u).crew.pub.toNat + 1 = (ctxOf u).crew.take.toNat + 64 ∧ accessWaits (ctxOf u) true true false = [] ∧ canonical u ∧ f.a = .s 60 ∧
       MayCommit v (ctxOf v) ∧ (60 : Nat) < (61 : BitVec 6).toNat) ∧
    (∃ (f g : RWord) (s : State), MayRun s (ctxOf s) ∧ spared s (ctxOf s) ∧ (ctxOf s).sp.parked = none ∧ bits f.c.bits 9 7 = 5 ∧ bits g.c.bits 9 7 = 6 ∧ 2 ≤ (ctxOf s).crew.task.spad ∧
      (ctxOf s).crew.drainPending (ctxOf s).crew.pub.toNat 5 = true ∧ (ctxOf w0).crew.drainPending (ctxOf w0).crew.pub.toNat 5 = false) := by
  refine ⟨⟨inCrew fun w => { w with task := { w.task with shape := w.task.shape &&& 0xFFFFE01F ||| 0x10 } }, inCrew fun w => { w with pub := 65, take := 1 },
      inCrew fun w => { w with pub := 63 }, w0, may_commit (by decide +kernel), by decide +kernel, may_commit (by decide +kernel), by decide +kernel, by decide +kernel, spared_of (by decide +kernel),
      may_commit (by decide +kernel), by decide +kernel, by decide +kernel, by decide +kernel, canonical_of (by decide +kernel), rfl, may_commit (by decide +kernel), by decide⟩,
    rOp (.m 0) (.m 0) (.m 0) (.x 128), rOp (.m 0) (.m 0) (.m 0) (.s 0), inCrew fun w => { w with started := [(7, 0, 5)], pub := 1 }, may_run (by decide +kernel), spared_of (by decide +kernel), by decide +kernel⟩

def poke (s : State) (l : List (Nat × Nat)) : State := { s with mem := l.foldl (fun m e => m.setBytes e.1 (leBytes 8 e.2)) s.mem }

/-- A code descriptor at 0x2000 with its table at 0x3000, a join cell at 0x1000 with the record of scope 5 at 0x1040, a launch root at 0x1080, a malformed record at 0x1100. -/
def tasks (s : State) : State :=
  poke (walkedIn s) [(0x1040, 0x2000), (0x1060, 5), (0x1070, 0x2000), (0x1080, 0x2000), (0x10A0, 0x100005), (0x10B0, 0x2000), (0x10C8, 1), (0x10D0, 0x801), (0x1100, 1),
    (0x2010, 0x3000), (0x2018, 255 * 2 ^ 32), (0x2020, 0x13 * 2 ^ 32), (0x2028, 1), (0x3000, 0x100000001)]
/-- Scope 5 of partition 0 in a state, and scope 0, that of the crew. -/
def withScopes (st0 st5 : ScopeState) (depth0 : BitVec 4) (s : State) : State :=
  { s with scopes := [(0, { ScopeEnt.free with st := st0, depth := depth0 }), (5, { ScopeEnt.free with st := st5, depth := 2 })] }

/-- What the clauses of spawn about a readable record ask of a state with the record's address in s1. -/
def readsRecord (s : State) (a : Dword) (bad : Bool) : Prop :=
  MayCommit s (ctxOf s) ∧ accessWaits (ctxOf s) true true false = [] ∧ sval s (ctxOf s) 1 (.s 1) = a ∧ sval s (ctxOf s) 2 (.s 2) = 0 ∧ recordReadable s (ctxOf s) a ∧ malformedAt s (ctxOf s) a = bad
def readsRecordB (s : State) (a : Dword) (bad : Bool) : Bool :=
  let c := ctxOf s
  lives s && strandOk s && c.g.handler.isNone && (accessWaits c true true false).isEmpty && sval s c 1 (.s 1) == a && sval s c 2 (.s 2) == 0 && recordCheck s c a 8 == none &&
    (!(spawnedTask s c a).isRoot || recordCheck s c a 16 == none) && malformedAt s c a == bad
theorem reads_record {s : State} {a : Dword} {bad : Bool} (h : readsRecordB s a bad = true) : readsRecord s a bad := by
  simp only [readsRecordB, Bool.and_eq_true, beq_iff_eq, List.isEmpty_iff, Bool.or_eq_true, Bool.not_eq_true'] at h
  obtain ⟨⟨⟨⟨⟨⟨⟨⟨h1, h2⟩, h3⟩, h4⟩, h5⟩, h6⟩, h7⟩, h8⟩, h9⟩ := h
  exact ⟨may_commit (by simp [h1, h2, h3]), h4, h5, h6, ⟨h7, fun hr => by simpa [hr] using h8⟩, h9⟩

/-- Die 0 with a records like this in its store and b in the overflow area. -/
def crowdRec : QRec := { part := 0, pasid := 0, prio := 0, bin := 0, task := standardTask, root := none, saved := none, byGen := false, spilled := false, addr := 0, pkt := none, reset := false }
def crowded (a b : Nat) : State :=
  (withScopes .opened .opened 1 (tasks (withS [(1, 0x1040)]))).modDie 0 fun x => { x with queue := List.replicate a crowdRec ++ List.replicate b { crowdRec with spilled := true } }

theorem crowded_full {a b : Nat} (ha : 2048 ≤ a) (hb : 1048576 ≤ b) : (crowded a b).queueRoom 0 0 = false := by
  have hq : ((crowded a b).die 0).queue = List.replicate a crowdRec ++ List.replicate b { crowdRec with spilled := true } := rfl
  have h1 : (crowded a b).dieStore 0 = a := by
    unfold State.dieStore
    rw [hq]
    simp [crowdRec]
  have h2 : (List.filter (fun (q : QRec) => q.part == 0 && q.spilled && q.saved.isNone) ((crowded a b).die 0).queue).length = b := by
    rw [hq]
    simp [crowdRec]
  have h3 : b ≤ (crowded a b).overflowUse 0 := by
    unfold State.overflowUse
    rw [show List.range 8 = [0, 1, 2, 3, 4, 5, 6, 7] by decide]
    simp only [List.foldl_cons, List.foldl_nil, h2]
    omega
  unfold State.queueRoom
  simp only [h1, Bool.or_eq_false_iff, decide_eq_false_iff_not]
  omega

/-- A record and a root, at the states of the scope and the depths of its parent that the clauses separate; a malformed one; a misaligned one, and an ACKA with a reserved bit. -/
theorem witness_SpawnOutcomes :
    valueOperand (.s 1) ∧
    (let s := withS [(1, 0x1041), (2, 4)]
     MayCommit s (ctxOf s) ∧ accessWaits (ctxOf s) true true false = [] ∧ (sval s (ctxOf s) 2 (.s 2)).toNat % 8 ≠ 0 ∧ (sval s (ctxOf s) 1 (.s 1)).toNat < 2 ^ 57 ∧ (sval s (ctxOf s) 1 (.s 1)).toNat % 64 ≠ 0) ∧
    (let s := withScopes .opened .free 14 (tasks (withS [(1, 0x1040)]))
     readsRecord s 0x1040 false ∧ (spawnedTask s (ctxOf s) 0x1040).scopeId = 5 ∧ (s.scope 0 5).st = .free ∧ (s.scope 0 0).st = .opened ∧ (s.scope 0 0).depth.toNat = 14) ∧
    (let s := withScopes .opened .opened 15 (tasks (withS [(1, 0x1080)]))
     readsRecord s 0x1080 false ∧ (spawnedTask s (ctxOf s) 0x1080).isRoot = true ∧ (s.scope 0 5).st = .opened ∧ s.queueRoom 0 0 = true ∧ (s.scope 0 0).depth.toNat = 15) ∧
    (let s := withScopes .cancelling .cancelled 14 (tasks (withS [(1, 0x1040)]))
     readsRecord s 0x1040 false ∧ (s.scope 0 5).st = .cancelled ∧ (s.scope 0 0).st ≠ .opened) ∧
    readsRecord (withScopes .opened .opened 1 (tasks (withS [(1, 0x1100)]))) 0x1100 true ∧
    (readsRecord (crowded 2048 1048576) 0x1040 false ∧ ((crowded 2048 1048576).scope 0 5).st = .opened ∧ (crowded 2048 1048576).queueRoom 0 0 = false) := by
  refine ⟨.inl ⟨_, rfl⟩, ⟨may_commit (by decide +kernel), by decide +kernel⟩, ⟨reads_record (by decide +kernel), by decide +kernel⟩,
    ⟨reads_record (by decide +kernel), by decide +kernel⟩, ⟨reads_record (by decide +kernel), by decide +kernel⟩, reads_record (by decide +kernel),
    reads_record (by decide +kernel), by decide +kernel, crowded_full (Nat.le_refl _) (Nat.le_refl _)⟩

theorem unjournalled_of {s : State} {a : Nat} (h : s.snapsOf (a / 4096 * 4096) = []) : unjournalled s [(0, .dev a)] := by
  intro x hx b hb
  simp only [List.mem_singleton] at hx
  subst hx
  cases hb
  exact h

/-- A misaligned cell, both ends of the range of counts, a cell of old count 0 and one released by its last; a cell with a bad word, a bad record and a fault. -/
theorem witness_ArmAndJoinCells :
    (let s := withS [(1, 0x1008), (2, 1)]
     MayCommit s (ctxOf s) ∧ (sval s (ctxOf s) 1 (.s 1)).toNat % 128 ≠ 0) ∧
    (let s := withS [(1, 0x1000), (2, 0x80000000)]
     MayCommit s (ctxOf s) ∧ (sval s (ctxOf s) 1 (.s 1)).toNat % 128 = 0 ∧ 2 ^ 31 ≤ (sval s (ctxOf s) 2 (.s 2)).toNat ∧ (sval s (ctxOf s) 2 (.s 3)).toNat = 0) ∧
    (let s := tasks (withS [(1, 0x1000), (2, 0x7FFFFFFF)])
     MayCommit s (ctxOf s) ∧ accessWaits (ctxOf s) true true false = [] ∧ checkLane s (ctxOf s) .dev 8 true 0x1000 = .ok (.dev 0x1000) ∧ poisonedAt s 8 (.dev 0x1000) = false ∧ canonical s ∧ (s.nameCell 0 0 0x1000).cells = [0x1000] ∧
       unjournalled s [(0, .dev 0x1000)] ∧ readThere 8 (.dev 0x1000) (byteIn s) = 0) ∧
    (let s := { poke (tasks (withS [(1, 0x1000), (2, 1)])) [(0x1000, 0xFFFFFFFFFFFFFFFF)] with cells := [0x1000] }
     MayCommit s (ctxOf s) ∧ accessWaits (ctxOf s) true true false = [] ∧ checkLane s (ctxOf s) .dev 8 true 0x1000 = .ok (.dev 0x1000) ∧ poisonedAt s 8 (.dev 0x1000) = false ∧ canonical s ∧ unjournalled s [(0, .dev 0x1000)] ∧
       readThere 8 (.dev 0x1000) (byteIn s) = 0xFFFFFFFFFFFFFFFF ∧ (s.nameCell 0 0 0x1000).cells = [0x1000]) ∧
    (let s := withScopes .opened .opened 1 (tasks w0)
     s.vaFault 0 0 0x1000 16 = none ∧ (∀ i < 7, wordAt s 0 0 0x1000 (i + 1) = 0) ∧ (readTask s 0 0 0x1040).isRoot = false ∧ taskBad s 0 0 (readTask s 0 0 0x1040) = false ∧
       (s.scope 0 5).st = .opened ∧ s.queueRoom 0 0 = true) ∧
    (let s := poke (tasks w0) [(0x1038, 1)]
     s.vaFault 0 0 0x1000 16 = none ∧ wordAt s 0 0 0x1000 7 ≠ 0) ∧
    (let s := poke (tasks w0) [(0x1060, 0x100005)]
     s.vaFault 0 0 0x1000 16 = none ∧ (∀ i < 7, wordAt s 0 0 0x1000 (i + 1) = 0) ∧ (readTask s 0 0 0x1040).isRoot = true) ∧
    w0.vaFault 0 0 0x1000 16 ≠ none := by
  refine ⟨⟨may_commit (by decide +kernel), by decide +kernel⟩, ⟨may_commit (by decide +kernel), by decide +kernel⟩,
    ⟨may_commit (by decide +kernel), by decide +kernel, by decide +kernel, by decide +kernel, canonical_of (by decide +kernel), by decide +kernel, unjournalled_of (by decide +kernel), by decide +kernel⟩,
    ⟨may_commit (by decide +kernel), by decide +kernel, by decide +kernel, by decide +kernel, canonical_of (by decide +kernel), unjournalled_of (by decide +kernel), by decide +kernel⟩, by decide +kernel, by decide +kernel,
    by decide +kernel, by decide +kernel⟩

/-- A launch of four steps, at its second. -/
def fourSteps : Launch := ⟨0, 0, 0, standardTask, ⟨3, 0, 0, 1, 1, 8, 0, 0, 0, 0, 0, true⟩, standardCode, 0, 1, [], 1, false, false, 0, 0, 0, true, none, none⟩

/-- Ids at both sides of 2^16, and a scope at every state and at the last count; a launch that generates the crew, and a crew not generated. -/
theorem witness_CancelStepAndRetire :
    (let f := rr (.s 3) (.s 1) (.m 0)
     (let s := withS [(1, 0x10000)]
      MayCommit s (ctxOf s) ∧ valueOperand f.a ∧ 2 ^ 16 ≤ (sval s (ctxOf s) 1 f.a).toNat) ∧
     (let s := withS [(1, 0xFFFF)]
      MayCommit s (ctxOf s) ∧ (sval s (ctxOf s) 1 f.a).toNat = 2 ^ 16 - 1 ∧ (s.scope 0 0xFFFF).st = .free) ∧
     (∀ e ∈ [(ScopeState.opened, 0xFFFFFFFE), (.cancelling, 0xFFFFFFFE), (.cancelled, 0xFFFFFFFF)],
      let st : ScopeState := e.1
      let n : Word := BitVec.ofNat 32 e.2
      let s := { withS [(1, 5)] with scopes := [(5, { ScopeEnt.free with st := st, pend := n })] }
      lives s = true ∧ (∀ h ∈ (ctxOf s).crew.groups, h.gid = (ctxOf s).r.gid → (ctxOf s).crew.groupWaits h = false) ∧ (s.scope (ctxOf s).crew.part (sval s (ctxOf s) 1 f.a).toNat).st = st ∧ (s.scope (ctxOf s).crew.part (sval s (ctxOf s) 1 f.a).toNat).pend = n)) ∧
    MayRun w0 (ctxOf w0) ∧ (ctxOf w0).crew.byGen = false ∧ smallConst (.const 64) 0 ∧ smallConst (.const 65) 1 ∧
    (let s := { inCrew (fun w => { w with byGen := true }) with
       launches := [fourSteps] }
     MayRun s (ctxOf s) ∧ (ctxOf s).crew.byGen = true ∧ s.launch? (ctxOf s).crew.part (ctxOf s).crew.task.launch = some fourSteps ∧ fourSteps.ext.steps = 4) ∧
    MayBranch w0 (ctxOf w0) ∧ (ctxOf w0).g.handler = none ∧ (ctxOf w0).crew.killed = false ∧ inHandler.ctx = some (ctxOf inHandler) ∧ (ctxOf inHandler).g.handler ≠ none := by
  refine ⟨⟨⟨may_commit (by decide +kernel), .inl ⟨_, rfl⟩, by decide +kernel⟩, ⟨may_commit (by decide +kernel), by decide +kernel⟩, by decide +kernel⟩, may_run (by decide +kernel),
    by decide +kernel, ⟨by decide, by decide⟩, ⟨by decide, by decide⟩, ⟨may_run (by decide +kernel), by decide +kernel⟩, may_branch (by decide +kernel), by decide +kernel,
    by decide +kernel, by decide +kernel⟩

/-! ## Witnesses: matrix words -/

/-- The crew's tiles on core 0 hold its context. -/
def withTiles (s : State) : State := s.modCore 0 fun k => { k with tiles := Vector.replicate 4 { PhysTile.reset with owner := some (ctxOf s).crew.ctxId } }
/-- And core 0 gives it the paddle. -/
def withPaddle (s : State) : State := (withTiles s).modCore 0 fun k => { k with paddle := some 0 }

theorem hasPaddle_of {s : State} (h : ((ctxOf s).crew.stage (ctxOf s).r.gid == 0 && (s.core (ctxOf s).r.core).paddle == some (ctxOf s).r.crew) = true) : hasPaddle s (ctxOf s) := by
  simpa [hasPaddle] using h

theorem tileReady_of {s : State} {t : BitVec 2} (h : (decide (t.toNat < (ctxOf s).crew.task.acc) && ownsTile s (ctxOf s) t.toNat && !(ctxOf s).crew.armedOpen t.toNat &&
    !tunFull (s.core (ctxOf s).r.core)) = true) : tileReady s (ctxOf s) t := by
  simp only [Bool.and_eq_true, decide_eq_true_eq, Bool.not_eq_true'] at h
  exact ⟨h.1.1.1, h.1.1.2, h.1.2, h.2⟩

/-- Runs of 256 words: to the last register and to the last byte of the grist, and one byte too far; elements of 16 bits up to the last below the ring. -/
theorem witness_MatrixLoads :
    (let f := mOp .b16 (.m 255) (.s 1) (.s 2)
     let s := withS [(1, 2044 - 31 * 64), (2, 64 * 65536 + 2)]
     MayRun s (ctxOf s) ∧ valueOperand f.base ∧ accessWaits (ctxOf s) false false false = [] ∧ (ctxOf s).crew.spadPoison = [] ∧ (ctxOf s).crew.task.regs = 8 ∧ (ctxOf s).crew.task.spad * 1024 = 4096 ∧
       sval s (ctxOf s) 2 f.idx = 64 * 65536 + 2 ∧ (sval s (ctxOf s) 1 f.base + f.off.signExtend 64).toNat = 60 ∧ 60 + 31 * 64 + 1 * 2 + 2 + 2048 = 4096) ∧
    (let f := mOp .b8 (.m 0) (.s 1) (.s 2)
     (let s := withS [(1, 0x3FC00), (2, 256)]
      MayRun s (ctxOf s) ∧ (sval s (ctxOf s) 2 f.idx).toNat = 256 ∧ (sval s (ctxOf s) 1 f.base + f.off.signExtend 64).toNat + 4 * 256 = 0x40000 ∧ accessWaits (ctxOf s) true false false = [] ∧ (s.core 0).gristPart = (ctxOf s).crew.part) ∧
     (let s := withS [(1, 0x3FC04), (2, 256)]
      MayRun s (ctxOf s) ∧ 0x40000 < (sval s (ctxOf s) 1 f.base + f.off.signExtend 64).toNat + 4 * 256)) := by
  refine ⟨⟨may_run (by decide +kernel), .inl ⟨_, rfl⟩, by decide +kernel⟩, ⟨may_run (by decide +kernel), by decide +kernel⟩, may_run (by decide +kernel), by decide +kernel⟩

/-- One crew of the partition on core 1, whose tile 0 expects the message of core 0 and crew 0, with the entry free, reserved, and absent. -/
def withPeer (a : Option Arming) (s : State) : State :=
  s.modCore 1 fun k => { k with crews := [{ standardCrew 0 1 7 with slot := 2, tiles := [⟨0, a, none, none⟩] }] }
def expecting (reserved : Option Nat) : Arming := ⟨true, [⟨0, 0, 0, reserved, none, none, false, false⟩], 0⟩

def inMask (m : Mask) (s : State) : State := s.modSplit ⟨0, 0, 0, 0⟩ fun p => { p with mask := m }

/-- Tile 3 of four; a sender; FP32 and BF16 drains with the residue up to the last word; mdrainp that each answer awaits; mstat of an unallocated tile. -/
theorem witness_MatrixWordsAccepted :
    (let s := withPaddle (withS [(1, 0x8001), (2, 0)])
     MayCommit s (ctxOf s) ∧ hasPaddle s (ctxOf s) ∧ tileReady s (ctxOf s) 3 ∧ senderBad (ctxOf s).r.core (sval s (ctxOf s) 1 (.s 1)) = false ∧ tilePoison s (ctxOf s) 3 = none) ∧
    (let f : RWord := ⟨false, .s 4, .acc 3, .s 1, .const 64, 0x108⟩
     let s := inMask 0x8000 (withPaddle (withS [(1, 0), (4, 0)]))
     MayCommit s (ctxOf s) ∧ hasPaddle s (ctxOf s) ∧ tileReady s (ctxOf s) 3 ∧ tilePoison s (ctxOf s) 3 = none ∧ f.mod.extractLsb' 6 3 = 4 ∧ drainOk (f.mod.getLsbD 1) (f.mod.extractLsb' 2 4) 4 = true ∧
       accessWaits (ctxOf s) true false false = [] ∧ (ctxOf s).crew.spadPoison = [] ∧
       drainFault (ctxOf s).crew (matrixRows s (ctxOf s) f.mod) (sval s (ctxOf s) 2 f.b).toNat (sval s (ctxOf s) 3 f.c).toNat ((fmtBits (f.mod.extractLsb' 2 4)).getD 32 / 8)
         (some (sval s (ctxOf s) 0 f.d).toNat) = none) ∧
    (let f : RWord := ⟨false, .m 0, .acc 3, .s 1, .s 2, 0⟩
     let s := withPaddle (withS [(1, 2048 - 128), (2, 0)])
     MayRun s (ctxOf s) ∧ hasPaddle s (ctxOf s) ∧ tileReady s (ctxOf s) 3 ∧ drainOk (f.mod.getLsbD 1) (f.mod.extractLsb' 2 4) 0 = true ∧
       drainFault (ctxOf s).crew (matrixRows s (ctxOf s) f.mod) (sval s (ctxOf s) 2 f.b).toNat (sval s (ctxOf s) 3 f.c).toNat ((fmtBits (f.mod.extractLsb' 2 4)).getD 32 / 8) none = none) ∧
    (∀ e ∈ [(some (expecting none), Consult.accept), (some (expecting (some 9)), .wait), (none, .wait)],
     let s := withPeer e.1 (withPaddle (withS [(1, 1 + 2 * 128)]))
     lives s = true ∧ groupDoomed s (ctxOf s).r.core (ctxOf s).crew (ctxOf s).g = false ∧ (sval s (ctxOf s) 2 (.s 1)).toNat = 1 + 2 * 128 ∧ accessWaits (ctxOf s) true false false = [] ∧ consult s 0 0 (ctxOf s).crew.part (ctxOf s).crew.task.launch 1 2 0 = e.2) ∧
    consult w0 0 0 0 0 1 2 0 = .refuse ∧
    (let s := inCrew fun w => { w with task := { w.task with shape := 0x70040 } }
     MayRun s (ctxOf s) ∧ (ctxOf s).crew.task.acc = 3) := by
  refine ⟨⟨may_commit (by decide +kernel), hasPaddle_of (by decide +kernel), tileReady_of (by decide +kernel), by decide +kernel⟩,
    ⟨may_commit (by decide +kernel), hasPaddle_of (by decide +kernel), tileReady_of (by decide +kernel), by decide +kernel⟩,
    ⟨may_run (by decide +kernel), hasPaddle_of (by decide +kernel), tileReady_of (by decide +kernel), by decide +kernel⟩, by decide +kernel, by decide +kernel, may_run (by decide +kernel), by decide +kernel⟩

/-- A format block at 0x8000: A of the format a, B of the format b. -/
def withBlock (a b : Nat) (s : State) : State := poke (walkedIn (withPaddle s)) [(0x8000, a), (0x8010, b)]

def blockWords (r : BlockRes) : List Dword := match r with | .ok ws _ => ws | .stop _ => []
def blockState (r : BlockRes) : State := match r with | .ok _ s => s | .stop _ => w0

/-- K of 256, of 0 and of 257; a run that ends at the last register and one past it; the last tile and one not allocated. -/
theorem witness_MultiplyAccumulateAccepted :
    (let s := withBlock 4 4 (withS [(1, 0x8000), (2, 0x40000 - 256)])
     let f : RWord := ⟨false, .acc 3, .m 192, .s 1, .s 2, 256⟩
     MayCommit s (ctxOf s) ∧ onCore (ctxOf s) f.a = true ∧ hasPaddle s (ctxOf s) ∧ accessWaits (ctxOf s) false false false = [] ∧ tileReady s (ctxOf s) 3 ∧ tilePoison s (ctxOf s) 3 = none ∧
       (s.core 0).gristPart = (ctxOf s).crew.part ∧ (s.core 0).bankPart = (ctxOf s).crew.part ∧ f.mod.toNat % 512 = 256 ∧
       ∃ ws s2, readBlock s (ctxOf s) (sval s (ctxOf s) 2 f.b) = .ok ws s2 ∧ blockChecks s2 (ctxOf s) f 256 ws = none ∧
         (32 * (ctxOf s).crew.task.regs < 193 + ceilDiv (256 * (fmtBits (descEf (ws.getD 0 0))).getD 0) 32 ∧ descEf (ws.getD 0 0) ≠ 12 ∧ (fmtBits (descEf (ws.getD 0 0))).isSome)) ∧
    ((257 : BitVec 12).toNat % 512 = 257 ∧ (512 : BitVec 12).toNat % 512 = 0) ∧
    (let s := inCrew fun w => { w with task := { w.task with shape := 0x70040 } }
     MayCommit s (ctxOf s) ∧ (ctxOf s).crew.task.acc = 3) := by
  refine ⟨⟨may_commit (by decide +kernel), by decide +kernel, hasPaddle_of (by decide +kernel), by decide +kernel, tileReady_of (by decide +kernel), by decide +kernel, by decide +kernel,
      by decide +kernel, by decide +kernel, blockWords (readBlock (withBlock 4 4 (withS [(1, 0x8000), (2, 0x40000 - 256)])) (ctxOf (withBlock 4 4 (withS [(1, 0x8000), (2, 0x40000 - 256)]))) 0x8000),
      blockState (readBlock (withBlock 4 4 (withS [(1, 0x8000), (2, 0x40000 - 256)])) (ctxOf (withBlock 4 4 (withS [(1, 0x8000), (2, 0x40000 - 256)]))) 0x8000), by decide +kernel⟩,
    by decide, may_commit (by decide +kernel), by decide +kernel⟩

/-- A group at another stage; the paddle absent, with the crew, with another; the next group alive. -/
theorem witness_PassAndPaddle :
    (let s := inCrew fun w => { w with round := 1, task := { w.task with shape := w.task.shape ||| 1 }, groups := w.groups ++ w.groups.map fun g => { g with gid := 1 } }
     MayCommit s (ctxOf s) ∧ (ctxOf s).crew.stage (ctxOf s).r.gid ≠ 0) ∧
    (let s := withTiles w0
     MayCommit s (ctxOf s) ∧ (ctxOf s).crew.stage (ctxOf s).r.gid = 0 ∧ (s.core 0).paddle = none ∧ (s.core 0).paddleReq = [] ∧ tileReady s (ctxOf s) 3) ∧
    (let s := (inCrew fun w => { w with task := { w.task with shape := w.task.shape ||| 1 }, groups := w.groups ++ w.groups.map fun g => { g with gid := 1 } }).modCore 0 fun k =>
       { k with paddle := some 0, paddleReq := [5] }
     MayCommit s (ctxOf s) ∧ (ctxOf s).crew.stage (ctxOf s).r.gid = 0 ∧ (s.core 0).paddle = some (ctxOf s).r.crew ∧ accessWaits (ctxOf s) true true false = [] ∧
       ((ctxOf s).crew.groups.any fun g => g.live && ({ (ctxOf s).crew with round := (ctxOf s).crew.round + 1 } : Crew).stage g.gid == 0) = true ∧ (s.core 0).paddleReq = [5]) ∧
    (let s := inCore fun k => { k with paddle := some 5 }
     MayCommit s (ctxOf s) ∧ (ctxOf s).crew.stage (ctxOf s).r.gid = 0 ∧ (s.core 0).paddle = some 5 ∧ (s.core 0).passed = none ∧ (5 : Nat) ≠ (ctxOf s).r.crew ∧
       ((ctxOf s).r.crew ∈ (s.core 0).paddleReq) = False) ∧
    (let s := (withTiles w0).modCore 0 fun k => { k with paddle := some 5, passed := some 5 }
     MayCommit s (ctxOf s) ∧ (ctxOf s).crew.stage (ctxOf s).r.gid = 0 ∧ (s.core 0).paddle = some 5 ∧ (s.core 0).passed = some 5 ∧ (5 : Nat) ≠ (ctxOf s).r.crew ∧ (s.core 0).paddleReq = [] ∧
       tileReady s (ctxOf s) 3) := by
  refine ⟨⟨may_commit (by decide +kernel), by decide +kernel⟩, ⟨may_commit (by decide +kernel), by decide +kernel, by decide +kernel, by decide +kernel, tileReady_of (by decide +kernel)⟩,
    ⟨may_commit (by decide +kernel), by decide +kernel⟩, ⟨may_commit (by decide +kernel), by decide +kernel, by decide +kernel, by decide +kernel, by decide +kernel, ?_⟩,
    may_commit (by decide +kernel), by decide +kernel, by decide +kernel, by decide +kernel, by decide +kernel, by decide +kernel, tileReady_of (by decide +kernel)⟩
  simp only [eq_iff_iff, iff_false]
  decide +kernel

/-- One crew's spare room for an image: SPAD 26 with the image at 0. -/
def wide (s : State) : State := s.modCrew 0 0 fun w => { w with task := { w.task with shape := 0x901A0 } }

/-- A table at the last place below the ring; an image that ends at the ring, read back as it was written and as nothing has written it; NF4 closed to the partition. -/
theorem witness_TablesAndImages :
    (let s := withS [(1, 2016)]
     MayCommit s (ctxOf s) ∧ (ctxOf s).crew.spadPoison = [] ∧ ((s.part (ctxOf s).crew.part).capmask.getD 2 (BitVec.allOnes 64)).getLsbD 2 = true ∧
       (sval s (ctxOf s) 1 (.s 1)).toNat + 32 + 2048 = (ctxOf s).crew.task.spad * 1024 ∧ accessWaits (ctxOf s) false false false = [] ∧
       (s.core 0).bankPart = (ctxOf s).crew.part ∧ (s.modCore 0 fun k => { k with bankPart := 5 }).core 0 = { s.core 0 with bankPart := 5 } ∧ (s.core 0).ctabPend = []) ∧
    (let s := (withS [(1, 2016)]).modPart 0 fun x => { x with capmask := Vector.replicate 8 0xFFFFFFFFFFFFFFFB }
     MayCommit s (ctxOf s) ∧ ((s.part (ctxOf s).crew.part).capmask.getD 2 (BitVec.allOnes 64)).getLsbD 2 = false) ∧
    (let s := zeroed (wide (withPaddle (withS [(1, 0)])))
     MayCommit s (ctxOf s) ∧ hasPaddle s (ctxOf s) ∧ (ctxOf s).crew.spadPoison = [] ∧ (sval s (ctxOf s) 1 (.s 1)).toNat + 24576 + 2048 = (ctxOf s).crew.task.spad * 1024 ∧
       accessWaits (ctxOf s) true false false = [] ∧ tunFull (s.core 0) = false ∧ canonical s ∧ (s.core 0).tun = [] ∧
       (let img := (ctxOf s).crew.spadRead 0 64
        ∀ rest, imageBad (ctxOf s).crew.part img rest = true)) := by
  refine ⟨⟨may_commit (by decide +kernel), by decide +kernel⟩, ⟨may_commit (by decide +kernel), by decide +kernel⟩, may_commit (by decide +kernel), hasPaddle_of (by decide +kernel),
    by decide +kernel, by decide +kernel, by decide +kernel, by decide +kernel, canonical_of (by decide +kernel), by decide +kernel, fun rest => ?_⟩
  have h : (leNat (((ctxOf (zeroed (wide (withPaddle (withS [(1, 0)]))))).crew.spadRead 0 64).take 2) != 1) = true := by decide +kernel
  unfold imageBad
  simp only [h, Bool.true_or]

/-- A header for partition 0 with this CRC; every other byte of the image is zero. -/
def headerBytes (k : Word) : Memory := (0, 1) :: ((leBytes 4 k.toNat).zipIdx 16).map fun x => (x.2, x.1)
def bodyZero : List Byte := List.replicate 24512 0
/-- The crew with room for an image, and such an image in its scratchpad. -/
def withImage (s : State) : State := (wide s).modCrew 0 0 fun w => { w with spad := headerBytes (Config.freezeCrc bodyZero), spadZero := true }

theorem word_bytes (k : Word) : BitVec.ofNat 32 (leNat (leBytes 4 k.toNat)) = k := by
  apply BitVec.eq_of_toNat_eq
  simp only [leNat, leBytes, BitVec.toNat_ofNat]
  omega

theorem image_of {w : Crew} {k : Word} (hs : w.spad = headerBytes k) (hz : w.spadZero = true) :
    (w.spadRead 0 24576).drop 64 = bodyZero ∧ (w.spadRead 0 24576).take 64 = [1] ++ List.replicate 15 0 ++ leBytes 4 k.toNat ++ List.replicate 44 0 := by
  have hb : ∀ i, 20 ≤ i → w.spadByte i = 0 := by
    intro i hi
    unfold Crew.spadByte
    rw [hs, hz]
    simp only [headerBytes, leBytes, List.zipIdx_cons, List.zipIdx_nil, List.map_cons, List.map_nil, SMap.get]
    repeat (first | rw [if_neg (by omega)] | rfl)
  constructor
  · apply List.ext_getElem
    · rw [Crew.spadRead, bodyZero, List.length_drop, List.length_map, List.length_range, List.length_replicate]
    · intro i h1 h2
      simp only [Crew.spadRead, List.getElem_drop, List.getElem_map, List.getElem_range, bodyZero, List.getElem_replicate]
      exact hb _ (by omega)
  · have hr : (w.spadRead 0 24576).take 64 = w.spadRead 0 64 := by simp [Crew.spadRead, ← List.map_take, List.take_range]
    rw [hr]
    simp only [Crew.spadRead, Crew.spadByte, hs, hz]
    rfl

/-- An image that mrest accepts. -/
theorem witness_ImageRead :
    let s := withImage (withPaddle (withS [(1, 0)]))
    MayCommit s (ctxOf s) ∧ hasPaddle s (ctxOf s) ∧ (ctxOf s).crew.spadPoison = [] ∧ (sval s (ctxOf s) 1 (.s 1)).toNat = 0 ∧ accessWaits (ctxOf s) true false false = [] ∧ tunFull (s.core 0) = false ∧ (s.core 0).tun = [] ∧
      imageBad (ctxOf s).crew.part (((ctxOf s).crew.spadRead 0 24576).take 64) (((ctxOf s).crew.spadRead 0 24576).drop 64) = false ∧
      imageWork s (((ctxOf s).crew.spadRead 0 24576).drop 64) = [] := by
  intro s
  obtain ⟨h1, h2⟩ := image_of (w := (ctxOf s).crew) (k := Config.freezeCrc bodyZero) rfl rfl
  refine ⟨may_commit (by decide +kernel), hasPaddle_of (by decide +kernel), by decide +kernel, by decide +kernel, by decide +kernel, by decide +kernel, by decide +kernel, ?_, rfl⟩
  rw [h1, h2]
  have hw := word_bytes (Config.freezeCrc bodyZero)
  simp only [imageBad, Bool.or_eq_false_iff]
  refine ⟨⟨⟨⟨⟨rfl, rfl⟩, rfl⟩, ?_⟩, rfl⟩, ?_⟩
  · rfl
  · simp only [bne_eq_false_iff_eq]
    exact hw
/-! ## Witnesses: management, host interface and link events -/

/-- Partition p enabled. -/
def onPart (p : Nat) (s : State) : State := s.modPart p fun x => { x with pcfg0 := x.pcfg0 ||| 0x8000000000000000 }

/-- Fences at rest and a fence that runs, for each register; a frame owned and not; thresholds at and beyond each limit; a port of the partition's fence and another. -/
theorem witness_ManagementWrites :
    (∀ v : Dword, atRest w0 (fmapMoves w0 v) ∧ atRest w0 (fwallMoves w0 v) ∧ atRest w0 (ppmapMoves w0.ppmap0 v)) ∧
    (let s := onPart 3 w0
     ¬atRest s (fmapMoves s 1) ∧ ¬atRest s (fwallMoves s 1) ∧ ¬atRest s (ppmapMoves s.ppmap0 8) ∧ ¬atRest s (ppmapMoves s.ppmap1 0x800000000000)) ∧
    (linkIn 0xC0000 9 = 3 ∧ ∀ i < 10, linkIn 0x80000 i ≠ 3) ∧
    (let s := { peerIn w0 with ppmap0 := 8 }
     (s.port 0).down = false ∧ 8 ≤ portIn s.ppmap0 0 ∧ portIn 0 0 < 8) ∧
    (let s := walkedIn w0
     partOn s 0 = false ∧ s.ownsFrame 0 0 = true ∧ s.ownsFrame 1 0 = false ∧ partOn (onPart 0 s) 0 = true) ∧
    (let s := onPart 0 (peerIn w0)
     partOn s 0 = true ∧ portFence s 0 = some (fenceOf s 0) ∧ portFence s 23 ≠ some (fenceOf s 0) ∧ (0x8000000000000000 : Dword).getLsbD 63 = true) ∧
    (let s := { w0 with ppmap0 := 8 }
     (portFence s 0).isSome = true ∧ (s.port 0).down = true ∧ (s.port 0).train = false) ∧ (0x1000000 : Dword).extractLsb' 24 40 ≠ 0 := by
  have hoff : ∀ p < 64, partOn w0 p ≠ true := by decide +kernel
  refine ⟨fun v => ⟨fun p hp h => absurd h (hoff p hp), fun p hp h => absurd h (hoff p hp), fun p hp h => absurd h (hoff p hp)⟩, ?_, by decide +kernel, by decide +kernel, by decide +kernel,
    by decide +kernel, by decide +kernel, by decide⟩
  refine ⟨fun h => h 3 (by decide) (by decide +kernel) ⟨0, by decide +kernel⟩, fun h => h 3 (by decide) (by decide +kernel) ⟨0, by decide +kernel⟩,
    fun h => h 3 (by decide) (by decide +kernel) ⟨0, by decide +kernel⟩, fun h => h 3 (by decide) (by decide +kernel) ⟨11, by decide +kernel⟩⟩

/-- AQI counts of 32 and 33; a partition that runs, idle and with another count; the last frame free, owned, and being zeroed. -/
theorem witness_PartitionsAndFrames :
    (let s := walkedIn w0
     partOn s 0 = false ∧ mayEnable s 0 (pcfg0Of s 0 0x8080000000000000) ∧ ¬mayEnable s 0 (pcfg0Of s 0 0x8084000000000000) ∧ (∀ d < 8, (s.die d).cancels = []) ∧ s.snapPagesIn (s.sctbBase 0) (s.sctbBase 0 + 2 ^ 21) = []) ∧
    (let s := onPart 0 { w0 with cores := [(5, Core.reset)] }
     partOn s 0 = true ∧ (pcfg0Of s 0 0x0020001000000000).extractLsb' 50 9 = (s.part 0).pcfg0.extractLsb' 50 9 ∧ (pcfg0Of s 0 0).extractLsb' 50 9 ≠ (s.part 0).pcfg0.extractLsb' 50 9 ∧
       idlePart s 0 ∧ ∃ x ∈ s.cores, x.1 = 5) ∧
    ((w0.fownOf 767).getLsbD 6 = false ∧ (w0.fownOf 767).getLsbD 7 = false ∧ fenceOf w0 63 = fidIn w0.fmap (767 / 96)) ∧
    (let s := { w0 with fown := [(767, 0xC0)] }
     (s.fownOf 767).getLsbD 6 = true ∧ (s.fownOf 767).getLsbD 7 = true) ∧
    (w0.fn 63).fqctl.getLsbD 63 = false := by
  refine ⟨⟨by decide +kernel, ?_, ?_, by decide +kernel⟩, ⟨by decide +kernel, by decide +kernel, by decide +kernel, ?_, by decide +kernel⟩, by decide +kernel, by decide +kernel, by decide +kernel⟩
  · unfold mayEnable; decide +kernel
  · unfold mayEnable; decide +kernel
  · unfold idlePart; decide +kernel

/-- An AQI of function 0: enabled with a ring of 64 slots at host page 0, one slot filled. -/
def aqiIn (a : Aqi) (s : State) : State := s.setFn 0 { s.fn 0 with aqis := [(0, a)], pwinLim := 0x2000 }
def ringAqi : Aqi := { Aqi.reset with ctl := 0xD, tail := 1 }
/-- The host page of the ring translated, with words in its first slot. -/
def slotIn (l : List (Nat × Nat)) (s : State) : State :=
  { s with ats := [⟨0, 0, 0, 0x5000, 4096, true, true, 0⟩], host := l.foldl (fun m e => m.setBytes (0x5000 + 8 * e.1) (leBytes 8 e.2)) s.host }
theorem notOpen_of {s : State} {tok : Word}
    (h : (s.dies.isEmpty && s.cores.all fun x => x.2.crews.all fun w => w.groups.all fun g => g.openToken != some tok) = true) : notOpen s tok := by
  simp only [Bool.and_eq_true, List.isEmpty_iff, List.all_eq_true, bne_iff_ne] at h
  exact ⟨h.2, fun x hx => by rw [h.1] at hx; simp at hx⟩

/-- A group parked by the fault queue under TOKEN 1, stopped or not. -/
def tokenIn (stopped : Bool) : State := inGroup fun g => { g with fwait := some (.queue 1 false), stopped := stopped }

/-- A NOP packet that has completed and asks for a record. -/
def endedNop : Packet := ⟨7, 0, 0, #v[0, 0x40, 0, 0, 0, 0, 0, 0], 0, 0, true, some (List.replicate 8 0), 0, none, [], false⟩

theorem witness_FunctionRegisters :
    (let s := walkedIn w0
     (∀ n < 32, (s.aqi 0 n).en = false) ∧ s.holdsFrame 0 0 = true ∧ s.holdsFrame 0 (2 ^ 30) = false ∧ (s.fn 0).gcmd.getLsbD 63 = false ∧ s.asEntry? 0 0 = some 0 ∧
       s.asEntry? 0 (2 ^ 20 - 1) = none ∧ ((s.modFn 0 fun x => { x with gcmd := 0x8000000000000000 }).fn 0).gcmd.getLsbD 63 = true) ∧
    (∃ n, n < 32 ∧ ((aqiIn ringAqi w0).aqi 0 n).en = true) ∧
    ((w0.fn 0).fqctl.getLsbD 63 = false ∧ (w0.fn 0).posts = [] ∧ ((w0.fn 0).fqhead.extractLsb' 16 4).toNat = 6 ∧ ¬ringInWindow w0 0 0 6 ∧ ringInWindow (aqiIn ringAqi w0) 0 0 6 ∧
       ringInWindow (aqiIn ringAqi w0) 0 0x1000 6 ∧ ¬ringInWindow (aqiIn ringAqi w0) 0 0x1000 7) ∧
    (∀ b : Bool, notOpen (tokenIn b) 1) ∧ (∀ b : Bool, ∃ g, tokenAt? (tokenIn b) 0 1 = some (0, 0, g) ∧ (tokenIn b).group? 0 0 g.gid = some g ∧ g.stopped = b) ∧
    (let s := onPart 0 (aqiIn ringAqi w0)
     aqiCount s 0 = 8 ∧ (s.aqi 0 0).en = true ∧ (s.aqi 0 0).halt = false ∧ (s.aqi 0 7).en = false ∧ (s.fn 0).pasidOn = true ∧ (s.aqi 0 0).size = 64) ∧
    (let s := slotIn [(0, 0), (1, 0)] (onPart 0 (aqiIn ringAqi w0))
     mayFetch s 0 0 ∧ ((BitVec.ofNat 64 (slotWord s 0 0 0)).extractLsb' 28 16 = (s.aqi 0 0).nextseq ∧ ((BitVec.ofNat 64 (slotWord s 0 0 0)).extractLsb' 44 20).toNat = (s.aqi 0 0).pasid ∧
       (BitVec.ofNat 64 (slotWord s 0 0 0)).extractLsb' 0 28 = 0 ∧ slotWord s 0 0 1 % 64 = 0 ∧ ∀ i < 8, 2 ≤ i → slotWord s 0 0 i = 0)) ∧
    (let s := slotIn [(0, 0x10000000)] (onPart 0 (aqiIn ringAqi w0))
     mayFetch s 0 0 ∧ (BitVec.ofNat 64 (slotWord s 0 0 0)).extractLsb' 28 16 ≠ (s.aqi 0 0).nextseq ∧ ¬slotTimeOver s 0 0) ∧
    (let s := { slotIn [(0, 0x10000000)] (onPart 0 (aqiIn { ringAqi with bells := [(1, 0)] } w0)) with times := Vector.replicate 34 16000 }
     mayFetch s 0 0 ∧ (BitVec.ofNat 64 (slotWord s 0 0 0)).extractLsb' 28 16 ≠ (s.aqi 0 0).nextseq ∧ slotTimeOver s 0 0) ∧
    (let s := slotIn [(0, 0x100000000000)] (onPart 0 (aqiIn ringAqi w0))
     mayFetch s 0 0 ∧ (BitVec.ofNat 64 (slotWord s 0 0 0)).extractLsb' 28 16 = (s.aqi 0 0).nextseq ∧ ((BitVec.ofNat 64 (slotWord s 0 0 0)).extractLsb' 44 20).toNat ≠ (s.aqi 0 0).pasid) ∧
    (let s := { w0 with packets := [endedNop] }
     s.packet? endedNop.id = some endedNop ∧ endedNop.comp ≠ none ∧ endedNop.crec ≠ 0 ∧ endedNop.vec = none ∧ (∀ x ∈ s.packets, endedNop.after.contains x.id = false)) ∧
    (let s := hostIn { w0 with packets := [endedNop] }
     s.hostMapped endedNop.fn endedNop.pasid.toNat endedNop.crec 64 true = none) := by
  refine ⟨by decide +kernel, ⟨0, by decide +kernel⟩, ?_, fun b => notOpen_of (by cases b <;> decide +kernel),
    fun b => ⟨(ctxOf (tokenIn b)).g, by cases b <;> decide +kernel⟩, by decide +kernel, ?_, ⟨?_, by decide +kernel, ?_⟩, ⟨?_, by decide +kernel, (1, 0), [], by decide +kernel⟩, ?_, by decide +kernel,
    by decide +kernel⟩
  · unfold ringInWindow; decide +kernel
  · unfold mayFetch; decide +kernel
  · unfold mayFetch; decide +kernel
  · rintro ⟨b, l, h, -⟩
    rw [show ((slotIn [(0, 0x10000000)] (onPart 0 (aqiIn ringAqi w0))).aqi 0 0).bells = [] by decide +kernel] at h
    exact nomatch h
  · unfold mayFetch; decide +kernel
  · unfold mayFetch; decide +kernel

/-- A packet of function 0, accepted, with these words. -/
def packetOf (w : Vector Dword 8) : Packet := ⟨7, 0, 0, w, 0, 0, false, none, 0, none, [], false⟩
def withPacket (k : Packet) (s : State) : State := { s with packets := [k] }
/-- Snapshot 0 of partition 0 over page 0x20, its journal and map in the pages at 0x40000 and 0x41000. -/
def snapOf (phase : SnapPhase) (over_ : Bool) : Snap := ⟨phase, 0, 0x20000, 1, 0x40000, 1, 0, over_, 7, [0x20000], [0x40000, 0x41000]⟩
def withSnap (n : Snap) (s : State) : State := s.modPart 0 fun x => { x with snaps := vmod x.snaps 0 fun _ => n }

def xerrOf (r : XRes) : XErr := match r with | .err e => e | .ok _ => .notPresent

theorem may_start {s : State} {k : Packet} {op : Nat} (h : (s.packet? k.id == some k && ((k.word 0).extractLsb' 16 8).toNat == op && !k.begun && k.comp.isNone && !(k.word 0).getLsbD 9) = true) :
    mayStart s k op := by
  simp only [Bool.and_eq_true, beq_iff_eq, Bool.not_eq_true', Option.isNone_iff_eq_none] at h
  obtain ⟨⟨⟨⟨h1, h2⟩, h3⟩, h4⟩, h5⟩ := h
  exact ⟨h1, h2, h3, h4, fun hf => absurd hf (by rw [h5]; decide)⟩

/-- Every packet ready to start, with the states that its clauses separate. -/
theorem witness_PacketsExecute :
    (let k := packetOf #v[0, 0, 0, 0, 0, 0, 0, 0]
     mayStart (withPacket k w0) k 0) ∧
    (let k := packetOf #v[0x10000, 0, 0x1080, 5, 0, 0, 0, 0]
     let s := withPacket k (tasks w0)
     mayStart s k 1 ∧ (s.scope 0 5).st = .free ∧ rootFault s 0 0 0x1080 = none ∧ ((k.word 3).extractLsb' 0 16).toNat = 5 ∧ s.queueRoom 0 0 = true ∧
       mayStart (withPacket k (crowded 2048 1048576)) k 1 ∧ (withPacket k (crowded 2048 1048576)).queueRoom 0 0 = false) ∧
    (let k := packetOf #v[0x10000, 0, 0x1040, 5, 0, 0, 0, 0]
     let s := withPacket k (tasks w0)
     mayStart s k 1 ∧ (s.scope 0 5).st = .free ∧ rootFault s 0 0 (k.word 2) = some 0x88 ∧ ((withScopes .opened .cancelling 1 s).scope 0 5).st = .cancelling) ∧
    (let k := packetOf #v[0x20000, 0, 5, 0, 0, 0, 0, 0]
     let s := withScopes .opened .opened 1 (withPacket k w0)
     mayStart s k 2 ∧ (s.scope 0 5).st = .opened ∧ s.inSubtree 0 5 15 5 = true ∧ (s.scope 0 5).pend ≠ 0xFFFFFFFF ∧ ((withPacket k w0).scope 0 5).st = .free ∧
       ({ s with scopes := [(5, { ScopeEnt.free with st := .opened, pend := 0xFFFFFFFF })] }.scope 0 5).pend = 0xFFFFFFFF) ∧
    (let k := packetOf #v[0x30000, 0, 0x3FFFFFF8, 1, 0, 0, 0, 0]
     let s := withPacket k (walkedIn w0)
     mayStart s k 3 ∧ s.devCheck 104 0 0 (k.word 2) 8 .write true false = .ok 0x3FFFFFF8 ∧ s.devPoisoned 0x3FFFFFF8 8 = false ∧ s.cells.contains 0x3FFFFFF8 = false ∧
       ({ s with poison := [0x3FFFFFF8 / 64] } : State).devPoisoned 0x3FFFFFF8 8 = true ∧ ∃ x, (withPacket k w0).devCheck 104 0 0 (k.word 2) 8 .write true false = .err x) ∧
    (let k := packetOf #v[0x100000, 0, 0x20000, 1, 0x40000, 1, 0, 0]
     let s := withPacket k (walkedIn w0)
     mayStart s k 0x10 ∧ (s.snap 0 0).phase = .free ∧ (∀ j < 8, (s.snap 0 j).phase = .free) ∧ (∀ x < 2, ∃ pa, physPage s 0 0 (0x40000 + 4096 * x) .write = some pa ∧ s.snapPagesIn pa (pa + 4096) = []) ∧
       physPage (withPacket k w0) 0 0 0x40000 .write = none ∧ ((withSnap (snapOf .holding false) s).snap 0 0).phase ≠ .free) ∧
    (let k := packetOf #v[0x100000, 0, 0x20000, 1, 0x20000, 0, 0, 0]
     mayStart (withPacket k w0) k 0x10 ∧ min ((k.word 5).extractLsb' 0 32).toNat (2 ^ 30) = 0) ∧
    (let k := packetOf #v[0x100000, 0, 0x20000, 1, 0x20000, 1, 0, 0]
     let s := withSnap (snapOf .holding false) (withPacket { k with begun := true } w0)
     (s.snap 0 0).phase = .holding ∧ (s.snap 0 0).pkt = k.id ∧ s.packet? k.id = some { k with begun := true } ∧ k.fn = 0) ∧
    (let k := packetOf #v[0x110000, 0, 0, 0, 1, 0, 0, 0]
     let s := withSnap (snapOf .active false) (hostIn (withPacket k w0))
     mayStart s k 0x11 ∧ (s.snap 0 (snapId (k.word 2))).phase = .active ∧ (s.snap 0 0).overflowed = false ∧ k.pos = 0 ∧ (k.word 4).toNat = 1 ∧ 0 < (s.snap 0 0).pages ∧
       pageTaken s (s.snap 0 0) 0 = false ∧ s.hostMapped 0 0 0 4096 true = none ∧ pageTaken (poke s [(0x41000, 0x80000000)]) (s.snap 0 0) 0 = true ∧ (poke s [(0x41000, 0x80000000)]).devPoisoned (State.mapWord (s.snap 0 0) 0) 4 = false ∧
       ((withSnap (snapOf .active true) s).snap 0 0).overflowed = true ∧ ((withPacket k w0).snap 0 0).phase ≠ .active) ∧
    (let k := packetOf #v[0x120000, 0, 0, 0, 0, 0, 0, 0]
     let s := withSnap (snapOf .active false) (withPacket k w0)
     mayStart s k 0x12 ∧ noStream s 0 0 ∧ (s.snap 0 (snapId (k.word 2))).phase = .active ∧ ((withPacket k w0).snap 0 0).phase ≠ .active) ∧
    (let k := { packetOf #v[0x100, 0x40, 0, 0, 0, 0, 0, 0] with begun := true, comp := some [1, 2, 3, 4, 5, 6, 7, 8] }
     let s := hostIn (withPacket k w0)
     s.packet? k.id = some k ∧ k.comp = some [1, 2, 3, 4, 5, 6, 7, 8] ∧ k.vec = none ∧ (∀ x ∈ s.packets, k.after.contains x.id = false) ∧ k.crec = 0x40 ∧ s.hostMapped 0 0 0x40 64 true = none ∧ (k.word 0).getLsbD 8 = true) := by
  refine ⟨may_start (by decide +kernel),
    ⟨may_start (by decide +kernel), by decide +kernel, by decide +kernel, by decide +kernel, by decide +kernel, may_start (by decide +kernel), crowded_full (Nat.le_refl _) (Nat.le_refl _)⟩, ⟨may_start (by decide +kernel), by decide +kernel⟩, ⟨may_start (by decide +kernel), by decide +kernel⟩,
    ⟨may_start (by decide +kernel), by decide +kernel, by decide +kernel, by decide +kernel, by decide +kernel, xerrOf ((withPacket (packetOf #v[0x30000, 0, 0x3FFFFFF8, 1, 0, 0, 0, 0]) w0).devCheck 104 0 0 0x3FFFFFF8 8 .write true false), by decide +kernel⟩,
    ⟨may_start (by decide +kernel), by decide +kernel⟩, ⟨may_start (by decide +kernel), by decide +kernel⟩, by decide +kernel, ⟨may_start (by decide +kernel), by decide +kernel⟩,
    ⟨may_start (by decide +kernel), ?_, by decide +kernel⟩, by decide +kernel⟩
  unfold noStream; decide +kernel

/-- Function 0 with requests outstanding. -/
def withFn (f : Fn → Fn) (s : State) : State := s.modFn 0 f
def atsSmall : AtsAnswer := ⟨0x7000, 12, true, true⟩
def leafOf (r : WalkRes) : Leaf := match r with | .leaf l => l | .err _ => ⟨0, 0, 0, false, false⟩
def walkErr (r : WalkRes) : XErr := match r with | .err e => e | .leaf _ => .notPresent
/-- A load of an s register outstanding with an address. -/
def loadOut : Out := { someOut .load none with addrs := [(0, 0x1000)], scalar := true, dst := some (.s 3), dests := [(.s 3, .sc 9)], tag := some ⟨0x54, some 5⟩ }

/-- A request outstanding for a page, its answers; the pages of PASID 0 walked at both ends and where nothing is mapped; an access that a stale tag rejects. -/
theorem witness_TranslationEvents :
    (let s := withFn (fun x => { x with atsReq := [(0, 5, true)] }) w0
     (s.fn 0).atsReq = [(0, 0x5000 / 4096, true)] ∧ (s.fn 0).posts = [] ∧ 12 ≤ atsSmall.size ∧ atsSmall.write = true ∧ (s.fn 0).priOn = true ∧ (s.fn 0).pri.length < 64 ∧ nobodyWaits s) ∧
    (let s := withFn (fun x => { x with pri := [(0, 5, true)] }) (inGroup fun g => { g with fwait := some (.pri 0 0 5) })
     (s.fn 0).pri = [(0, 5, true)] ∧ (s.fn 0).posts = [] ∧ s.group? 0 0 0 = some (ctxOf s).g ∧ (ctxOf s).g.live = true ∧ (ctxOf s).g.fwait = some (.pri 0 0 5)) ∧
    (let s := withFn (fun x => { x with pri := [(0, 5, true)] }) w0
     (s.fn 0).pri = [(0, 5, true)] ∧ (∀ n < 32, (s.aqi 0 n).en = false) ∧ nobodyWaits s ∧ ¬250000000 ≤ s.ageOf (.page 0 0 5 true) ∧
       250000000 ≤ ({ s with since := [(.page 0 0 5 true, 0)], times := Vector.replicate 34 250000000 } : State).ageOf (.page 0 0 5 true)) ∧
    ((walkedIn w0).walkBy (some 0) 0 0 0x3FFFFFFF = .leaf (leafOf ((walkedIn w0).walkBy (some 0) 0 0 0)) ∧ (walkedIn w0).walkBy (some 0) 0 0 0x40000000 = .err (walkErr ((walkedIn w0).walkBy (some 0) 0 0 0x40000000)) ∧
      (0x3FFFFFFF : Dword).toNat < 2 ^ 57) ∧
    ((w0.fn 0).inval = [] ∧ (∀ x ∈ w0.allCrews, ∀ g ∈ x.2.groups, g.outs = []) ∧
      (let o := { someOut .load (some .host) with host := true }
       let s := inGroup fun g => { g with outs := [o] }
       (s.fn 0).inval = [] ∧ o.host = true ∧ ∃ x ∈ s.allCrews, x.2.part = 0 ∧ x.2.pasid.toNat = 0 ∧ ∃ g ∈ x.2.groups, o ∈ g.outs)) ∧
    (let s := (inGroup fun g => { g with outs := [loadOut] }).modSplit ⟨0, 0, 0, 0⟩ fun p => { p with stale := 254 }
     let c := ctxOf s
     s.crew? 0 0 = some c.crew ∧ c.crew.group? 0 = some c.g ∧ c.g.split? 0 = some c.sp ∧ c.g.live = true ∧ c.g.outs = [loadOut] ∧ loadOut.split = 0 ∧ loadOut.host = false ∧
       loadOut.tag = some ⟨0x54, some 5⟩ ∧ s.genOf c.crew.part c.crew.pasid.toNat ≠ 5 ∧ c.sp.stale < 255 ∧ c.g.handler = none ∧ c.g.pendTrap = none ∧
       c.g.holdUntil ≤ (s.core 0).cyc.toNat ∧ (∀ q ∈ s.issueQ, ¬(q.r.core = 0 ∧ q.r.crew = 0 ∧ q.r.gid = 0))) ∧
    (let s := inGroup fun g => { g with outs := [{ loadOut with tag := some ⟨0x54, some 0⟩ }] }
     s.crew? 0 0 = some (ctxOf s).crew ∧ s.genOf (ctxOf s).crew.part (ctxOf s).crew.pasid.toNat = 0) := by
  have hw : nobodyWaits w0 := by
    refine ⟨by decide +kernel, fun d x hx => ?_, fun d x hx => ?_, by decide +kernel⟩
    · rw [show w0.dies = [] by decide +kernel] at hx; simp at hx
    · rw [show w0.clusters = [] by decide +kernel] at hx; simp at hx
  exact ⟨⟨by decide +kernel, by decide +kernel, by decide +kernel, by decide +kernel, by decide +kernel, by decide +kernel, hw⟩, by decide +kernel, ⟨by decide +kernel, by decide +kernel, hw, by decide +kernel⟩,
    by decide +kernel, ⟨by decide +kernel, by decide +kernel, by decide +kernel, by decide +kernel, (0, (ctxOf (inGroup fun g => { g with outs := [{ someOut .load (some .host) with host := true }] })).crew),
      by decide +kernel, by decide +kernel, by decide +kernel, (ctxOf (inGroup fun g => { g with outs := [{ someOut .load (some .host) with host := true }] })).g, by decide +kernel⟩,
    by decide +kernel, by decide +kernel⟩

/-- A flit with its CRC. -/
def sealedFlit (f : Flit) : Flit := { f with crc := Config.flitCrc (flitBody f) }
def flitOf (seq : BitVec 12) (kind : FlitKind) (len : BitVec 5) : Flit := ⟨0, 0, seq, 0xFFF, 0, 0, kind, len, 0⟩
/-- Port 0 up, with a flit sent and not acknowledged. -/
def withPort (f : Port → Port) (s : State) : State := s.setPort 0 (f { Port.reset with down := false })

/-- A good flit of each kind and the longest; one too long, and one out of order; a retry buffer at its last place; PPAS set and not. -/
theorem witness_LinkEvents :
    (let s := withPort (fun p => { p with retry := List.replicate 511 (flitOf 1 .data 1) }) w0
     (s.port 0).down = false ∧ (s.port 0).resend = [] ∧ (s.port 0).retry.length = 511 ∧ (s.port 0).stopTx.getLsbD 3 = false) ∧
    (let s := withPort (fun p => { p with resend := [flitOf 1 .data 1] }) w0
     (s.port 0).down = false ∧ (s.port 0).resend = [flitOf 1 .data 1]) ∧
    (let s := withPort (fun p => { p with retry := [flitOf 1 .data 1], rxSeq := 0xFFF }) w0
     let bad := fun (f : Flit) => f.crc ≠ Config.flitCrc (flitBody f) ∨ f.kind = .reserved ∨ 30 < f.len.toNat ∨ f.reserved ≠ 0 ∨ f.stop.getLsbD 1 = true ∨ f.stop.getLsbD 3 = true ∨
      f.fseq ≠ (s.port 0).rxSeq + 1
     (s.port 0).down = false ∧ (s.port 0).due = false ∧ (s.port 0).retries < 8 ∧ (s.port 0).retry.length < 512 ∧
       (∀ k ∈ [FlitKind.data, .idle, .retry], ¬bad (sealedFlit (flitOf 0 k 30))) ∧ bad (sealedFlit (flitOf 0 .data 31)) ∧ bad (sealedFlit (flitOf 1 .data 1)) ∧
       ∀ y ∈ (s.port 0).retry, y.fseq ≠ (sealedFlit (flitOf 0 .retry 30)).fack) ∧
    (let s := { w0.setPort 0 { Port.reset with train := true } with times := Vector.replicate 34 25000 }
     (s.port 0).train = true ∧ (w0.port 1).train = false ∧ portAccesses s 0 = [] ∧ 25000 ≤ (s.times.getD 16 0 - (s.port 0).trainAt).toNat ∧ ¬25000 ≤ ((24999 : Dword) - (s.port 0).trainAt).toNat) ∧
    (let s := { withPort (fun p => { p with ppas := 0x8000000000000000 }) (onPart 0 (walkedIn w0)) with ppmap0 := 8 }
     (s.port 0).down = false ∧ (s.port 0).ppas.getLsbD 63 = true ∧ partOn s 0 = true ∧ portFence s 0 = some (fenceOf s 0) ∧
       s.devCheck 104 0 0 0x3FFFFFF8 8 .read true false = .ok 0x3FFFFFF8 ∧ s.devCheck 104 0 0 0x3FFFFFFF 1 .write true false = .ok 0x3FFFFFFF ∧ s.devPoisoned 0x3FFFFFF8 8 = false ∧ xRoute s (0x3FFFFFF8 / 2 ^ 30 / 96) 0 = true ∧ xRoute { s with fwall := 1 } (0x3FFFFFF8 / 2 ^ 30 / 96) (12 / 12) = false ∧
       portFence { s with ppmap1 := 8 } 12 = some (fenceOf s 0) ∧
       portFence { s with ppmap0 := 9 } 0 ≠ some (fenceOf s 0)) ∧
    ((withPort id w0).port 0).down = false ∧ ((withPort id w0).port 0).ppas.getLsbD 63 = false := by
  refine ⟨by decide +kernel, by decide +kernel, ⟨by decide +kernel, by decide +kernel, by decide +kernel, by decide +kernel, ?_, .inr (.inr (.inl (by decide +kernel))),
    .inr (.inr (.inr (.inr (.inr (.inr (by decide +kernel)))))), by decide +kernel⟩, by decide +kernel, by decide +kernel, by decide +kernel, by decide +kernel⟩
  intro k hk hb
  have h0 : (sealedFlit (flitOf 0 k 30)).crc = Config.flitCrc (flitBody (sealedFlit (flitOf 0 k 30))) := rfl
  obtain hb | hb | hb | hb | hb | hb | hb := hb
  · exact hb h0
  · simp only [List.mem_cons, List.not_mem_nil, or_false] at hk
    obtain rfl | rfl | rfl := hk <;> simp [sealedFlit, flitOf] at hb
  · exact absurd hb (by show ¬30 < (30 : BitVec 5).toNat; decide)
  · exact hb rfl
  · exact absurd hb (by show ¬(0 : BitVec 4).getLsbD 1 = true; decide)
  · exact absurd hb (by show ¬(0 : BitVec 4).getLsbD 3 = true; decide)
  · exact hb (by show (0 : BitVec 12) = _; decide +kernel)

/-- A crew that has run its quarter second on a core of some temperature. -/
def hotIn (temp : Nat) (s : State) : State := (s.modCrew 0 0 fun w => { w with resid := 250000 }).modCore 0 fun k => { k with temp := temp }
def charged (s : State) : State := s.modCrew 0 0 fun w => { w with charged := some (curOf s 0) }

/-- Copies of TIME level, and one behind and one ahead; a crew that a change must halt; both sides of every threshold. -/
theorem witness_TimePowerAndHeat :
    ((∀ i < 34, w0.timeAdj.getD i 0 = 0) ∧ timesClose w0.times ∧ timesClose (w0.times.set 3 1) ∧ timesClose (w0.times.set 3 0xFFFFFFFFFFFFFFFF) ∧
      (∀ x ∈ w0.allCrews, ∀ g ∈ x.2.groups, ∀ q ∈ g.splits, q.waiting = none) ∧ noTrapWaits w0 ∧
      (∀ x ∈ w0.allCrews, ∀ g ∈ x.2.groups, groupDoomed w0 x.1 x.2 g = false ∨ x.2.groupWaits g = false) ∧ ∀ x ∈ w0.fns, x.2.inval = []) ∧
    ((w0.times.getD 16 0 - w0.pulseAt).toNat < 4096 ∧ 4096 ≤ ((4096 : Dword) - w0.pulseAt).toNat) ∧
    (let s := { w0 with launches := [fourSteps] }
     s.launches[0]? = some fourSteps ∧ fourSteps.part = 0) ∧
    (((w0.rail 3).rvolt.extractLsb' 0 16).toNat = 720 ∧ ((850 : Dword).extractLsb' 0 16).toNat % 10 = 0 ∧ ((600 : Dword).extractLsb' 0 16).toNat = 600) ∧
    (let s := { onPart 0 (charged { w0 with changes := [⟨.cluster 0 0, 0, 0, none⟩] }) with slice := [(0, 1)], sliceAt := [(0, 12500)], times := Vector.replicate 34 12500 }
     (∃ c ∈ s.changes, c.target = .cluster 0 0 ∧ 12500 ≤ (s.times.getD 16 0 - c.since).toNat) ∧ (∀ c ∈ s.changes, ((12499 : Dword) - c.since).toNat < 12500) ∧ concerned s (.cluster 0 0) = [(0, (ctxOf s).crew)] ∧ s.crew? 0 0 = some (ctxOf s).crew ∧ (ctxOf s).crew.halted = false ∧
       (∃ g ∈ (ctxOf s).crew.groups, g.live = true) ∧ (∀ g ∈ (ctxOf s).crew.groups, groupDoomed s 0 (ctxOf s).crew g = false) ∧ lightCrew s 0 (ctxOf s).crew ∧ sliceFirst s 0 = false ∧ stoppable s 0 (ctxOf s).crew = true ∧ (ctxOf s).crew.halting = false ∧
       stoppable (s.modCore 0 fun k => { k with crews := k.crews.map fun w => { w with groups := w.groups.map fun g => { g with holdUntil := 9 } } }) 0
         { (ctxOf s).crew with groups := (ctxOf s).crew.groups.map fun g => { g with holdUntil := 9 } } = false) ∧
    (let s := { w0 with changes := [⟨.rail 3, 0, 0, some (720, 0)⟩, ⟨.cluster 7 11, 0, 0, none⟩] }
     s.changes.any (fun c => c.target == .rail 3) = true ∧ s.changes.any (fun c => c.target == .cluster 7 11) = true ∧ concerned s (.rail 3) = [] ∧ concerned s (.cluster 7 11) = [] ∧
       (s.cluster 95).cmds = [] ∧ rampTicks s 3 720 = 0 ∧ rampTicks s 3 700 = 1000 ∧ (∀ c ∈ s.changes, c.target = .rail 3 → c.ramp = some (720, 0)) ∧
       ∃ c ∈ ({ w0 with changes := [⟨.rail 3, 0, 0, none⟩] } : State).changes, c.target = .rail 3 ∧ c.ramp = none) ∧
    ((∀ n ∈ [(1999 : Nat), 2000], let s := { w0 with times := Vector.replicate 34 (BitVec.ofNat 64 n) }
       (decide (2000 ≤ (s.times.getD 16 0 - s.intervalAt).toNat) = decide (n = 2000)) ∧ (decide (2000 ≤ (s.times.getD 16 0 - (s.rail 3).overAt).toNat) = decide (n = 2000))) ∧
      (∀ n ∈ [(2499 : Nat), 2500], let s := { w0 with times := Vector.replicate 34 (BitVec.ofNat 64 n) }
       decide (2500 ≤ (s.timeOf (dieOf 767) - (s.core 767).tempAt).toNat) = decide (n = 2500)) ∧
      ∀ n ∈ [(24999 : Nat), 25000], let s := { w0 with times := Vector.replicate 34 (BitVec.ofNat 64 n) }
       decide (25000 ≤ (s.timeOf (dieOf 0) - (s.core 0).cutAt).toNat) = decide (n = 25000)) ∧
    ((w0.core 767).crews = [] ∧ (w0.core 767).hot = false ∧ ((w0.die 7).therm.extractLsb' 8 8).toNat = 110 ∧ ((w0.die 0).therm.extractLsb' 0 8).toNat = 95) ∧
    (let s := hotIn 96 w0
     95 < (s.core 0).temp ∧ ((s.core 0).crews.any fun w => nowhere s 0 w) = true ∧ ((hotIn 95 w0).core 0).temp = 95 ∧ ((hotIn 92 w0).core 0).temp + 3 = 95 ∧ ((hotIn 91 w0).core 0).temp + 4 = 95) ∧
    (let s := { w0 with rows := [5, 2 ^ 40 + 767], fown := [(0, 0x40)] }
     5 ∈ s.rows ∧ 2 ^ 40 + 767 ∈ s.rows ∧ (s.fownOf 0).getLsbD 6 = true ∧ (s.fn 0).pgerr = 0) := by
  refine ⟨⟨by decide +kernel, ?_, ?_, ?_, by decide +kernel, ?_, by decide +kernel⟩, by decide +kernel, by decide +kernel, by decide +kernel,
    ⟨⟨_, List.mem_singleton.mpr rfl, by decide +kernel⟩, by decide +kernel, by decide +kernel, by decide +kernel, by decide +kernel, by decide +kernel, by decide +kernel, ?_, by decide +kernel⟩,
    by decide +kernel, by decide +kernel, by decide +kernel, by decide +kernel, by decide +kernel⟩
  · unfold timesClose; decide +kernel
  · unfold timesClose; decide +kernel
  · unfold timesClose; decide +kernel
  · unfold noTrapWaits; decide +kernel
  · unfold lightCrew; decide +kernel

def crewOf (s : State) : Crew := ((s.core 0).crews.head?).getD (standardCrew 0 0 0)

/-- A record of partition 0 in a queue. -/
def recordOf (t : TaskRec) (root : Option RootExt) : QRec := { part := 0, pasid := 0, prio := 0, bin := 0, task := t, root := root, saved := none, byGen := false, spilled := false, addr := 0, pkt := none, reset := false }
def queued (d : Nat) (l : List QRec) (s : State) : State := s.modDie d fun x => { x with queue := l }
def chosenCore (s : State) (q : QRec) : Nat := match chooseCore s 0 q with | some (c, _) => c | none => 0
/-- Partition 0 holds the slice of fence 0 and no crew stands anywhere. -/
def serving (s : State) : State := { onPart 0 { s with cores := [] } with slice := [(0, 1)] }

theorem no_open {s : State} {p : Nat} (h : s.scopes = []) : ∀ i, (s.scope p i).st = .opened → s.subtreeEmpty p i = false := by
  intro i hi
  simp [State.scope, h, SMap.get, ScopeEnt.free] at hi

/-- SPRE with REQ set and clear, at the largest count and one more; a launch with a tile to make and one at a step's end; queues with a root, a record that binds, and records to steal; a crew stopped and one ended. -/
theorem witness_DispatchEvents :
    (let s := w0.modDie 0 fun x => { x with spre := 0x8000000000000000, held := [⟨5, none, false⟩] }
     (s.die 0).spre.getLsbD 63 = true ∧ (∀ y ∈ s.allCrews, y.1 ∉ taking (s.die 0)) ∧ (w0.die 0).spre.getLsbD 63 = false) ∧
    (let el := spreFree w0 0 true
     ((0x8100000000000018 : Dword).extractLsb' 0 7).toNat = 24 ∧ (0x8100000000000018 : Dword).getLsbD 56 = true ∧ (0x8100000000000018 : Dword).getLsbD 49 = false ∧ el.length = 24) ∧
    (let l := { fourSteps with task := { standardTask with code := 0x2000, shape := 0x2000 }, slots := [⟨0, 0, 1⟩], alive := 0 }
     let s := { tasks w0 with launches := [l] }
     s.launch? 0 0 = some l ∧ l.slots[0]? = some ⟨0, 0, 1⟩ ∧ unbound s 0 0 0 < 64 ∧ dieRoute s l.home 0 = true ∧ s.queueRoom 0 0 = true ∧ taskBad s 0 0 (tileRec l 0) 96 = false ∧ l.stopped = false ∧ l.ext.stepctr = 0 ∧ l.last = false ∧ l.step + 1 < l.ext.steps) ∧
    (let l := { fourSteps with slots := [⟨0, 1, 1⟩], alive := 0 }
     let s := { w0 with launches := [l] }
     s.launch? 0 0 = some l ∧ l.stopped = false ∧ l.alive = 0 ∧ ∀ y ∈ l.slots, y.stop ≤ y.next) ∧
    ((w0.die 0).queue = [] ∧ ((queued 0 [recordOf standardTask (some fourSteps.ext)] w0).die 0).queue = [recordOf standardTask (some fourSteps.ext)] ∧
      (queued 0 [recordOf standardTask (some fourSteps.ext)] w0).cancelledOn 0 0 15 standardTask.scopeId = false) ∧
    (let q := recordOf { standardTask with code := 0x2000, shape := 0x2000 } none
     let s := queued 0 [q] (serving (tasks w0))
     (s.die 0).queue = [q] ∧ q.root = none ∧ q.saved = none ∧ q.bin < 64 ∧ q.prio < 16 ∧ s.cancelledOn q.part 0 15 q.task.scopeId = false ∧ chooseCore s 0 q = some (chosenCore s q, []) ∧ (s.core (chosenCore s q)).crews = []) ∧
    (let s := queued 1 [recordOf standardTask none] w0
     lender s 0 = some 1 ∧ (∃ r, loot (s.die 1) (Config.freeDword s.free) = [r] ∧ wantsWork s 0 r.part = true) ∧
       ∀ q ∈ (s.die 1).queue, s.cancelledOn q.part 0 15 q.task.scopeId = false ∧ ∀ i < 65536, (s.scope q.part i).st = .opened → s.subtreeEmpty q.part i = false) ∧
    ((0 ∈ ({ w0 with ending := [0] } : State).ending ∧ (let s := { inGroup fun g => { g with holdUntil := 9 } with slice := [(0, 1)] }
        (∃ y ∈ outgoing s 0 none, stoppable s y.1 y.2 = false) ∧ ∀ y ∈ outgoing s 0 none, s.crew? y.1 y.2.slot = some y.2)) ∧ outgoing { w0 with cores := [] } 0 (nextSlice { w0 with cores := [] } 0 0) = [] ∧ nextSlice { w0 with cores := [] } 0 0 = none ∧
      (let s := queued 0 [recordOf standardTask none] (serving w0)
       nextSlice s 0 (s.slice.get 0 0) = some 0 ∧ outgoing s 0 (some 0) = []) ∧ w0.slice.get 0 0 = 0 ∧
      (let s := queued 0 [recordOf standardTask none] (serving w0)
       s.slice.get 0 0 = 1 ∧ partOn s 0 = true ∧ hasReady s 0 0 = true ∧ fenceTime s 0 < s.sliceAt.get 0 0 + 1024 * ((s.part 0).pcfg0.extractLsb' 32 16).toNat)) ∧
    (let s := { onPart 0 (charged (inGroup fun g => { g with stopped := true })) with slice := [(0, 1)] }
     let c := ctxOf s
     s.crew? 0 0 = some c.crew ∧ c.crew.group? 0 = some c.g ∧ c.g.live = true ∧ c.g.stopped = true ∧ c.g.pendTrap = none ∧ c.g.heldTraps = [] ∧ mayRun s 0 c.crew = true ∧ c.crew.halted = false) ∧
    (let s := (onPart 0 (charged (inGroup fun g => { g with stopped := true, fwait := some (.queue 1 true) }))).modCrew 0 0 fun w => { w with halted := true }
     let c := ctxOf { s with slice := [(0, 1)] }
     c.g.live = true ∧ c.g.stopped = true ∧ mayRun { s with slice := [(0, 1)] } 0 c.crew = true ∧ c.crew.halted = true ∧ c.crew.lacking = false ∧ c.crew.home = c.crew.slot ∧ lightCrew s 0 c.crew ∧ c.crew.wantPaddle = false) ∧
    (let s := charged (inGroup fun g => { g with live := false, splits := [] })
     ∃ w, s.crew? 0 0 = some w ∧ (∀ g ∈ w.groups, g.live = false ∧ g.outs = []) ∧ lightCrew s 0 w ∧ w.killed = false ∧ w.task.succ = 0) ∧
    ((w0.die 0).cells = [] ∧ ((w0.modDie 0 fun x => { x with cells := [⟨0, 0, 0x1000, standardTask, false⟩] }).die 0).cells = [⟨0, 0, 0x1000, standardTask, false⟩] ∧ w0.cancelledOn 0 0 15 standardTask.scopeId = false) := by
  refine ⟨by decide +kernel, by decide +kernel, by decide +kernel, by decide +kernel, by decide +kernel, by decide +kernel, ⟨by decide +kernel, ⟨recordOf standardTask none, ?_, by decide +kernel⟩, fun q hq => ⟨?_, fun i _ => no_open (by decide +kernel) i⟩⟩, by decide +kernel,
    by decide +kernel, ⟨by decide +kernel, by decide +kernel, by decide +kernel, by decide +kernel, by decide +kernel, by decide +kernel, ?_, by decide +kernel⟩, ⟨crewOf (charged (inGroup fun g => { g with live := false, splits := [] })), by decide +kernel, by decide +kernel, ?_, by decide +kernel⟩, by decide +kernel⟩
  · have hk : (((((queued 1 [recordOf standardTask none] w0).die 1).queue.map QRec.key).eraseDups).filter fun k =>
        (queueOf ((queued 1 [recordOf standardTask none] w0).die 1) k).any fun q => q.bin == lastBin ((queued 1 [recordOf standardTask none] w0).die 1) k && movable q)
          = [(recordOf standardTask none).key] := by decide +kernel
    unfold loot
    simp only [hk, List.length_singleton, Nat.mod_one, List.getElem?_cons_zero]
    decide +kernel
  · rw [show ((queued 1 [recordOf standardTask none] w0).die 1).queue = [recordOf standardTask none] by decide +kernel, List.mem_singleton] at hq
    subst hq
    decide +kernel
  · unfold lightCrew; decide +kernel
  · unfold lightCrew; decide +kernel

theorem steady_of {s : State} (h : (s.crew? 0 0 == some (ctxOf s).crew && (ctxOf s).crew.group? 0 == some (ctxOf s).g && (ctxOf s).g.live && (ctxOf s).g.pendTrap.isNone && (ctxOf s).g.heldTraps.isEmpty && !(ctxOf s).crew.killed &&
    (s.fn (ctxOf s).crew.part).inval.isEmpty) = true) :
    steady s ⟨0, 0, 0, 0⟩ (ctxOf s).crew (ctxOf s).g := by
  simp only [Bool.and_eq_true, beq_iff_eq, Bool.not_eq_true', Option.isNone_iff_eq_none, List.isEmpty_iff] at h
  obtain ⟨⟨⟨⟨⟨⟨h1, h2⟩, h3⟩, h4⟩, h5⟩, h6⟩, h7⟩ := h
  exact ⟨h1, h2, h3, h4, h5, h6, h7⟩

theorem answered_of {s : State} {o : Out} {d : List Dword} (h : (!o.peer && s.hostRmw.isEmpty) = true) : answered s o (.ok d) := by
  simp only [Bool.and_eq_true, Bool.not_eq_true', List.isEmpty_iff] at h
  exact ⟨h.1, .inr ⟨d, rfl⟩, fun x hx => by rw [h.2] at hx; simp at hx⟩

/-- A wait for the time 10 with a limit of 5, begun at 0. -/
def waitingIn (tmo : Word) (now : Dword) : State :=
  { inSplit (fun p => { p with waiting := some ⟨7, 0, tmo, false, [.time 10], false⟩ }) with times := Vector.replicate 34 now }
/-- Core 1 hosts nothing and its partition serves: a crew that asks for the other type. -/
def asksToMove : State := { onPart 0 (inCrew fun w => { w with migr := true, task := { w.task with shape := 0x80040 } }) with slice := [(0, 1)] }

/-- Results of each kind; a wait before and at its limit; a group at its kill point and one that must stop; a cancel broadcast, and one with nothing left; a tile asked for. -/
theorem witness_CrewEvents :
    (State.reset.issueQ = [] ∧ State.reset.selectOne.issueQ ≠ [] ∧ ∀ v ∈ (State.reset.core 0).crews, ∀ h ∈ v.groups, h.pendTrap = none ∧ h.heldTraps = []) ∧
    (let s := inGroup fun g => { g with outs := [loadOut] }
     steady s ⟨0, 0, 0, 0⟩ (ctxOf s).crew (ctxOf s).g ∧ (ctxOf s).g.outs.find? (fun x => x.id == loadOut.id) = some loadOut ∧ answered s loadOut (.ok []) ∧ loadOut.contested = [] ∧ loadOut.kind = .load ∧
       loadOut.dests = [(.s 3, .sc 9)]) ∧
    (let o : Out := { loadOut with dests := [(.m 255, .vec zeroLanes)] }
     let s := inGroup fun g => { g with outs := [o] }
     steady s ⟨0, 0, 0, 0⟩ (ctxOf s).crew (ctxOf s).g ∧ (ctxOf s).g.outs.find? (fun x => x.id == o.id) = some o ∧ answered s o (.ok []) ∧ o.contested = [] ∧ o.kind = .load ∧ o.dests = [(.m 255, .vec zeroLanes)]) ∧
    (let s := withOut .store
     steady s ⟨0, 0, 0, 0⟩ (ctxOf s).crew (ctxOf s).g ∧ (ctxOf s).g.outs.find? (fun x => x.id == 5) = some (someOut .store none) ∧ answered s (someOut .store none) (.ok []) ∧ (someOut .store none).host = false ∧ (someOut .store none).dests = []) ∧
    (let o := { someOut .store (some .host) with id := 6, host := true }
     let s := inGroup fun g => { g with outs := [{ o with id := 5 }, o] }
     steady s ⟨0, 0, 0, 0⟩ (ctxOf s).crew (ctxOf s).g ∧ (ctxOf s).g.outs.find? (fun x => x.id == o.id) = some o ∧ o.host = true ∧ o.kind = .store ∧
       ∃ y ∈ s.allCrews, y.2.part = (ctxOf s).crew.part ∧ y.2.pasid = (ctxOf s).crew.pasid ∧ ∃ h ∈ y.2.groups, ∃ x ∈ h.outs, x.host = true ∧ x.kind = .store ∧ x.id < o.id) ∧
    (∀ now ∈ [(4 : Nat), 5],
     let s := waitingIn 5 (BitVec.ofNat 64 now)
     (ctxOf s).g.split? 0 = some (ctxOf s).sp ∧ (ctxOf s).sp.waiting = some ⟨7, 0, 5, false, [.time 10], false⟩ ∧ condHolds s ⟨0, 0, 0, 0⟩ (ctxOf s).crew (.time 10) = false ∧
       (s.timeOf (dieOf 0)).toNat = now) ∧
    (steady (waitingIn 5 4) ⟨0, 0, 0, 0⟩ (ctxOf (waitingIn 5 4)).crew (ctxOf (waitingIn 5 4)).g) ∧
    (let s := (inGroup fun g => { g with doomed := true, migStop := true }).modCrew 0 0 fun w => { w with killAt := some 0, moveAt := some 0, groups := w.groups ++ w.groups.map fun g => { g with gid := 1 } }
     let t := s.modCore 0 fun k => { k with cyc := 65536 }
     steady s ⟨0, 0, 0, 0⟩ (ctxOf s).crew (ctxOf s).g ∧ steady t ⟨0, 0, 0, 0⟩ (ctxOf t).crew (ctxOf t).g ∧ groupDoomed t 0 (ctxOf t).crew (ctxOf t).g = true ∧ (ctxOf t).g.migStop = true ∧
       (ctxOf t).g.handler = none ∧ atBoundary t 0 0 0 (ctxOf t).g = true ∧ (∀ o ∈ (ctxOf t).g.outs, o.far = none) ∧ (∃ h ∈ (ctxOf t).crew.groups, h.gid ≠ 0 ∧ h.live = true) ∧
       ¬cyclesOver s 0 (ctxOf s).crew.killAt ∧ ¬cyclesOver s 0 (ctxOf s).crew.moveAt ∧ cyclesOver t 0 (ctxOf t).crew.killAt ∧ cyclesOver t 0 (ctxOf t).crew.moveAt) ∧
    (let s := { w0 with cores := [], scopes := [(5, { ScopeEnt.free with st := .cancelling, pend := 1, packets := [7] })], dies := [(3, { Die.reset 3 with cancels := [(0, 5)] })] }
     (0, 5) ∈ (s.die 3).cancels ∧ s.subtree 0 5 = [5] ∧ (s.scope 0 5).st = .cancelling ∧ 3 ∉ (s.scope 0 5).applied ∧ (∀ y ∈ s.allCrews, y.2.part ≠ 0) ∧
       (∀ q ∈ (s.die 3).queue, q.part ≠ 0) ∧ (∀ q ∈ (s.die 3).cells, q.part ≠ 0) ∧ ∀ y ∈ s.scopes, y.1 / 65536 = 0 → y.2.st ≠ .opened) ∧
    (let k := packetOf #v[0x20000, 0, 5, 0, 0, 0, 0, 0]
     let s := withPacket k { w0 with cores := [], scopes := [(5, { ScopeEnt.free with st := .cancelling, pend := 1, packets := [7] })] }
     s.subtree 0 5 = [5] ∧ (s.scope 0 5).st = .cancelling ∧ (s.scope 0 5).pend ≠ 0 ∧ s.hasWork 0 [5] = false ∧ (∀ y ∈ s.scopes, y.1 / 65536 = 0 → y.1 % 65536 ≠ 5 → y.2.pend = 0) ∧ (∀ x ∈ s.packets, x.fn = 0 → x.acked = false) ∧
       (∀ i < 65536, (s.scope 0 i).st = .opened → s.subtreeEmpty 0 i = false) ∧ (s.scope 0 5).acka = 0 ∧
       (s.scope 0 5).hroot = false ∧ (s.scope 0 5).packets = [k.id] ∧ s.packet? k.id = some k) ∧
    (let s := asksToMove
     steady s ⟨0, 0, 0, 0⟩ (ctxOf s).crew (ctxOf s).g ∧ (ctxOf s).crew.halted = false ∧ sliceFirst s 0 = false ∧ (ctxOf s).crew.moving = false ∧ (s.core 0).withdrawn = false ∧ isL 6 ≠ isL 0 ∧ heldBy? s 0 = none ∧ changePending s 0 = false ∧
       (∀ h ∈ (ctxOf s).crew.groups, h.live = true → groupDoomed s 0 (ctxOf s).crew h = false) ∧ mayMigrate s 0 6 (ctxOf s).crew = true ∧
       (∀ h ∈ (ctxOf s).crew.groups, h.live = true → stopsAtOnce (ctxOf s).crew h = false) ∧ ∀ h ∈ (ctxOf s).crew.groups, h.stopped = false) ∧
    (let s := inGroup fun g => { g with fwait := some (.context [3]) }
     steady s ⟨0, 0, 0, 0⟩ (ctxOf s).crew (ctxOf s).g ∧ (ctxOf s).crew.halted = false ∧ (ctxOf s).crew.tiles[3]? = some ⟨3, none, none, none⟩ ∧ tileWaiters (ctxOf s).crew 3 = [0] ∧
       (ctxOf s).g.fwait = some (.context [3]) ∧ ((s.core 0).tiles.getD 3 PhysTile.reset).owner = none) ∧
    (let s := (inGroup fun g => { g with fwait := some (.context [3]) }).modCrew 0 0 fun w => { w with tiles := [⟨0, none, none, none⟩, ⟨1, none, none, none⟩, ⟨2, none, none, none⟩, ⟨3, none, some zeroTile, none⟩] }
     let t := walkedIn s
     (ctxOf s).crew.tiles[3]? = some ⟨3, none, some zeroTile, none⟩ ∧ s.ownsFrame 0 (sysFrame s 0 * 2 ^ 30) = false ∧ t.ownsFrame 0 (sysFrame t 0 * 2 ^ 30) = true ∧
       steady s ⟨0, 0, 0, 0⟩ (ctxOf s).crew (ctxOf s).g ∧ steady t ⟨0, 0, 0, 0⟩ (ctxOf t).crew (ctxOf t).g) := by
  refine ⟨by decide +kernel, ⟨steady_of (by decide +kernel), by decide +kernel, answered_of (by decide +kernel), by decide +kernel⟩,
    ⟨steady_of (by decide +kernel), by decide +kernel, answered_of (by decide +kernel), by decide +kernel⟩,
    ⟨steady_of (by decide +kernel), by decide +kernel, answered_of (by decide +kernel), by decide +kernel⟩, ⟨steady_of (by decide +kernel), by decide +kernel⟩,
    by decide +kernel, steady_of (by decide +kernel),
    ⟨steady_of (by decide +kernel), steady_of (by decide +kernel), by decide +kernel, by decide +kernel, by decide +kernel, by decide +kernel, by decide +kernel, by decide +kernel, ?_, ?_,
      ⟨0, by decide +kernel⟩, ⟨0, by decide +kernel⟩⟩,
    by decide +kernel, ⟨by decide +kernel, by decide +kernel, by decide +kernel, by decide +kernel, by decide +kernel, by decide +kernel, ?_, by decide +kernel⟩,
    ⟨steady_of (by decide +kernel), by decide +kernel⟩, ⟨steady_of (by decide +kernel), by decide +kernel⟩,
    by decide +kernel, by decide +kernel, by decide +kernel, steady_of (by decide +kernel), steady_of (by decide +kernel)⟩
  · rintro ⟨t, ht, h⟩
    cases ht
    exact absurd h (by decide +kernel)
  · rintro ⟨t, ht, h⟩
    cases ht
    exact absurd h (by decide +kernel)
  · intro i _ hi
    unfold State.scope at hi
    obtain h | ⟨e, he, h⟩ := get_mem (withPacket (packetOf #v[0x20000, 0, 5, 0, 0, 0, 0, 0]) { w0 with cores := [], scopes := [(5, { ScopeEnt.free with st := .cancelling, pend := 1, packets := [7] })] }).scopes (0 * 65536 + i) ScopeEnt.free
    · rw [h] at hi
      exact absurd hi (by decide)
    · rw [h, List.mem_singleton.mp he] at hi
      exact absurd hi (by decide)


/-- A command of core 0 and crew 0 with its four words, in progress. -/
def cmdOf (w0_ w1 w2 w3 : Dword) : Cmd := ⟨9, 0, 0, w0_, w1, w2, w3, 0, 0, 0, 0, 0, none, false, none⟩
def withCmd (m : Cmd) (s : State) : State := s.modCluster 0 fun k => { k with cmds := [m] }
theorem underWay_of {s : State} {m : Cmd} {k : Nat} (h : (s.cmd? m.id == some m && m.kind == k && !m.done && m.err.isNone) = true) : underWay s m k := by
  simp only [Bool.and_eq_true, beq_iff_eq, Bool.not_eq_true', Option.isNone_iff_eq_none] at h
  exact ⟨h.1.1.1, h.1.1.2, h.1.2, h.2⟩
theorem allGood_of {s : State} {m : Cmd} (h : ((List.range m.count).all fun k => match elemCheck s m k with | .ok e => e.k == k | _ => false) = true) : allGood s m := by
  simp only [List.all_eq_true, List.mem_range] at h
  intro k hk
  have := h k hk
  split at this
  · next e he => exact ⟨e, he, by simpa using this⟩
  · exact absurd this (by simp)
/-- Commands whose ends lie in the crew's scratchpad, below the ring. -/
theorem plainEnds_of {s : State} {m : Cmd} (h : (m.ssp != 3 && m.dsp != 3 && (List.range m.count).all fun k => (elemPlaces s m k).2.all fun l => match l with | .dev _ => false | _ => true) = true) :
    plainEnds s m := by
  simp only [Bool.and_eq_true, bne_iff_ne, ne_eq, List.all_eq_true, List.mem_range] at h
  refine ⟨h.1.1, h.1.2, fun k hk x hx a ha => ?_⟩
  obtain ⟨l, hl, rfl⟩ := List.mem_map.mp hx
  have := h.2 k hk l hl
  simp only at ha
  subst ha
  exact absurd this (by simp)

/-- One row of two bytes, from 0 to 2046; a column of two; a fill of the last byte; a cask of one cell; 32 bytes for grist slices; a source at the ring; cells of a counter. -/
theorem witness_CopyAndTunEvents :
    (let s := inCrew fun w => { w with pub := 1 }
     s.crew? 0 0 = some (ctxOf s).crew ∧ s.cancelledOn 0 0 15 (ctxOf s).crew.task.scopeId = false ∧ (ringOrder s 0).head? = some (0, 0) ∧ (s.cluster 0).cmds.length < 64 ∧ (s.cluster 0).beat % 4 + ((s.part 0).pcfg0.extractLsb' 0 2).toNat < 4 ∧
       4 ≤ 3 + (((s.modPart 0 fun x => { x with pcfg0 := 1 }).part 0).pcfg0.extractLsb' 0 2).toNat) ∧
    (let s := { w0 with scopes := [(0, { ScopeEnt.free with st := .cancelled, applied := [0, 1, 2, 3, 4, 5, 6, 7] })] }
     s.crew? 0 0 = some (ctxOf s).crew ∧ s.cancelledOn 0 0 15 (ctxOf s).crew.task.scopeId = true) ∧
    (let m := cmdOf 0 0 (2046 + 2 ^ 57) 0
     let s := withCmd m w0
     underWay s m 0 ∧ m.count = 2 ∧ allGood s m ∧ plainEnds s m ∧ quietEnds s m ∧ canonical s) ∧
    (let m := cmdOf 1 0 (2046 + 2 ^ 57) 0
     let s := withCmd m w0
     underWay s m 1 ∧ m.count = 2 ∧ allGood s m ∧ plainEnds s m ∧ quietEnds s m ∧ canonical s) ∧
    (let m := cmdOf 2 0xFF 2047 0
     let s := withCmd m w0
     underWay s m 2 ∧ m.count = 1 ∧ allGood s m ∧ plainEnds s m ∧ quietEnds s m ∧ canonical s) ∧
    (let m := cmdOf 0x803 0 0x100 0
     let s := zeroed (withCmd m w0)
     underWay s m 3 ∧ m.count = 1 ∧ allGood s m ∧ plainEnds s m ∧ quietEnds s m ∧ canonical s ∧ leNat (bytesThere s ((elemPlaces s m 0).2.take 16)) < 2 ^ 18 ∧
       (caskAdd (caskExp (bytesThere s ((elemPlaces s m 0).2.take 16))) (m.fmt.val (leNat (bytesThere s (elemPlaces s m 0).1))) (leInt 128 (bytesThere s ((elemPlaces s m 0).2.drop 16)))).2 = 0) ∧
    (let m := cmdOf 0x804 0 0x100 0
     let s := zeroed (withCmd m w0)
     underWay s m 4 ∧ m.count = 1 ∧ allGood s m ∧ plainEnds s m ∧ quietEnds s m ∧ canonical s ∧ leNat (bytesThere s ((elemPlaces s m 0).1.take 16)) < 2 ^ 18) ∧
    (let m := cmdOf 0x285 0 (0x3FFFF + 31 * 2 ^ 57) 0
     let s := withCmd m w0
     underWay s m 5 ∧ m.count = 32 ∧ allGood s m ∧ plainEnds s m ∧ quietEnds s m ∧ (s.core m.core).gristPart = m.part ∧ (s.core m.core).grist.wf = true) ∧
    (let m := cmdOf 0 2048 0 0
     let s := withCmd m w0
     underWay s m 0 ∧ firstBad s m = some (.err 0x41 2048)) ∧
    (let m := cmdOf 0x206 0 0 0
     let s := withSnap (snapOf .active false) (hostIn (withCmd m w0))
     underWay s m 6 ∧ (s.snap m.part m.ssp).phase = .active ∧ (s.snap m.part m.ssp).overflowed = false ∧ m.src + m.rows ≤ (s.snap m.part m.ssp).pages ∧ m.rows = 1 ∧ m.dsp = 4 ∧ s.hostRmw = [] ∧
       pageTaken s (s.snap m.part m.ssp) m.src = false ∧ s.devPoisoned (imageAt s (s.snap m.part m.ssp) m.src) 4096 = false ∧
       copyBytes s m m.dsp true false ((List.range 16).map (m.dst + 4080 + ·)) = .ok ((List.range 16).map fun b => .host (0x5FF0 + b)) ∧
       ((withCmd m w0).snap m.part m.ssp).phase ≠ .active ∧ ((withSnap (snapOf .active true) s).snap m.part m.ssp).overflowed = true ∧
       pageTaken (poke s [(0x41000, 0x80000000)]) (s.snap m.part m.ssp) m.src = true ∧ s.devPoisoned (State.mapWord (s.snap m.part m.ssp) m.src) 4 = false) ∧
    (let m := { cmdOf 0 0 0 (0x3FFFFFF + 2 ^ 54) with done := true }
     let s := walkedIn (withCmd m w0)
     s.cmd? m.id = some m ∧ m.err = none ∧ m.csp = false ∧ (∀ y ∈ s.scopes, y.1 / 65536 = m.part → y.2.st ≠ .opened) ∧
       s.devCheck 0 m.part m.pasid.toNat m.ctr 8 .write true false = .ok 0x3FFFFFF0 ∧ s.devCheck 104 m.part m.pasid.toNat m.ctr 8 .write true false = .ok 0x3FFFFFF0 ∧ s.devPoisoned 0x3FFFFFF0 8 = false ∧ s.cells.contains 0x3FFFFFF0 = false) ∧
    (let o : Mma := ⟨false, 3, BitVec.allOnes 32, 33, 1, 1, List.replicate 9 zeroLanes, [], [], [], 0, 32, 0⟩
     let op : TunOp := ⟨0, 0, 0, 0, .mma o⟩
     let s := (withTiles w0).modCore 0 fun k => { k with tun := [op] }
     (s.core 0).tun = [op] ∧ s.crew? 0 0 = some (ctxOf s).crew ∧ (ctxOf s).crew.phys 3 < 4 ∧ 3 < (ctxOf s).crew.tiles.length ∧ o.pos < o.k ∧ (s.core 0).gristPoison = [] ∧ (s.core 0).tunBeat % 4 + ((s.part 0).pcfg0.extractLsb' 0 2).toNat < 4) ∧
    (let op : TunOp := ⟨0, 0, 0, 0, .mzero 3 0x80000000⟩
     let s := (withTiles w0).modCore 0 fun k => { k with tun := [op] }
     (s.core 0).tun = [op] ∧ s.crew? 0 0 = some (ctxOf s).crew ∧ (ctxOf s).crew.killed = false ∧ 3 < (ctxOf s).crew.tiles.length ∧ (ctxOf s).crew.phys 3 < 4) ∧
    (let e : ArmEntry := ⟨1, 2, 0, some 4, none, some (List.replicate 32 (some zeroLanes)), false, false⟩
     let a : Arming := ⟨false, [e], 0⟩
     let s := inCrew fun w => { w with tiles := [⟨0, none, none, none⟩, ⟨1, none, none, none⟩, ⟨2, none, none, none⟩, ⟨3, some a, none, none⟩] }
     s.crew? 0 0 = some (ctxOf s).crew ∧ (ctxOf s).crew.tiles[3]? = some ⟨3, some a, none, none⟩ ∧ e.msg = some (List.replicate 32 (some zeroLanes)) ∧ (ctxOf s).crew.halted = false ∧
       (ctxOf s).crew.cont = [] ∧ (s.core 0).tun = [] ∧ ∀ y ∈ s.allCrews, ∀ g ∈ y.2.groups, ∀ q ∈ g.splits, q.parked = none) ∧
    (let s := inCore fun k => { k with ctabPend := [(0, 0, List.replicate 16 1)] }
     (s.core 0).ctabPend = [(0, 0, List.replicate 16 1)] ∧ s.crew? 0 0 = some (ctxOf s).crew ∧ (ctxOf s).crew.group? 0 = some (ctxOf s).g ∧ (ctxOf s).crew.killed = false) := by
  refine ⟨by decide +kernel, by decide +kernel,
    ⟨underWay_of (by decide +kernel), by decide +kernel, allGood_of (by decide +kernel), plainEnds_of (by decide +kernel), ⟨rfl, by decide +kernel⟩, canonical_of (by decide +kernel)⟩,
    ⟨underWay_of (by decide +kernel), by decide +kernel, allGood_of (by decide +kernel), plainEnds_of (by decide +kernel), ⟨rfl, by decide +kernel⟩, canonical_of (by decide +kernel)⟩,
    ⟨underWay_of (by decide +kernel), by decide +kernel, allGood_of (by decide +kernel), plainEnds_of (by decide +kernel), ⟨rfl, by decide +kernel⟩, canonical_of (by decide +kernel)⟩,
    ⟨underWay_of (by decide +kernel), by decide +kernel, allGood_of (by decide +kernel), plainEnds_of (by decide +kernel), ⟨rfl, by decide +kernel⟩, canonical_of (by decide +kernel), by decide +kernel⟩,
    ⟨underWay_of (by decide +kernel), by decide +kernel, allGood_of (by decide +kernel), plainEnds_of (by decide +kernel), ⟨rfl, by decide +kernel⟩, canonical_of (by decide +kernel), by decide +kernel⟩,
    ⟨underWay_of (by decide +kernel), by decide +kernel, allGood_of (by decide +kernel), plainEnds_of (by decide +kernel), ⟨rfl, by decide +kernel⟩, by decide +kernel⟩,
    ⟨underWay_of (by decide +kernel), by decide +kernel⟩, ⟨underWay_of (by decide +kernel), by decide +kernel⟩, by decide +kernel, by decide +kernel, by decide +kernel, by decide +kernel,
    by decide +kernel⟩

/-! ## Witnesses: the step, completion and traps -/

/-- The selected split with its code at a base. -/
def codeAt (base : Dword) : State := (State.reset.selectOne).modCrew 0 0 fun w => { w with code := { w.code with dbase := base } }
def resOk (r : XRes) : Nat := match r with | .ok n => n | .err _ => 0

def decErr (r : Decoded) : DecodeErr := match r with | .err e => e | .instr _ => .reservedMajor

/-- A word in the instruction cache that decodes and one that does not; a fetch of a mapped page and of none; the two idle cases. -/
theorem witness_StepRunsDecoded :
    (∀ w ∈ [(0 : Nat), 0xFC00000000000000],
     let s := State.reset.withFetchWord 64 w
     ∃ u, s.issueQ = [u] ∧ (s.popSlot u []).ctx = some (ctxOf (s.popSlot u [])) ∧
       (let q := s.popSlot u []
        let c := ctxOf q
        icacheHit? (q.core c.r.core) c.crew.part c.crew.pasid.toNat (c.crew.addrOf c.r.core c.sp.pc).toNat = some (BitVec.ofNat 64 w))) ∧
    decode 0 = .instr (.nop ⟨false, .m 0, .m 0, .m 0, .m 0, 0⟩) ∧ (∃ e, decode 0xFC00000000000000 = .err e) ∧
    (∀ s ∈ [walkedIn (codeAt 0x20000), codeAt 0x20000], ∃ u, s.issueQ = [u] ∧
      (let q := s.popSlot u []
       let c := ctxOf q
       q.ctx = some c ∧ icacheHit? (q.core c.r.core) c.crew.part c.crew.pasid.toNat (c.crew.addrOf c.r.core c.sp.pc).toNat = none)) ∧
    (let q := (walkedIn (codeAt 0x20000)).popSlot ⟨⟨0, 0, 0, 0⟩, false, none⟩ []
     q.devCheck 0 0 0 0x20000 8 .fetch true false = .ok 0x20000 ∧ q.devPoisoned 0x20000 8 = false ∧ q.dev64 0x20000 = 0) ∧
    (∃ e, ((codeAt 0x20000).popSlot ⟨⟨0, 0, 0, 0⟩, false, none⟩ []).devCheck 0 0 0 0x20000 8 .fetch true false = .err e) ∧
    (State.reset.issueQ = [] ∧ State.reset.agenda = [] ∧ dueEvent State.reset = none ∧ nextCore State.reset = none ∧ inTick State.reset 767 = true ∧
      inTick (State.reset.modCore 767 fun k => { k with elapsed := tickLength }) 767 = false ∧
      dueEvent { State.reset with times := Vector.replicate 34 4096 } ≠ none) := by
  refine ⟨fun w hw => ⟨⟨⟨0, 0, 0, 0⟩, false, none⟩, ?_⟩, by decide +kernel, ⟨decErr (decode 0xFC00000000000000), by decide +kernel⟩, fun s hs => ⟨⟨⟨0, 0, 0, 0⟩, false, none⟩, ?_⟩, by decide +kernel,
    ⟨xerrOf (((codeAt 0x20000).popSlot ⟨⟨0, 0, 0, 0⟩, false, none⟩ []).devCheck 0 0 0 0x20000 8 .fetch true false), by decide +kernel⟩, by decide +kernel⟩
  · simp only [List.mem_cons, List.not_mem_nil, or_false] at hw
    obtain rfl | rfl := hw <;> decide +kernel
  · simp only [List.mem_cons, List.not_mem_nil, or_false] at hs
    obtain rfl | rfl := hs <;> decide +kernel

theorem canonical_state {s : State} (h : (s.mem.wf && s.host.wf && s.dies.isEmpty && s.clusters.isEmpty && s.cores.all fun e => e.2.grist.wf &&
    e.2.crews.all fun w => w.spad.wf && w.savedGrist.isNone) = true) : Canonical s := by
  simp only [Bool.and_eq_true, List.isEmpty_iff, List.all_eq_true, Option.isNone_iff_eq_none] at h
  obtain ⟨⟨⟨⟨h1, h2⟩, h3⟩, h4⟩, h5⟩ := h
  refine ⟨h1, h2, fun e he => ⟨(h5 e he).1, fun w hw => ⟨((h5 e he).2 w hw).1, fun b hb => ?_⟩⟩, fun e he => ?_, fun e he => ?_⟩
  · rw [((h5 e he).2 w hw).2] at hb
    exact nomatch hb
  · rw [h3] at he
    exact nomatch he
  · rw [h4] at he
    exact nomatch he

theorem witness_CanonicalKept : Canonical State.reset ∧ Canonical (State.reset.withFetchWord 64 0) :=
  ⟨canonical_state (by decide +kernel), canonical_state (by decide +kernel)⟩

/-- Nothing that a read may miss; writes of every kind, the last register of each. -/
theorem witness_ReadsAndCompletion : w0.ctx = some (ctxOf w0) ∧ (ctxOf w0).sp.view = [] ∧ (ctxOf w0).g.outs = [] ∧
    (∀ w ∈ [(⟨.m 255, BitVec.allOnes 32, .vec zeroLanes, 0xFFFFFFFF⟩ : Wr), ⟨.o 15, 1, .vec zeroLanes, 0xFF⟩, ⟨.x 3, 1, .vec zeroLanes, 0xFFFFFFFF⟩, ⟨.s 63, 1, .sc 1, 0xFFFFFFFF⟩, ⟨.k 7, 1, .sc 1, 0xFFFFFFFF⟩], wrGood w = true) := by
  decide +kernel

/-- What every clause asks of the state of a group. -/
def trapState (s : State) : Bool :=
  s.crew? 0 0 == some (ctxOf s).crew && (ctxOf s).crew.group? 0 == some (ctxOf s).g && (ctxOf s).g.live && (ctxOf s).g.split? 0 == some (ctxOf s).sp

theorem slots_distinct {s : State} (h : ((s.core 0).crews.length == 1 && (s.core 0).crews.all fun w => w.groups.length == 1) = true) : slotsDistinct (s.core 0) := by
  simp only [Bool.and_eq_true, beq_iff_eq, List.all_eq_true] at h
  obtain ⟨w, hw⟩ := List.length_eq_one_iff.mp h.1
  have hg := h.2
  simp only [hw, List.mem_singleton, forall_eq] at hg
  obtain ⟨g, hg⟩ := List.length_eq_one_iff.mp hg
  simp [slotsDistinct, hw, hg]

/-- The same, where the group may be interrupted and no trap of it waits. -/
def trapNow (s : State) : Prop :=
  trapState s = true ∧ mayInterrupt s 0 0 0 (ctxOf s).g = true ∧ (ctxOf s).g.pendTrap = none ∧ slotsDistinct (s.core 0)

theorem trapNow_of {s : State} (h : (trapState s && mayInterrupt s 0 0 0 (ctxOf s).g && (ctxOf s).g.pendTrap.isNone && (s.core 0).crews.length == 1 &&
    (s.core 0).crews.all fun w => w.groups.length == 1) = true) : trapNow s := by
  simp only [Bool.and_eq_true, Option.isNone_iff_eq_none] at h
  exact ⟨h.1.1.1.1, h.1.1.1.2, h.1.1.2, slots_distinct (by rw [h.1.2, h.2]; rfl)⟩

/-- Function 0 with its fault queue on, and a group of these fields. -/
def queueOn (f : Group → Group) : State := withFn (fun x => { x with fqctl := 0x8000000000000000 }) (inGroup f)
/-- One record held for the fault queue, TAIL at its last place. -/
def heldPost : Nat × Nat × Nat × FaultRec := (0, 0, 0, FaultRec.zero)
def postsIn (tail : Nat) : State := hostIn (withFn (fun x => { x with fqctl := BitVec.ofNat 64 (2 ^ 63 + tail), posts := [heldPost] }) w0)

/-- A group that may not be interrupted; one that a cancel dooms; one in its handler; any other; a page request; the fault queue with a TOKEN open, the same page still missing, and
neither; a record held with room and without; handlers of each class, and their absence at the edges of the classes. -/
theorem witness_TrapTaking :
    (let s := withOut .load (some (.peer false))
     trapState s = true ∧ mayInterrupt s 0 0 0 (ctxOf s).g = false) ∧
    (let s := inGroup fun g => { g with doomed := true }
     trapNow s ∧ groupDoomed s 0 (ctxOf s).crew (ctxOf s).g = true ∧ (ctxOf s).crew.killed = false) ∧
    (trapNow inHandler ∧ groupDoomed inHandler 0 (ctxOf inHandler).crew (ctxOf inHandler).g = false ∧ (ctxOf inHandler).g.handler.isSome = true) ∧
    (trapNow w0 ∧ groupDoomed w0 0 (ctxOf w0).crew (ctxOf w0).g = false ∧ (ctxOf w0).g.handler = none ∧ (w0.fn 0).fqctl.getLsbD 63 = false) ∧
    (let s := withFn (fun x => { x with pri := [(0, 5, true)] }) w0
     trapNow s ∧ (ctxOf s).g.handler = none ∧ ∃ q ∈ (s.fn 0).pri, q.1 = 0 ∧ q.2.1 = 0x5FFF / 4096) ∧
    (let s := queueOn fun g => { g with openToken := some 7 }
     trapNow s ∧ (ctxOf s).g.handler = none ∧ (s.fn 0).fqctl.getLsbD 63 = true ∧ (ctxOf s).g.openToken = some 7) ∧
    (let s := queueOn fun g => { g with frec := { g.frec with fstat := 0x50, faddr := 0x1FFF, fctx := 7 } }
     trapNow s ∧ (ctxOf s).g.handler = none ∧ (ctxOf s).g.openToken = none ∧ sameMissing (ctxOf s).g 0x50 0x1000 = some 7) ∧
    (let s := queueOn id
     trapNow s ∧ (ctxOf s).g.handler = none ∧ (ctxOf s).g.openToken = none ∧ sameMissing (ctxOf s).g 0x50 0x1000 = none) ∧
    (∀ e ∈ [(0, false), (62, false), (63, true)], let s := postsIn e.1
     (s.fn 0).posts = [heldPost] ∧ (s.fn 0).fqctl.getLsbD 63 = true ∧ ((s.fn 0).fqhead.extractLsb' 16 4).toNat = 6 ∧ s.hostMapped 0 0 (64 * e.1) 64 true = none ∧
       (decide ((e.1 + 1) % 64 = 0) = e.2) ∧ (s.fn 0).full.contains heldPost.2.2.2.token = false ∧
       ((s.modFn 0 fun x => { x with full := [0] }).fn 0).full.contains heldPost.2.2.2.token = true) ∧
    (∀ e ∈ [(0x1C, 0x90), (0x3F, 0x90), (0x40, 0xA0), (0x7F, 0xA0), (0x80, 0xC0), (0xBF, 0xC0)], toHandler (BitVec.ofNat 64 (e.2 * 2 ^ 56)) (BitVec.ofNat 8 e.1)) ∧
    (∀ e ∈ [(0x1D, 0xF0), (0x39, 0xF0), (0x90, 0xF0), (0x9F, 0xF0), (0x3F, 0xE0), (0x40, 0xD0), (0x80, 0xB0), (0xBF, 0x70)], ¬toHandler (BitVec.ofNat 64 (e.2 * 2 ^ 56)) (BitVec.ofNat 8 e.1)) := by
  refine ⟨by decide +kernel, ⟨trapNow_of (by decide +kernel), by decide +kernel⟩, ⟨trapNow_of (by decide +kernel), by decide +kernel⟩, ⟨trapNow_of (by decide +kernel), by decide +kernel⟩,
    ⟨trapNow_of (by decide +kernel), by decide +kernel⟩, ⟨trapNow_of (by decide +kernel), by decide +kernel⟩, ⟨trapNow_of (by decide +kernel), by decide +kernel⟩,
    ⟨trapNow_of (by decide +kernel), by decide +kernel⟩, by decide +kernel, ?_, ?_⟩ <;>
    (unfold toHandler; decide +kernel)

/-- Well-formed instructions: one of each shape. -/
theorem witness_RoundTrip : (Instr.nop ⟨false, .m 0, .m 0, .m 0, .m 0, 0⟩).WellFormed ∧ (Instr.addB64 ⟨false, .s 63, .const 127, .special .time, .m 0, 0⟩).WellFormed ∧
    (Instr.pairWord ⟨false, ⟨.addI32, .m 1, .m 2, .m 3⟩, ⟨.addI32, .o 0, .m 4, .s 5⟩⟩).WellFormed ∧ decode 0 = .instr (.nop ⟨false, .m 0, .m 0, .m 0, .m 0, 0⟩) := by
  unfold Instr.WellFormed
  decide +kernel

end Sys2Proof.Machine.Tests
end

section
/-!
PROOF. Every memory of the machine stays in canonical form (log 2): the parts of a state that hold memories, and what writing one part needs.

How the invariant is kept (O57). Each function of the model that changes a state has one lemma in the namespace Canonical, under the function's own name: where its
state is canonical, so is what it answers. A function that writes no memory passes its hypothesis on; one that writes a memory cites that a write keeps the form
(Memory.setBytes_wf, Memory.set_wf, SMap.putBytes_wf and so on); every other composes the lemmas of the functions that it calls. The lemmas stand in the order of
the model's files.
-/
namespace Sys2Proof.Claim
open Sys2Proof.Machine

/-! ## The memories of each part -/

/-- A core's memories are canonical: its grist, and those of its crews. -/
def coreCanonical (k : Core) : Prop := k.grist.wf = true ∧ ∀ w ∈ k.crews, crewCanonical w

/-- A record's saved crew, if it has one, is canonical. -/
def recCanonical (q : QRec) : Prop := ∀ w, q.saved = some w → crewCanonical w

/-- The saved crews in a die's queue are canonical. -/
def dieCanonical (x : Die) : Prop := ∀ q ∈ x.queue, recCanonical q

/-- What a command keeps of a crew that has left its core is canonical. -/
def cmdCanonical (m : Cmd) : Prop := ∀ w, m.image = some w → crewCanonical w

/-- The images that a cluster's commands keep are canonical. -/
def clusterCanonical (c : Cluster) : Prop := ∀ m ∈ c.cmds, cmdCanonical m

variable {s : State}

theorem canonical_iff : Canonical s ↔ s.mem.wf = true ∧ s.host.wf = true ∧ (∀ e ∈ s.cores, coreCanonical e.2) ∧
    (∀ e ∈ s.dies, dieCanonical e.2) ∧ ∀ e ∈ s.clusters, clusterCanonical e.2 := Iff.rfl

theorem Canonical.mem_wf (h : Canonical s) : s.mem.wf = true := h.1

theorem Canonical.host_wf (h : Canonical s) : s.host.wf = true := h.2.1

theorem Canonical.cores (h : Canonical s) : ∀ e ∈ s.cores, coreCanonical e.2 := h.2.2.1

theorem Canonical.dies (h : Canonical s) : ∀ e ∈ s.dies, dieCanonical e.2 := h.2.2.2.1

theorem Canonical.clusters (h : Canonical s) : ∀ e ∈ s.clusters, clusterCanonical e.2 := h.2.2.2.2

/-! ## One part written -/

theorem Canonical.withMem (h : Canonical s) {m : Memory} (hm : m.wf = true) : Canonical { s with mem := m } :=
  ⟨hm, h.host_wf, h.cores, h.dies, h.clusters⟩

theorem Canonical.withHost (h : Canonical s) {m : Memory} (hm : m.wf = true) : Canonical { s with host := m } :=
  ⟨h.mem_wf, hm, h.cores, h.dies, h.clusters⟩

theorem Canonical.withCores (h : Canonical s) {ks : SMap Core} (hk : ∀ e ∈ ks, coreCanonical e.2) : Canonical { s with cores := ks } :=
  ⟨h.mem_wf, h.host_wf, hk, h.dies, h.clusters⟩

theorem Canonical.withDies (h : Canonical s) {ds : SMap Die} (hd : ∀ e ∈ ds, dieCanonical e.2) : Canonical { s with dies := ds } :=
  ⟨h.mem_wf, h.host_wf, h.cores, hd, h.clusters⟩

theorem Canonical.withClusters (h : Canonical s) {cs : SMap Cluster} (hc : ∀ e ∈ cs, clusterCanonical e.2) : Canonical { s with clusters := cs } :=
  ⟨h.mem_wf, h.host_wf, h.cores, h.dies, hc⟩

/-- Only what has been written, or was there before, is in a sparse map after a write. -/
theorem SMap.mem_put {α : Type} {m : SMap α} {k : Nat} {v : α} {e : Nat × α} (he : e ∈ m.put k v) : e = (k, v) ∨ e ∈ m := by
  induction m with
  | nil => simpa [SMap.put] using he
  | cons x t ih =>
    unfold SMap.put at he
    split at he
    · simpa using he
    · split at he
      · simp only [List.mem_cons] at he ⊢
        exact he.imp_right .inr
      · simp only [List.mem_cons] at he ⊢
        rcases he with he | he
        · exact .inr (.inl he)
        · exact (ih he).imp_right .inr

theorem SMap.forall_put {α : Type} {P : α → Prop} {m : SMap α} (h : ∀ e ∈ m, P e.2) (k : Nat) {v : α} (hv : P v) : ∀ e ∈ m.put k v, P e.2 := by
  intro e he
  rcases SMap.mem_put he with rfl | he
  · exact hv
  · exact h e he

theorem SMap.get_of_forall {α : Type} {P : α → Prop} {m : SMap α} (h : ∀ e ∈ m, P e.2) (k : Nat) {d : α} (hd : P d) : P (m.get k d) := by
  induction m with
  | nil => exact hd
  | cons x t ih =>
    unfold SMap.get
    split
    · exact h _ List.mem_cons_self
    · exact ih fun e he => h e (List.mem_cons_of_mem _ he)

end Sys2Proof.Claim
end

section
/-!
PROOF. Canonical form under the accessors of cores, dies, clusters, crews and groups.
-/
namespace Sys2Proof.Claim
open Sys2Proof.Machine
variable {s t : State}

theorem coreCanonical_reset : coreCanonical Core.reset := ⟨rfl, fun _ hw => nomatch hw⟩

theorem dieCanonical_reset (d : Nat) : dieCanonical (Die.reset d) := fun _ hq => nomatch hq

theorem clusterCanonical_reset : clusterCanonical Cluster.reset := fun _ hm => nomatch hm

theorem forall_modFirst {α : Type} {P : α → Prop} {l : List α} (h : ∀ x ∈ l, P x) (p : α → Bool) {f : α → α} (hf : ∀ x, P x → P (f x)) :
    ∀ x ∈ modFirst l p f, P x := by
  induction l with
  | nil => exact h
  | cons a l ih =>
    obtain ⟨ha, hl⟩ := List.forall_mem_cons.mp h
    unfold modFirst
    split
    · exact List.forall_mem_cons.mpr ⟨hf a ha, hl⟩
    · exact List.forall_mem_cons.mpr ⟨ha, ih hl⟩

theorem forall_map {α : Type} {P : α → Prop} {l : List α} (h : ∀ x ∈ l, P x) {f : α → α} (hf : ∀ x, P x → P (f x)) : ∀ x ∈ l.map f, P x :=
  List.forall_mem_map.mpr fun x hx => hf x (h x hx)

theorem forall_filter {α : Type} {P : α → Prop} {l : List α} (h : ∀ x ∈ l, P x) (p : α → Bool) : ∀ x ∈ l.filter p, P x :=
  fun x hx => h x (List.mem_of_mem_filter hx)

theorem forall_append {α : Type} {P : α → Prop} {l m : List α} (h : ∀ x ∈ l, P x) (hm : ∀ x ∈ m, P x) : ∀ x ∈ l ++ m, P x :=
  List.forall_mem_append.mpr ⟨h, hm⟩

theorem coreCanonical.withCrews {k : Core} (h : coreCanonical k) {ws : List Crew} (hw : ∀ w ∈ ws, crewCanonical w) : coreCanonical { k with crews := ws } :=
  ⟨h.1, hw⟩

theorem coreCanonical.mapCrews {k : Core} (h : coreCanonical k) {f : Crew → Crew} (hf : ∀ w, crewCanonical w → crewCanonical (f w)) :
    coreCanonical { k with crews := k.crews.map f } := h.withCrews (forall_map h.2 hf)

theorem crewCanonical.ite {c : Prop} {_ : Decidable c} {w v : Crew} (hw : crewCanonical w) (hv : crewCanonical v) : crewCanonical (if c then w else v) := by
  split
  · exact hw
  · exact hv

theorem coreCanonical.ite {c : Prop} {_ : Decidable c} {k l : Core} (hk : coreCanonical k) (hl : coreCanonical l) : coreCanonical (if c then k else l) := by
  split
  · exact hk
  · exact hl

namespace Canonical

/-! ### What a canonical state holds -/

theorem core (h : Canonical s) (c : Nat) : coreCanonical (s.core c) := SMap.get_of_forall h.cores c coreCanonical_reset

theorem die (h : Canonical s) (d : Nat) : dieCanonical (s.die d) := SMap.get_of_forall h.dies d (dieCanonical_reset d)

theorem cluster (h : Canonical s) (c : Nat) : clusterCanonical (s.cluster c) := SMap.get_of_forall h.clusters c clusterCanonical_reset

theorem crew {c slot : Nat} {w : Crew} (h : Canonical s) (hw : s.crew? c slot = some w) : crewCanonical w :=
  (h.core c).2 w (List.mem_of_find?_eq_some hw)

/-! ### One core, die, cluster, crew or group written -/

theorem setCore {c : Nat} {k : Core} (h : Canonical s) (hk : coreCanonical k) : Canonical (s.setCore c k) := h.withCores (SMap.forall_put h.cores c hk)

theorem modCore {c : Nat} {f : Core → Core} (h : Canonical s) (hf : ∀ k, coreCanonical k → coreCanonical (f k)) : Canonical (s.modCore c f) :=
  h.setCore (hf _ (h.core c))

theorem setDie {d : Nat} {x : Die} (h : Canonical s) (hx : dieCanonical x) : Canonical (s.setDie d x) := h.withDies (SMap.forall_put h.dies d hx)

theorem modDie {d : Nat} {f : Die → Die} (h : Canonical s) (hf : ∀ x, dieCanonical x → dieCanonical (f x)) : Canonical (s.modDie d f) :=
  h.setDie (hf _ (h.die d))

theorem setCluster {c : Nat} {x : Cluster} (h : Canonical s) (hx : clusterCanonical x) : Canonical (s.setCluster c x) :=
  h.withClusters (SMap.forall_put h.clusters c hx)

theorem modCluster {c : Nat} {f : Cluster → Cluster} (h : Canonical s) (hf : ∀ x, clusterCanonical x → clusterCanonical (f x)) :
    Canonical (s.modCluster c f) :=
  h.setCluster (hf _ (h.cluster c))

theorem modCrew {c slot : Nat} {f : Crew → Crew} (h : Canonical s) (hf : ∀ w, crewCanonical w → crewCanonical (f w)) : Canonical (s.modCrew c slot f) :=
  h.modCore fun _ hk => hk.withCrews (forall_modFirst hk.2 _ hf)

theorem modGroup {c slot gid : Nat} {f : Group → Group} (h : Canonical s) : Canonical (s.modGroup c slot gid f) := h.modCrew fun _ hw => hw

theorem modSplit {r : SplitRef} {f : Split → Split} (h : Canonical s) : Canonical (s.modSplit r f) := h.modGroup

/-! ### What holds no memory written -/

theorem setPort {p : Nat} {v : Port} (h : Canonical s) : Canonical (s.setPort p v) := h

theorem setRail {r : Nat} {v : Rail} (h : Canonical s) : Canonical (s.setRail r v) := h

theorem setFn {f : Nat} {v : Fn} (h : Canonical s) : Canonical (s.setFn f v) := h

theorem modFn {f : Nat} {g : Fn → Fn} (h : Canonical s) : Canonical (s.modFn f g) := h

theorem setPart {p : Nat} {v : Part} (h : Canonical s) : Canonical (s.setPart p v) := h

theorem modPart {p : Nat} {g : Part → Part} (h : Canonical s) : Canonical (s.modPart p g) := h

theorem setAqi {f n : Nat} {a : Aqi} (h : Canonical s) : Canonical (s.setAqi f n a) := h

theorem modLaunch {p : Nat} {id : Word} {f : Launch → Launch} (h : Canonical s) : Canonical (s.modLaunch p id f) := h

theorem modPacket {id : Nat} {f : Packet → Packet} (h : Canonical s) : Canonical (s.modPacket id f) := h

theorem msix {f e : Nat} (h : Canonical s) : Canonical (s.msix f e) := h

theorem modSnap {p i : Nat} {f : Snap → Snap} (h : Canonical s) : Canonical (s.modSnap p i f) := h

/-! ### Branches and repetition -/

theorem ite {c : Prop} {_ : Decidable c} (h : Canonical s) (ht : Canonical t) : Canonical (if c then s else t) := by
  split
  · exact h
  · exact ht

theorem foldl {α : Type} {l : List α} {f : State → α → State} (h : Canonical s) (hf : ∀ u a, Canonical u → Canonical (f u a)) :
    Canonical (l.foldl f s) :=
  List.foldlRecOn l f h fun u hu a _ => hf u a hu

end Canonical

end Sys2Proof.Claim
end

section
/-!
PROOF. Canonical form under the clock, the memory writes of the device and the host, and the tables of launches, scopes and cells.
-/
namespace Sys2Proof.Claim
open Sys2Proof.Machine
variable {s t : State}

/-- Idle cycles touch no memory. -/
theorem coreCanonical.catchUp {k : Core} (h : coreCanonical k) (s : State) (core : Nat) : coreCanonical (catchUp s core k) := by
  unfold Machine.catchUp
  extract_lets t k1 k2 len n
  have h1 : coreCanonical k1 := by unfold k1; split <;> exact h
  have h2 : coreCanonical k2 := List.foldlRecOn (motive := coreCanonical) _ _ h1 fun _ hk _ _ => by split <;> exact hk
  clear_value k2
  exact h2

namespace Canonical

theorem caughtUp {core : Nat} (h : Canonical s) : Canonical (s.caughtUp core) := h.setCore ((h.core core).catchUp s core)

theorem allCaughtUp {t : RailTarget} (h : Canonical s) : Canonical (s.allCaughtUp t) := h.foldl fun _ _ h => h.caughtUp

/-! ### Memory written (R139, R142, R158) -/

theorem journalFor {p i : Nat} {n : Snap} {page : Nat} (h : Canonical s) : Canonical (s.journalFor p i n page) := by
  unfold State.journalFor
  exact h.ite (h.ite (.ite (.modPart (h.withMem (Memory.setBytes_wf _ _ (Memory.setBytes_wf _ _ h.mem_wf)))) h.modPart))

theorem journalPage {pp : Nat} (h : Canonical s) : Canonical (s.journalPage pp) := h.foldl fun _ _ h => h.journalFor

theorem devWrite {pa : Nat} {bs : List Byte} (h : Canonical s) : Canonical (s.devWrite pa bs) :=
  h.journalPage.withMem (Memory.setBytes_wf _ _ h.journalPage.mem_wf)

theorem devZero {lo hi : Nat} (h : Canonical s) : Canonical (s.devZero lo hi) := by
  have hj : Canonical ((s.snapPagesIn lo hi).foldl State.journalPage s) := h.foldl fun _ _ h => h.journalPage
  exact hj.withMem (Memory.zeroRange_wf _ _ hj.mem_wf)

theorem clearPoison {rs : List (Nat × Nat)} (h : Canonical s) : Canonical (s.clearPoison rs) := h

theorem startTest {row : Nat} (h : Canonical s) : Canonical (s.startTest row) := by
  unfold State.startTest
  exact .ite h h

theorem testWalk {p pasid va : Nat} (h : Canonical s) : Canonical (s.testWalk p pasid va) := by
  unfold State.testWalk
  split
  · exact h.startTest
  · exact h
  · split
    · exact h.startTest
    · exact h

theorem testVa {p pasid : Nat} {va : Dword} {n party : Nat} (h : Canonical s) : Canonical (s.testVa p pasid va n party) := by
  unfold State.testVa
  split
  · exact h.testWalk
  · exact h
  · exact h.startTest.ite h

theorem testWords {p pasid : Nat} {va : Dword} {n party : Nat} (h : Canonical s) : Canonical (s.testWords p pasid va n party) :=
  h.foldl fun _ _ h => h.testVa

theorem dropStaleAts {f pasid : Nat} (h : Canonical s) : Canonical (s.dropStaleAts f pasid) := h

theorem atsAsk {f pasid iova : Nat} {w : Bool} (h : Canonical s) : Canonical (s.atsAsk f pasid iova w) := h.modFn

theorem clearHostPoison {rs : List (Nat × Nat)} (h : Canonical s) : Canonical (s.clearHostPoison rs) := h

theorem hostRmwWrite {x : HostRmw} (h : Canonical s) : Canonical (s.hostRmwWrite x) :=
  h.withHost (List.foldlRecOn (motive := fun m : Memory => m.wf = true) _ _ h.host_wf fun _ hm _ _ => Memory.setBytes_wf _ _ hm)

theorem hostBefore {f a n : Nat} (h : Canonical s) : Canonical (s.hostBefore f a n) := h.foldl fun _ _ h => h.hostRmwWrite

theorem hostSettled {f pasid iova n : Nat} {w : Bool} (h : Canonical s) : Canonical (s.hostSettled f pasid iova n w) := by
  unfold State.hostSettled
  exact h.ite (h.foldl fun _ _ h => h.hostBefore)

theorem hostWrite {f pasid iova : Nat} {bs : List Byte} (h : Canonical s) : Canonical (s.hostWrite f pasid iova bs) :=
  h.hostSettled.withHost (List.foldlRecOn (motive := fun m : Memory => m.wf = true) _ _ h.hostSettled.host_wf fun _ hm _ _ => Memory.set_wf _ _ hm)

/-! ### Launches, records, scopes and cells (R71 to R99) -/

theorem countTrap {p : Nat} {id : Word} {t : FirstTrap} (h : Canonical s) : Canonical (s.countTrap p id t) := h.modLaunch

theorem countFault {p : Nat} {id : Word} {die : Nat} {cause : Byte} {a : Dword} (h : Canonical s) : Canonical (s.countFault p id die cause a) := h.countTrap

/-- A record joins a queue: its saved crew must be canonical. -/
theorem putRec {d : Nat} {q : QRec} (h : Canonical s) (hq : recCanonical q) : Canonical (s.putRec d q) :=
  h.modDie fun _ hx => forall_append hx (List.forall_mem_singleton.mpr hq)

theorem enqueue {d p : Nat} {pasid : BitVec 20} {t : TaskRec} {root : Option RootExt} {byGen : Bool} {a : Dword} (h : Canonical s) :
    Canonical (s.enqueue d p pasid t root byGen a) := h.putRec fun _ hw => nomatch hw

theorem setScope {p id : Nat} {e : ScopeEnt} (h : Canonical s) : Canonical (s.setScope p id e) := by
  unfold State.setScope
  have h1 : Canonical { s with scopes := s.scopes.put (p * 65536 + id) e } := h
  exact h1.devWrite.ite h1

theorem complete {id result : Nat} {opv : Dword} {exc : Byte} {trap : Option FirstTrap} {n : Nat} (h : Canonical s) :
    Canonical (s.complete id result opv exc trap n) := h.modPacket

theorem workOf {p : Nat} (h : Canonical s) : Canonical (s.workOf p) := by
  unfold State.workOf
  exact .ite h h

theorem lastShare {l : Launch} (h : Canonical s) : Canonical (s.lastShare l) := by
  unfold State.lastShare
  exact .ite h h

theorem completeLaunch {p id result : Nat} (h : Canonical s) : Canonical (s.completeLaunch p id result) := by
  unfold State.completeLaunch
  split
  · split
    · exact h.complete
    · exact h
  · split
    · exact h
    · exact h.lastShare

theorem freeScopes {p : Nat} (h : Canonical s) : Canonical (s.freeScopes p) := by
  unfold State.freeScopes
  refine h.foldl fun u _ hu => ?_
  exact .ite (.ite hu.setScope.completeLaunch hu.setScope) hu

theorem nameCell {p pasid : Nat} {va : Dword} {party : Nat} (h : Canonical s) : Canonical (s.nameCell p pasid va party) := by
  unfold State.nameCell
  split
  · exact .ite h h
  · exact h

theorem queueReleased {d : Nat} {c : HeldCell} (h : Canonical s) : Canonical (s.queueReleased d c) := by
  unfold State.queueReleased
  have hq := h.putRec (d := d)
    (q := { part := c.part, pasid := c.pasid, prio := c.task.prio, bin := binOf c.task.key, task := c.task, root := none, saved := none, byGen := false,
            spilled := false, addr := c.cell + 64, pkt := none, reset := c.reset }) fun _ hw => nomatch hw
  exact .ite (.ite hq.nameCell hq) (h.modDie fun _ hx => hx)

theorem releaseCell {d p : Nat} {pasid : BitVec 20} {cell : Dword} {l : Option Word} (h : Canonical s) : Canonical (s.releaseCell d p pasid cell l) := by
  unfold State.releaseCell
  dsimp only
  split
  · exact h.testWords.countFault
  · refine .ite h.countFault (.ite h.testWords.countFault ?_)
    split
    · exact h.countFault
    · exact h
    · exact h
    · exact h.queueReleased

theorem devAdd {p : Nat} {pasid : BitVec 20} {va n : Dword} {q : Option Nat} {l : Option Word} {party : Nat} (h : Canonical s) :
    Canonical (s.devAdd p pasid va n q l party).1 := by
  unfold State.devAdd
  split
  · exact h.testVa
  · split
    · exact h.startTest
    · dsimp only
      split
      · exact h.devWrite.releaseCell
      · exact h.devWrite

theorem succDecrement {d p : Nat} {pasid : BitVec 20} {succ : Dword} {l : Word} {reset : Bool} (h : Canonical s) :
    Canonical (s.succDecrement d p pasid succ l reset) := by
  unfold State.succDecrement
  refine h.ite ?_
  have ha := (h.nameCell (p := p) (pasid := pasid.toNat) (va := succ) (party := 96 + d)).devAdd (p := p) (pasid := pasid) (va := succ) (n := BitVec.allOnes 64)
    (q := some d) (l := some l) (party := 96 + d)
  split <;> rename_i he <;> rw [he] at ha
  · exact ha
  · exact ha.countFault

theorem recordEnded {p : Nat} {id : Word} {b r : Bool} (h : Canonical s) : Canonical (s.recordEnded p id b r) := h.modLaunch

theorem ackAdd {p id : Nat} {n : Dword} (h : Canonical s) : Canonical (s.ackAdd p id n) := by
  unfold State.ackAdd
  refine h.ite ?_
  have ha := h.devAdd (p := p) (pasid := (s.scope p id).opas) (va := (s.scope p id).acka) (n := n) (q := none) (l := none) (party := 104)
  split <;> rename_i he <;> rw [he] at ha
  · exact ha
  · dsimp only
    split
    · exact ha.setScope.countFault
    · exact ha.setScope

theorem ackScope {p id : Nat} (h : Canonical s) : Canonical (s.ackScope p id) := by
  unfold State.ackScope
  refine foldl ?_ fun _ _ h => h.modPacket
  refine foldl ?_ fun _ _ h => h.complete
  have h1 : ∀ l : List Nat, Canonical (l.foldl (fun s x => s.setScope p x { s.scope p x with st := .cancelled }) s) := fun _ =>
    h.foldl fun _ _ h => h.setScope
  exact .ite (h1 _).setScope.ackAdd.setScope.completeLaunch (h1 _).setScope.ackAdd.setScope

theorem acceptCancel {p id : Nat} {pkt src : Option Nat} (h : Canonical s) : Canonical (s.acceptCancel p id pkt src) := by
  unfold State.acceptCancel
  refine .ite h.setScope.ackScope.freeScopes (foldl (.ite (h.setScope.foldl fun _ _ h => ?_) h.setScope) fun _ _ h => h.modDie fun _ hx => hx)
  exact .ite h.setScope h

end Canonical

end Sys2Proof.Claim
end

section
/-!
PROOF. Canonical form under what happens to crews, groups and the paddle, and under traps.
-/
namespace Sys2Proof.Claim
open Sys2Proof.Machine
variable {s t : State}

/-! ## Crews and cores (R69 to R123) -/

theorem recCanonical.mapSaved {q : QRec} {f : Crew → Crew} (h : recCanonical q) (hf : ∀ w, crewCanonical w → crewCanonical (f w)) :
    recCanonical { q with saved := q.saved.map f } := by
  intro w hw
  obtain ⟨v, hv, rfl⟩ := Option.map_eq_some_iff.mp hw
  exact hf v (h v hv)

theorem dieCanonical.mapSaved {x : Die} {f : Crew → Crew} (h : dieCanonical x) (hf : ∀ w, crewCanonical w → crewCanonical (f w)) :
    dieCanonical { x with queue := x.queue.map fun q => { q with saved := q.saved.map f } } :=
  forall_map h fun _ hq => recCanonical.mapSaved hq hf

theorem coreCanonical.grant {k : Core} (h : coreCanonical k) : coreCanonical k.grant := by
  unfold Core.grant
  split <;> exact h

theorem coreCanonical.dropPaddle {k : Core} {c : Nat} (h : coreCanonical k) : coreCanonical (k.dropPaddle c) := coreCanonical.grant h

theorem coreCanonical.handOver {k : Core} {c : Nat} (h : coreCanonical k) : coreCanonical (k.handOver c) := by
  unfold Core.handOver
  split
  · split <;> exact h
  · exact h

theorem coreCanonical.askPaddle {k : Core} {c : Nat} (h : coreCanonical k) : coreCanonical (k.askPaddle c) := by
  unfold Core.askPaddle
  have ha : coreCanonical (if k.paddleReq.contains c then k.grant else { k with paddleReq := k.paddleReq ++ [c] }.grant) := by
    split
    · exact h.grant
    · exact coreCanonical.grant h
  split
  · exact h
  · dsimp only
    split
    · exact ha.handOver
    · exact ha

theorem coreCanonical.filterCrews {k : Core} {p : Crew → Bool} (h : coreCanonical k) : coreCanonical { k with crews := k.crews.filter p } :=
  h.withCrews (forall_filter h.2 p)

theorem crewCanonical.senderGone {d w : Crew} {core : Nat} (h : crewCanonical d) : crewCanonical (d.senderGone w core) := by
  unfold Crew.senderGone
  dsimp only
  split <;> exact h

namespace Canonical

theorem askWaiters {core slot : Nat} (h : Canonical s) : Canonical (askWaiters s core slot) := by
  unfold Machine.askWaiters
  split
  · exact .ite (h.modCore fun _ hk => hk.askPaddle) h
  · exact h

theorem advanceRound {core slot n : Nat} (h : Canonical s) : Canonical (advanceRound core slot n s) := by
  induction n generalizing s with
  | zero => exact h
  | succ n ih =>
    unfold Machine.advanceRound
    split
    · exact h
    · split
      · exact h
      · exact ih (askWaiters (modCore (h.modCrew fun _ hw => hw) fun _ hk => hk.handOver))

/-! ### The end of groups and crews (R75, R92 to R97) -/

theorem cancelSender {core : Nat} {w : Crew} (h : Canonical s) : Canonical (cancelSender s core w) := by
  unfold Machine.cancelSender
  refine withDies (h.withCores (List.forall_mem_map.mpr fun e he => ?_)) (List.forall_mem_map.mpr fun e he => ?_)
  · dsimp only
    split
    · exact (h.cores e he).mapCrews fun _ hw => hw.senderGone
    · exact h.cores e he
  · dsimp only
    split
    · exact dieCanonical.mapSaved (h.dies e he) fun _ hw => hw.senderGone
    · exact h.dies e he

theorem removeCrew {core : Nat} {w : Crew} (h : Canonical s) : Canonical (removeCrew s core w) :=
  h.modCore fun _ hk => hk.dropPaddle.withCrews (forall_filter hk.2 _)

theorem crewEnds {core : Nat} {w : Crew} (h : Canonical s) : Canonical (crewEnds s core w) :=
  freeScopes (removeCrew (recordEnded (modLaunch (.ite h.succDecrement.cancelSender h.succDecrement))))

theorem killedEnds {core slot : Nat} (h : Canonical s) : Canonical (killedEnds s core slot) := by
  unfold Machine.killedEnds
  split
  · exact h
  · exact .ite h.crewEnds h

theorem groupEnds {core slot gid : Nat} {dies : Bool} (h : Canonical s) : Canonical (groupEnds s core slot gid dies) :=
  killedEnds (advanceRound (h.modCrew fun _ hw => hw))

theorem killWaiting {core slot : Nat} (h : Canonical s) : Canonical (killWaiting s core slot) := by
  unfold Machine.killWaiting
  split
  · exact h
  · exact h.foldl fun _ _ h => h.groupEnds

theorem killDoomed {core slot : Nat} (h : Canonical s) : Canonical (killDoomed s core slot) := by
  unfold Machine.killDoomed
  split
  · exact h
  · exact h.foldl fun _ _ h => h.groupEnds

theorem endIfWaits {core slot gid : Nat} (h : Canonical s) : Canonical (endIfWaits s core slot gid) := by
  unfold Machine.endIfWaits
  split
  · exact h
  · split
    · exact h
    · exact .ite h.groupEnds h

theorem settleDoomed {core : Nat} (h : Canonical s) : Canonical (settleDoomed s core) := h.foldl fun _ _ h => h.endIfWaits

theorem killSaved {d : Nat} {w : Crew} (h : Canonical s) : Canonical (killSaved s d w) := h.succDecrement.cancelSender.modLaunch.recordEnded

theorem discardRec {d : Nat} {q : QRec} (h : Canonical s) : Canonical (discardRec s d q) := by
  unfold Machine.discardRec
  split
  · exact h.killSaved
  · exact h
  · exact h.succDecrement.recordEnded

theorem discardWhere {d : Nat} {f : QRec → Bool} (h : Canonical s) : Canonical (discardWhere s d f) :=
  foldl (h.modDie fun _ hx => forall_filter hx _) fun _ _ h => h.discardRec

theorem discardCells {d : Nat} {f : HeldCell → Bool} (h : Canonical s) : Canonical (discardCells s d f) :=
  foldl (h.modDie fun _ hx => hx) fun _ _ h => h.succDecrement

theorem stopGenerators {d p : Nat} {ids : List Nat} (h : Canonical s) : Canonical (stopGenerators s d p ids) := h

theorem cancelCrew {core slot : Nat} (h : Canonical s) : Canonical (cancelCrew s core slot) := killWaiting (h.modCrew fun _ hw => hw)

theorem applyCancel {d p id : Nat} (h : Canonical s) : Canonical (applyCancel s d p id) :=
  freeScopes (stopGenerators (discardCells (discardWhere (foldl (h.foldl fun _ _ h => h.setScope) fun _ _ h => h.cancelCrew))))

theorem cancelHere {d p id : Nat} (h : Canonical s) : Canonical (cancelHere s d p id) := by
  unfold Machine.cancelHere
  exact .ite (applyCancel (h.modDie fun _ hx => hx)) h

/-! ### Traps (R178 to R193) -/

theorem interruptGroup {core slot gid : Nat} {b : Bool} (h : Canonical s) : Canonical (interruptGroup s core slot gid b) := by
  unfold Machine.interruptGroup
  split
  · exact h
  · split
    · exact h
    · exact h.modGroup

theorem unhandledAt {n core slot gid : Nat} {cause : Byte} {a : Dword} (h : Canonical s) : Canonical (unhandledAt s n core slot gid cause a) := by
  unfold Machine.unhandledAt
  split
  · exact h
  · exact killWaiting (groupEnds (h.countTrap.modCrew fun _ hw => hw))

theorem unhandled {core slot gid : Nat} {cause : Byte} {a : Dword} (h : Canonical s) : Canonical (unhandled s core slot gid cause a) := h.unhandledAt

theorem unhandledRecord {core slot : Nat} {g : Group} (h : Canonical s) : Canonical (unhandledRecord s core slot g) := h.unhandledAt

theorem enterHandler {core slot gid split : Nat} {ctx : Dword} (h : Canonical s) : Canonical (enterHandler s core slot gid split ctx) := h.modGroup

theorem dealOther {core slot gid split : Nat} {ctx : Option Dword} (h : Canonical s) : Canonical (dealOther s core slot gid split ctx) := by
  unfold Machine.dealOther
  split
  · exact h
  · exact .ite h.unhandledRecord h.enterHandler

theorem unparkSaved {f : Nat} {t : Word} (h : Canonical s) : Canonical (unparkSaved s f t) :=
  h.withDies (List.forall_mem_map.mpr fun e he => dieCanonical.mapSaved (h.dies e he) fun _ hw => by
    split <;> exact hw)

theorem dealHeld {f : Nat} (h : Canonical s) : Canonical (dealHeld s f) := by
  unfold Machine.dealHeld
  refine foldl h.modFn fun _ _ h => ?_
  dsimp only
  split
  · exact .ite h.unparkSaved (.ite h.modGroup h.modGroup.dealOther)
  · exact h.unparkSaved

theorem fqFail {f : Nat} (h : Canonical s) : Canonical (fqFail s f) := h.modFn.msix.dealHeld

theorem drainPosts {n f : Nat} (h : Canonical s) : Canonical (drainPosts n s f) := by
  induction n generalizing s with
  | zero => exact h
  | succ n ih =>
    unfold Machine.drainPosts
    dsimp only
    split
    · exact h
    · refine h.ite (.ite h.modFn ?_)
      split
      · exact h.atsAsk
      · exact ih h.hostWrite.modFn.msix

theorem postFaults {f : Nat} (h : Canonical s) : Canonical (postFaults s f) := h.drainPosts

theorem stopForMove {core slot gid : Nat} {se : Option (Nat × Nat)} (h : Canonical s) : Canonical (stopForMove s core slot gid se) :=
  h.modGroup.interruptGroup.modGroup

theorem siblingTrap {core : Nat} {w : Crew} {g : Group} {t : PendTrap} (h : Canonical s) : Canonical (siblingTrap s core w g t) := by
  unfold Machine.siblingTrap
  refine h.ite ?_
  split
  · exact h.countTrap
  · exact h

theorem takeTrapNow {core slot gid : Nat} {t : PendTrap} (h : Canonical s) : Canonical (takeTrapNow s core slot gid t) := by
  unfold Machine.takeTrapNow
  split
  · exact h
  · split
    · exact h
    · split
      · exact h
      · have h1 : Canonical (s.modGroup core slot gid fun g => { g with pendTrap := none, walkOut := none }) := h.modGroup
        refine .ite h1.interruptGroup (.ite h1.siblingTrap.groupEnds (.ite h1.stopForMove ?_))
        have h2 := h1.modGroup (c := core) (slot := slot) (gid := gid) (f := fun g => { g with trapAt := (s.timeOf (dieOf core)).toNat })
        refine .ite h2.modGroup.unhandled (.ite h2.interruptGroup.modGroup (.ite h2.interruptGroup.modGroup (.ite ?_ h2.interruptGroup.modGroup.dealOther)))
        exact .ite h2.interruptGroup.modGroup h2.interruptGroup.modGroup.modFn

theorem pendingTrap {core slot gid : Nat} (h : Canonical s) : Canonical (pendingTrap s core slot gid) := by
  unfold Machine.pendingTrap
  split
  · exact h
  · split
    · exact h
    · split
      · exact h.takeTrapNow
      · split
        · exact .ite h.modGroup.takeTrapNow h
        · exact h

theorem raise {core slot gid : Nat} {t : PendTrap} (h : Canonical s) : Canonical (raise s core slot gid t) := h.modGroup.pendingTrap

theorem takeTrap {core slot gid split : Nat} {code : Byte} {ln : Nat} {a : Dword} (h : Canonical s) :
    Canonical (takeTrap s core slot gid split code ln a) := by
  unfold Machine.takeTrap
  refine raise (.ite ?_ h)
  split
  · exact h.testWalk
  · exact h

theorem settleTraps {core : Nat} (h : Canonical s) : Canonical (settleTraps s core) := h.foldl fun _ _ h => h.pendingTrap

theorem leaveHandler {core slot gid : Nat} (h : Canonical s) : Canonical (leaveHandler s core slot gid) := by
  unfold Machine.leaveHandler
  split
  · exact h
  · split
    · exact h
    · exact h.modGroup.interruptGroup

end Canonical

end Sys2Proof.Claim
end

section
/-!
PROOF. Canonical form under the driver of instruction words, the words that only write registers, and control words.
-/
namespace Sys2Proof.Claim
open Sys2Proof.Machine
variable {s t : State}

/-! ## What a word comes to -/

/-- A word's result holds canonical memories, if it holds a state. -/
def resCanonical : Res → Prop
  | .ok t => Canonical t
  | _ => True

/-- The outcome of a step holds canonical memories, if it is a next state. -/
def outCanonical : Out3 → Prop
  | .next t => Canonical t
  | _ => True

theorem resCanonical.ite {c : Prop} {_ : Decidable c} {a b : Res} (ha : resCanonical a) (hb : resCanonical b) : resCanonical (if c then a else b) := by
  split
  · exact ha
  · exact hb

theorem outCanonical.ite {c : Prop} {_ : Decidable c} {a b : Out3} (ha : outCanonical a) (hb : outCanonical b) : outCanonical (if c then a else b) := by
  split
  · exact ha
  · exact hb

namespace Canonical

/-! ### The driver of an instruction word (R112, R124, R181) -/

theorem finish {c : Ctx} {r : Res} (h : Canonical s) (hr : resCanonical r) : outCanonical (finish s c r) := by
  cases r with
  | trap code ln a => exact h.takeTrap
  | park p => exact h.modSplit.pendingTrap.endIfWaits
  | ok t => exact hr.pendingTrap

theorem runWord {k : RowKind} {codes : Ctx → List (Option Byte)} {body : Ctx → Res} (h : Canonical s) (hb : ∀ c, resCanonical (body c)) :
    outCanonical (runWord s k codes body) := by
  unfold Machine.runWord
  split
  · exact trivial
  · split
    · exact h.finish trivial
    · exact h.finish (hb _)

theorem completeWith {c : Ctx} {ws : List Wr} {fl : Byte} {t : TClass} {f : Split → Split} (h : Canonical s) : Canonical (completeWith s c ws fl t f) :=
  h.modGroup

theorem completed {c : Ctx} {ws : List Wr} {fl : Byte} {t : TClass} (h : Canonical s) : Canonical (Machine.complete s c ws fl t) := h.completeWith

theorem commit {c : Ctx} {ws : List Wr} {t : TClass} (h : Canonical s) : Canonical (commit s c ws t) := h.completeWith.modGroup

theorem finishWrites {c : Ctx} {ws : List Wr} {fl : Byte} {t : TClass} (h : Canonical s) : resCanonical (finishWrites s c ws fl t) := by
  unfold Machine.finishWrites
  split
  · exact trivial
  · exact h.completed

/-! ### Words that only write registers (R232 to R296) -/

theorem scalar2 {f : RWord} {t : TClass} {op : Dword → Dword → Dword} (h : Canonical s) : outCanonical (scalar2 f t op s) :=
  h.runWord fun _ => h.finishWrites

theorem scalar3 {f : RWord} {op : Dword → Dword → Dword → Dword} (h : Canonical s) : outCanonical (scalar3 f op s) := h.runWord fun _ => h.finishWrites

theorem scalar1 {f : RWord} {op : Dword → Dword} (h : Canonical s) : outCanonical (scalar1 f op s) := h.runWord fun _ => h.finishWrites

theorem scalarFlag {f : RWord} {b : Bool} {op : Int → Int → Int} (h : Canonical s) : outCanonical (scalarFlag f b op s) := h.runWord fun _ => h.finishWrites

theorem scalarCmp {f : RWord} {p : Dword → Dword → Bool} (h : Canonical s) : outCanonical (scalarCmp f p s) := h.runWord fun _ => h.finishWrites

theorem scalarImm {f : IWord} {op : Dword → Word → Dword} (h : Canonical s) : outCanonical (scalarImm f op s) := h.runWord fun _ => h.finishWrites

theorem laneWord {f : MRWord} {two dirs sat : Bool} {t : TClass} {konst : BitVec 7 → Word} {op : Word → Word → Word × Byte} (h : Canonical s) :
    outCanonical (laneWord f two dirs sat t konst op s) := h.runWord fun _ => h.finishWrites

theorem immWord {f : IWord} {bad : Bool} {op : Word → Word} (h : Canonical s) : outCanonical (immWord f bad op s) := h.runWord fun _ => h.finishWrites

theorem fmaWord {f : FmaWord} {g : FloatFmt} {p c : Bool} (h : Canonical s) : outCanonical (fmaWord f g p c s) := h.runWord fun _ => h.finishWrites

theorem narrow {f : CvtWord} {g : FloatFmt} (h : Canonical s) : outCanonical (narrow f g s) := h.runWord fun _ => by
  dsimp only
  split
  · exact h.finishWrites
  · exact h.finishWrites

theorem compare {f : MRWord} {konst : BitVec 7 → Word} {p : Word → Word → Bool} (h : Canonical s) : outCanonical (Machine.compare f konst p s) :=
  h.runWord fun _ => h.finishWrites

theorem klogic {f : MRWord} {two : Bool} {op : Word → Word → Word} (h : Canonical s) : outCanonical (klogic f two op s) := h.runWord fun _ => h.finishWrites

theorem permute {f : MRWord} {g : Mask → Mask → Lanes → Mask × Lanes} (h : Canonical s) : outCanonical (permute f g s) :=
  h.runWord fun _ => h.finishWrites

theorem slide {f : MRWord} {up : Bool} (h : Canonical s) : outCanonical (slide f up s) := h.runWord fun _ => h.finishWrites

theorem hold {c : Ctx} {n : Nat} (h : Canonical s) : Canonical (hold s c n) := h.modGroup

theorem finishHeld {c : Ctx} {n : Nat} {ws : List Wr} {fl : Byte} (h : Canonical s) : resCanonical (finishHeld s c n ws fl) := by
  unfold Machine.finishHeld
  have hw : resCanonical (Machine.finishWrites s c ws fl .t3) := h.finishWrites
  split
  · rename_i he
    rw [he] at hw
    exact hw.hold
  · exact hw

theorem reduce {f : MRWord} {dirs sat : Bool} {n : Nat} {signed : Bool} {op : SetOp} (h : Canonical s) : outCanonical (reduce f dirs sat n signed op s) :=
  h.runWord fun _ => h.finishHeld

theorem scan {f : MRWord} {dirs sat : Bool} {n : Nat} {op : SetOp} (h : Canonical s) : outCanonical (scan f dirs sat n op s) := h.runWord fun _ => h.finishHeld

theorem addOut {c : Ctx} {o : Out} (h : Canonical s) : Canonical (addOut s c o) := foldl h.modGroup fun _ _ h => h.setPort

theorem special {f : MRWord} {two : Bool} {op : FVal → FVal → FRes} (h : Canonical s) : outCanonical (special f two op s) := h.runWord fun _ => by
  dsimp only
  split
  · exact trivial
  · split
    · exact .ite h.completed h.completed.addOut
    · exact h.completed

/-! ### Control (R240 to R252, R332, R333) -/

theorem leaveTun {c : Ctx} (h : Canonical s) : Canonical (s.leaveTun c) := h.modCore fun _ hk => hk

theorem exitSplit {c : Ctx} {n : Nat} {m : Mask} (h : Canonical s) : Canonical (exitSplit s c n m) := by
  unfold Machine.exitSplit
  dsimp only
  split
  · exact h.modGroup.leaveTun
  · exact .ite h.modGroup.leaveTun.groupEnds h.modGroup.leaveTun

theorem moveTo {c : Ctx} {ws : List Wr} {p : Pcoff} (h : Canonical s) : Canonical (moveTo s c ws p) := h.completeWith

theorem divide {c : Ctx} {m : Mask} {p : Pcoff} (h : Canonical s) : resCanonical (divide s c m p) := by
  unfold Machine.divide
  dsimp only
  split
  · exact .ite h.completeWith.modGroup trivial
  · exact h.completeWith.modGroup

theorem dieHere {c : Ctx} (h : Canonical s) : Canonical (dieHere s c) := h.groupEnds

theorem stopAtSe {c : Ctx} {id : BitVec 16} (h : Canonical s) : Canonical (stopAtSe s c id) := h.takeTrap

theorem enterStrand {c : Ctx} {id : BitVec 16} (h : Canonical s) : Canonical (enterStrand s c id) := h.completeWith.modGroup

theorem wrsr {f : RWord} (h : Canonical s) : outCanonical (execWrsr f s) := h.runWord fun _ => h.completeWith.modGroup

theorem capq {f : RWord} (h : Canonical s) : outCanonical (execCapq f s) := h.runWord fun _ => h.finishWrites

theorem br {f : IWord} (h : Canonical s) : outCanonical (execBr f s) := h.runWord fun _ => by
  split
  · exact trivial
  · exact h.moveTo

theorem branchIf {f : IWord} {p : Dword → Bool} (h : Canonical s) : outCanonical (branchIf f p s) := h.runWord fun _ => by
  split
  · exact trivial
  · exact Canonical.ite h.moveTo h.completed

theorem splitBranch {f : IWord} {b : Bool} (h : Canonical s) : outCanonical (splitBranch f b s) := h.runWord fun _ => by
  split
  · exact trivial
  · exact .ite h.moveTo (.ite h.completed h.divide)

theorem call {f : IWord} (h : Canonical s) : outCanonical (execCall f s) := h.runWord fun _ => by
  split
  · exact trivial
  · exact h.moveTo

theorem ret {f : IWord} (h : Canonical s) : outCanonical (execRet f s) := h.runWord fun _ => .ite h.moveTo trivial

theorem mark {f : IWord} (h : Canonical s) : outCanonical (execMark f s) := h.runWord fun _ => by
  refine .ite trivial ?_
  split
  · exact trivial
  · exact h.completeWith.modGroup

theorem join {f : IWord} (h : Canonical s) : outCanonical (execJoin f s) := h.runWord fun _ => by
  split
  · exact trivial
  · exact .ite trivial h.completeWith.leaveTun.modGroup

theorem exit {f : IWord} (h : Canonical s) : outCanonical (execExit f s) := h.runWord fun _ => h.exitSplit

theorem se {f : IWord} (h : Canonical s) : outCanonical (execSe f s) := by
  unfold execSe
  split
  · exact trivial
  · refine .ite h.dieHere (.ite h.stopAtSe (.ite (h.finish trivial) ?_))
    split
    · exact h.finish trivial
    · exact .ite (h.finish h.enterStrand) (h.finish trivial)

theorem migr {f : IWord} (h : Canonical s) : outCanonical (execMigr f s) :=
  h.runWord fun _ => h.commit.modCrew fun _ hw => .ite hw hw

theorem trap {f : RWord} (h : Canonical s) : outCanonical (execTrap f s) := h.runWord fun _ => h.commit.modSplit.takeTrap

theorem rte {f : RWord} (h : Canonical s) : outCanonical (execRte f s) := h.runWord fun _ => .ite trivial (.ite h.leaveHandler trivial)

end Canonical

end Sys2Proof.Claim
end

section
/-!
PROOF. Canonical form under memory words, synchronization words, and the words that spawn and cancel tasks.
-/
namespace Sys2Proof.Claim
open Sys2Proof.Machine
variable {s t : State}

/-- Bytes written to the scratchpad keep it in canonical form. -/
theorem crewCanonical.putBytes {w : Crew} {a : Nat} {bs : List Byte} (h : crewCanonical w) : crewCanonical { w with spad := w.spad.putBytes a bs } :=
  ⟨SMap.putBytes_wf a bs h.1, h.2⟩

theorem crewCanonical.putByte {w : Crew} {a : Nat} {b : Byte} (h : crewCanonical w) : crewCanonical { w with spad := w.spad.put a b } :=
  ⟨SMap.put_wf a b h.1, h.2⟩

namespace Canonical

/-! ### Loads, stores and atomics (R258 to R271) -/

theorem writeAt {n v : Nat} {l : Loc} (h : Canonical s) : Canonical (writeAt s n v l) := by
  cases l with
  | spad core slot off => exact h.modCrew fun _ hw => hw.putBytes
  | dev pa => exact h.devWrite
  | peer p => exact h
  | host a => exact h.withHost (Memory.setBytes_wf _ _ h.host_wf)
  | image b bad => exact h

theorem unpoison {n : Nat} {ls : List (Nat × Loc)} (h : Canonical s) : Canonical (unpoison s n ls) := by
  unfold Machine.unpoison
  refine foldl h.clearPoison.clearHostPoison fun _ _ h => ?_
  dsimp only
  split
  · exact h.modCrew fun _ hw => hw
  · exact h

theorem askHost {c : Ctx} {ln iova : Nat} {w : Bool} (h : Canonical s) : resCanonical (askHost s c ln iova w) := .ite trivial h.atsAsk.modSplit

theorem trapPoison {c : Ctx} {code : Byte} {loc : Loc} {l : Nat} {a : Dword} (h : Canonical s) : resCanonical (trapPoison s c code loc l a) := by
  unfold Machine.trapPoison
  show Canonical (Machine.takeTrap _ _ _ _ _ _ _ _)
  refine takeTrap ?_
  split
  · exact h.startTest
  · exact h

theorem rejectLoad {c : Ctx} {sp : Space} {ln : Nat} {a : Dword} (h : Canonical s) : resCanonical (rejectLoad s c sp ln a) := by
  refine takeTrap (modSplit (.ite h.dropStaleAts (h.modCluster fun _ hx => hx)))

theorem hostBefores {p n : Nat} {ls : List (Nat × Loc)} (h : Canonical s) : Canonical (hostBefores s p n ls) := by
  unfold Machine.hostBefores
  refine h.ite (h.foldl fun _ x h => ?_)
  obtain ⟨_, loc⟩ := x
  dsimp only
  split
  · exact h.hostBefore
  · exact h

theorem constFill {c : Ctx} {as : List (Nat × Dword)} {ls : List (Nat × Loc)} (h : Canonical s) : Canonical (constFill s c as ls) :=
  h.modCore fun _ hk => ⟨hk.1, hk.2⟩

theorem storeLanes {n : Nat} {v : Nat → Nat} {ls : List (Nat × Loc)} (h : Canonical s) : Canonical (storeLanes s n v ls) := h.foldl fun _ _ h => h.writeAt

theorem hostStore {p n : Nat} {v : Nat → Nat} {ls : List (Nat × Loc)} (h : Canonical s) : Canonical (hostStore s p n v ls) := h

theorem loadWord {sp : Space} {f : MWord} (h : Canonical s) : outCanonical (loadWord sp f s) := h.runWord fun c => by
  refine .ite trivial ?_
  dsimp only
  split
  · exact trivial
  · exact h.rejectLoad
  · exact h.askHost
  · split
    · exact h.trapPoison
    · exact addOut (.ite (modSplit (completed (.ite h.hostBefores.constFill h.hostBefores))) (completed (.ite h.hostBefores.constFill h.hostBefores)))

theorem storeWord {sp : Space} {f : MWord} (h : Canonical s) : outCanonical (storeWord sp f s) := h.runWord fun c => by
  refine .ite trivial ?_
  dsimp only
  split
  · exact trivial
  · exact h.rejectLoad
  · exact h.askHost
  · exact addOut (completed (.ite h.hostBefores.hostStore h.hostBefores.storeLanes.unpoison))

theorem atomLane {c : Ctx} {op : AOp} {wide : Bool} {n b cc : Nat} {a : Dword} {loc : Loc} (h : Canonical s) :
    Canonical (atomLane s c op wide n b cc a loc).1 := by
  unfold Machine.atomLane
  dsimp only
  split
  · split
    · exact h.writeAt.releaseCell
    · exact h.writeAt
  · exact h.writeAt

theorem atomLanes {c : Ctx} {op : AOp} {wide : Bool} {n : Nat} {b cc : Nat → Nat} {ls : List (Nat × Dword × Loc)} (h : Canonical s) :
    Canonical (atomLanes s c op wide n b cc ls).1 := by
  induction ls generalizing s with
  | nil => exact h
  | cons x ls ih => exact ih h.atomLane

theorem atomic {sp : Space} {op : AOp} {f : AWord} (h : Canonical s) : outCanonical (atomic sp op f s) := h.runWord fun c => by
  refine .ite trivial ?_
  dsimp only
  split
  · exact trivial
  · exact h.rejectLoad
  · exact h.askHost
  · split
    · exact h.trapPoison
    · refine .ite h.hostBefores.addOut.modSplit (.ite (modSplit (addOut h.hostBefores)) (addOut (commit h.hostBefores.atomLanes)))

/-! ### Fences, barriers and waits (R273, R320 to R324) -/

theorem fenceOn {ids : Ctx → List Nat} {done : Ctx → Split → Split} (h : Canonical s) : outCanonical (fenceOn ids done s) :=
  h.runWord fun _ => .ite trivial h.completeWith

theorem dropLines {c : Ctx} (h : Canonical s) : Canonical (dropLines s c) := h.modCore fun _ hk => hk

theorem seeGrist {c : Ctx} (h : Canonical s) : Canonical (seeGrist s c) := h.modCrew fun _ hw => hw

theorem xfence {f : XfenceWord} (h : Canonical s) : outCanonical (execXfence f s) := h.runWord fun c => by
  have done : Canonical (if f.b == .instr then Machine.dropLines (Machine.complete s c [] 0 .t1) c else Machine.complete s c [] 0 .t1) :=
    .ite h.completed.dropLines h.completed
  dsimp only
  split
  · exact .ite trivial done
  · split
    · exact trivial
    · exact done
  · exact .ite h.completed.seeGrist done
  · exact done

theorem fenceI {w : Bool} (h : Canonical s) : outCanonical (execFenceI w s) := h.runWord fun _ => h.completed.dropLines

theorem barWord {f : RWord} {stays : Bool} (h : Canonical s) : outCanonical (barWord f stays s) := h.runWord fun c => by
  refine .ite trivial (.ite trivial (.ite h.dieHere (.ite trivial (.ite trivial (.ite trivial ?_)))))
  have ht := fun ws => (h.commit (c := c) (ws := ws) (t := .t1)).modCrew (c := c.r.core) (slot := c.r.crew)
    (f := fun w => w.arrive c.r.gid (sval s c 1 f.a).toNat (if (sval s c 2 f.b).toNat == 0 then c.crew.n else (sval s c 2 f.b).toNat)) fun _ hw => hw
  exact Canonical.ite (ht _).modSplit (ht _)

theorem askForWait {r : SplitRef} {w : Crew} {cs : List WaitCond} (h : Canonical s) : Canonical (askForWait s r w cs) := by
  unfold Machine.askForWait
  exact .ite (h.modCore fun _ hk => hk.askPaddle) h

theorem pollWait {r : SplitRef} (h : Canonical s) : Canonical (pollWait s r) := by
  unfold Machine.pollWait
  split
  · split
    · exact h
    · dsimp only
      split
      · exact h.askForWait
      · exact h.askForWait.modGroup
  · exact h

theorem pollWaits (h : Canonical s) : Canonical (pollWaits s) := h.foldl fun _ _ h => h.pollWait

theorem wait {f : RWord} (h : Canonical s) : outCanonical (execWait f s) := h.runWord fun c => by
  refine .ite trivial (.ite trivial (.ite trivial (.ite trivial ?_)))
  split
  · exact trivial
  · exact h.trapPoison
  · exact .ite h.dieHere h.completeWith.pollWait

theorem pass {f : RWord} (h : Canonical s) : outCanonical (execPass f s) := h.runWord fun _ =>
  .ite trivial (.ite trivial (.ite trivial (advanceRound (askWaiters (modCore (h.commit.modCrew fun _ hw => hw) fun _ hk => hk.handOver)))))

/-! ### The copy ring (R325, R326) -/

theorem cpost {f : RWord} (h : Canonical s) : outCanonical (execCpost f s) := h.runWord fun _ =>
  .ite trivial (.ite trivial (.ite trivial ((unpoison (h.commit.foldl fun _ _ h => h.writeAt)).modCrew fun _ hw => hw)))

theorem cdrain {f : RWord} (h : Canonical s) : outCanonical (execCdrain f s) := h.runWord fun _ => .ite trivial h.completed

/-! ### Tasks (R327 to R331) -/

/-- Where the check of a record fails, its result holds canonical memories. -/
theorem recordCheck {c : Ctx} {a : Dword} {n : Nat} {r : Res} (h : Canonical s) (hr : recordCheck s c a n = some r) : resCanonical r := by
  unfold Machine.recordCheck at hr
  split at hr
  · rw [← Option.some.inj hr]
    exact trivial
  · dsimp only at hr
    split at hr
    · rw [← Option.some.inj hr]
      exact trivial
    · rw [← Option.some.inj hr]
      exact h.rejectLoad
    · exact nomatch hr
    · obtain ⟨x, -, rfl⟩ := Option.map_eq_some_iff.mp hr
      exact h.trapPoison

theorem spawnInto {c : Ctx} {t : TaskRec} {root : Option RootExt} {a : Dword} (h : Canonical s) : Canonical (spawnInto s c t root a).1 := by
  unfold Machine.spawnInto
  dsimp only
  split
  · exact h
  · exact h
  · exact h
  · split
    · exact Canonical.ite h.enqueue.nameCell h.enqueue
    · exact h

theorem spawnStatus {c : Ctx} {a : Dword} {acka : Option Dword} (h : Canonical s) : Canonical (spawnStatus s c a acka).1 := by
  -- The kernel must not evaluate either function where a match on its result is compared.
  obtain ⟨into, hinto⟩ : ∃ into, into = Machine.spawnInto := ⟨_, rfl⟩
  obtain ⟨opened, hopened⟩ : ∃ opened, opened = State.openScope? := ⟨_, rfl⟩
  have spawn : ∀ u t root, Canonical u → Canonical (into u c t root a).1 := fun _ _ _ hu => hinto ▸ hu.spawnInto
  unfold Machine.spawnStatus
  rw [← hinto, ← hopened]
  dsimp only
  split
  · exact h.testWords.countFault
  · split
    · exact spawn _ _ _ h
    · split
      · exact h
      · exact .ite (spawn _ _ _ h.setScope) (spawn _ _ _ h.setScope).freeScopes

theorem spawnWord {f : RWord} {opens : Bool} (h : Canonical s) : outCanonical (spawnWord f opens s) := h.runWord fun c => by
  refine .ite trivial ?_
  dsimp only
  split
  · rename_i hr
    exact h.recordCheck hr
  · split
    · rename_i hr
      split at hr
      · exact h.recordCheck hr
      · exact nomatch hr
    · exact h.spawnStatus.commit

theorem arm {f : RWord} (h : Canonical s) : outCanonical (execArm f s) := h.runWord fun c => by
  refine .ite trivial (.ite trivial (.ite trivial ?_))
  split
  · exact trivial
  · exact h.rejectLoad
  · exact trivial
  · exact .ite h.trapPoison h.nameCell.atomLane.commit

theorem cancel {f : RWord} (h : Canonical s) : outCanonical (execCancel f s) := h.runWord fun _ =>
  .ite h.commit (.ite h.commit h.acceptCancel.commit.cancelHere)

theorem step {f : RWord} (h : Canonical s) : outCanonical (execStep f s) := h.runWord fun _ => .ite trivial (.ite h.completed h.completed.modLaunch)

theorem retire {f : RWord} (h : Canonical s) : outCanonical (execRetire f s) := h.runWord fun _ => h.groupEnds

end Canonical

end Sys2Proof.Claim
end

section
/-!
PROOF. Canonical form under the work of the Tun and the matrix words.
-/
namespace Sys2Proof.Claim
open Sys2Proof.Machine
variable {s t : State}

/-- What reading the format block comes to holds canonical memories. -/
def blockCanonical : BlockRes → Prop
  | .ok _ t => Canonical t
  | .stop r => resCanonical r

theorem blockCanonical.ite {c : Prop} {_ : Decidable c} {a b : BlockRes} (ha : blockCanonical a) (hb : blockCanonical b) :
    blockCanonical (if c then a else b) := by
  split
  · exact ha
  · exact hb

/-- The bytes of a core's grist that belong to a crew are canonical. -/
theorem coreCanonical.bandsOfCrew {k : Core} (h : coreCanonical k) (w : Crew) : (k.bandsOfCrew w).1.wf = true := Memory.filter_wf _ h.1

theorem crewCanonical.saveGrist {w : Crew} {b : Memory × List Nat} (h : crewCanonical w) (hb : b.1.wf = true) :
    crewCanonical { w with savedGrist := some b } := ⟨h.1, fun _ hx => Option.some.inj hx ▸ hb⟩

theorem coreCanonical.gristWrite {k : Core} {goff : Nat} {act : Mask} {run : List Lanes} (h : coreCanonical k) : coreCanonical (gristWrite k goff act run) :=
  List.foldlRecOn (motive := coreCanonical) _ _ h fun _ hk _ _ => List.foldlRecOn (motive := coreCanonical) _ _ hk fun _ hk _ _ =>
    ⟨Memory.set_wf _ _ hk.1, forall_map hk.2 fun _ hw => hw⟩

namespace Canonical

/-! ### Tiles and the work of the Tun (R299 to R314) -/

theorem modTile {core slot t : Nat} {f : PhysTile → PhysTile} {g : TileMap → TileMap} (h : Canonical s) : Canonical (modTile s core slot t f g) := by
  unfold Machine.modTile
  split
  · exact h
  · exact .ite (h.modCore fun _ hk => hk) (h.modCrew fun _ hw => hw)

theorem setTile {core slot t : Nat} {d : Tile} (h : Canonical s) : Canonical (setTile s core slot t d) := h.modTile

theorem markTile {core slot t : Nat} {p : Option Nat} (h : Canonical s) : Canonical (markTile s core slot t p) := h.modTile

theorem crewFlags {core slot : Nat} {f : Byte} (h : Canonical s) : Canonical (crewFlags s core slot f) := h.modCrew fun _ hw => hw

theorem mmaStep {core : Nat} {w : Crew} {o : Mma} (h : Canonical s) : Canonical (mmaStep s core w o).1 := by
  unfold Machine.mmaStep
  extract_lets k rd lo hi old res all flags s1 s2 s3
  have h2 : Canonical s2 := .ite h.setTile.markTile h.setTile
  clear_value s2
  have h3 : Canonical s3 := by
    unfold s3
    split
    · exact h2.markTile.startTest
    · exact h2
  exact h3

theorem mmaRun {core n : Nat} {w : Crew} {o : Mma} (h : Canonical s) : Canonical (mmaRun core w n (s, o)).1 := by
  induction n generalizing s o with
  | zero => exact h
  | succ n ih =>
    unfold Machine.mmaRun
    split
    · exact h
    · exact ih h.mmaStep

theorem toBoundary {core : Nat} {w : Crew} {o : Mma} (h : Canonical s) : Canonical (toBoundary s core w o).1 := by
  unfold Machine.toBoundary
  dsimp only
  split
  · exact h.mmaStep
  · exact h

theorem drainRow {core : Nat} {w : Crew} {tile dst str : Nat} {fmt : Fmt} {i32 : Bool} {rnd : BitVec 3} {res : Option Nat}
    {shared : Nat → Bool × Bool} {i : Nat} (h : Canonical s) : Canonical (drainRow s core w tile dst str fmt i32 rnd res shared i) := by
  unfold Machine.drainRow
  extract_lets row e base put
  have hput : ∀ {u b a bs}, Canonical u → Canonical (put u b a bs) := fun hu => foldl hu fun _ _ h => .ite h (h.modCrew fun _ hw => hw.putByte)
  clear_value put
  refine unpoison (foldl h fun u _ hu => ?_)
  dsimp only
  split
  · exact (hput (hput hu)).crewFlags
  · exact (hput hu).crewFlags

theorem drainRows {core : Nat} {w : Crew} {tile : Nat} {act : Mask} {dst str : Nat} {fmt : Fmt} {i32 : Bool} {rnd : BitVec 3} {res : Option Nat}
    {row stop : Nat} (h : Canonical s) : Canonical (drainRows s core w tile act dst str fmt i32 rnd res row stop) := h.foldl fun _ _ h => h.drainRow

theorem modEntries {core crew tile : Nat} {f : ArmEntry → ArmEntry} (h : Canonical s) : Canonical (modEntries s core crew tile f) := h.modCrew fun _ hw => hw

theorem tunPerform {core : Nat} {op : TunOp} (h : Canonical s) : Canonical (tunPerform s core op) := by
  unfold Machine.tunPerform
  split
  · exact h
  · split
    · rename_i w _ _ o _
      have hm := h.mmaRun (core := core) (n := 16) (w := w) (o := o)
      split
      rename_i he
      rw [he] at hm
      exact hm.crewFlags
    · exact .ite h.setTile.markTile h.setTile
    · exact h.drainRows
    · exact h.modEntries
    · exact h
    · exact (h.modCore fun _ hk => hk.gristWrite).modGroup

theorem freezeDrain {core : Nat} {w : Crew} {op : TunOp} (h : Canonical s) : Canonical (freezeDrain s core w op).1 := by
  unfold Machine.freezeDrain
  split
  · exact h.drainRows
  · exact h

theorem stopFirst {core : Nat} {w : Crew} {urgent : Bool} {ops : List TunOp} (h : Canonical s) : Canonical (stopFirst s core w urgent ops).1 := by
  unfold Machine.stopFirst
  split
  · exact h
  · split
    · rename_i o _
      have hb : Canonical (if urgent then (s, o) else Machine.toBoundary s core w o).1 := by
        split
        · exact h
        · exact h.toBoundary
      split
      rename_i he
      rw [he] at hb
      split
      · exact hb.crewFlags
      · exact hb
    · exact h.freezeDrain

theorem stopOps {core : Nat} {w : Crew} {urgent : Bool} (h : Canonical s) : Canonical (stopOps core w urgent s).1 := by
  unfold Machine.stopOps
  have hs : ∀ l : List TunOp, Canonical (l.foldl (fun s o => Machine.tunPerform s core o) s) := fun _ => h.foldl fun _ _ h => h.tunPerform
  dsimp only
  split
  · exact stopFirst ((hs _).modCore fun _ hk => hk)
  · exact (hs _).modCore fun _ hk => hk

theorem stopTun {core slot : Nat} {urgent : Bool} (h : Canonical s) : Canonical (stopTun s core slot urgent) := by
  unfold Machine.stopTun
  split
  · exact h
  · exact h.stopOps.modCrew fun _ hw => hw

theorem resumeTun {core slot : Nat} (h : Canonical s) : Canonical (resumeTun s core slot) := by
  unfold Machine.resumeTun
  split
  · exact h
  · exact modCrew (modCore h fun _ hk => hk) fun _ hw => hw

theorem tunStep {core : Nat} (h : Canonical s) : outCanonical (execTunStep core s) := by
  unfold execTunStep
  split
  · split
    · exact .ite (.ite (h.mmaStep.modCore fun _ hk => hk) (h.modCore fun _ hk => hk)) h
    · exact h
  · exact h

theorem tunOperationDone {core : Nat} (h : Canonical s) : outCanonical (execTunOperationDone core s) := by
  unfold execTunOperationDone
  split
  · exact killedEnds (modCore h.tunPerform fun _ hk => hk)
  · exact h

theorem addMessage {core : Nat} {w : Crew} {tile : Nat} {f32 : Bool} {m : List (Option Lanes)} (h : Canonical s) : Canonical (addMessage s core w tile f32 m) :=
  h.setTile.crewFlags

theorem refuseParked {core crew tile : Nat} {e : ArmEntry} (h : Canonical s) : Canonical (refuseParked s core crew tile e) := by
  unfold Machine.refuseParked
  dsimp only
  split
  · exact h
  · exact h.foldl fun _ _ h => h.modSplit.takeTrap

theorem applyEntries {core crew tile : Nat} {f32 : Bool} {es : List ArmEntry} (h : Canonical s) : Canonical (applyEntries core crew tile f32 s es) := by
  induction es generalizing s with
  | nil => exact h
  | cons e es ih =>
    unfold Machine.applyEntries
    split
    · exact ih h
    · split
      · extract_lets s1 s2 s3 s4
        have h3 : Canonical s3 := h.addMessage.modEntries.refuseParked
        have h4 : Canonical s4 := by
          unfold s4
          split
          · exact h3.freeScopes
          · exact h3
        exact ih h4
      · exact h

theorem peerAddApply {core crew : Nat} {tile : BitVec 2} (h : Canonical s) : outCanonical (execPeerAddApply core crew tile s) := by
  unfold execPeerAddApply
  split
  · exact h
  · split
    · exact h
    · exact .ite h h.applyEntries

/-! ### Code tables and grist of the old partition kept (R189, R208, R303) -/

theorem ctabDone {core : Nat} (h : Canonical s) : Canonical (ctabDone s core) := by
  unfold Machine.ctabDone
  split
  · exact h
  · exact modGroup (modCore h fun _ hk => hk)

theorem tablesDone {core : Nat} (h : Canonical s) : Canonical (tablesDone s core) := h.foldl fun _ _ h => h.ctabDone

theorem ctabComplete {core : Nat} (h : Canonical s) : outCanonical (execCtabDone core s) := by
  unfold execCtabDone
  split
  · exact h
  · exact h.ctabDone.killedEnds

theorem refuseSpill {core slot : Nat} {cause : Byte} (h : Canonical s) : Canonical (refuseSpill s core slot cause) := by
  unfold Machine.refuseSpill
  split
  · exact h.unhandled
  · exact h

theorem spillCrew {core slot n : Nat} {f : Crew → Crew} (h : Canonical s) (hf : ∀ w, crewCanonical w → crewCanonical (f w)) :
    Canonical (spillCrew s core slot n f) := by
  -- The kernel must not evaluate the cause where the match on it is compared.
  obtain ⟨cause, hcause⟩ : ∃ cause, cause = spillCause := ⟨_, rfl⟩
  unfold Machine.spillCrew
  rw [← hcause]
  split
  · exact h
  · split
    · exact h.modCrew hf
    · exact h.refuseSpill

theorem claimGrist {core part : Nat} (h : Canonical s) : Canonical (claimGrist s core part) := by
  unfold Machine.claimGrist
  refine h.ite (modCore (h.foldl fun _ _ hu => hu.spillCrew fun _ hw => ?_) fun _ hk => ⟨rfl, forall_map hk.2 fun _ hw => hw⟩)
  exact hw.saveGrist ((h.core core).bandsOfCrew _)

theorem claimBanks {core part : Nat} (h : Canonical s) : Canonical (claimBanks s core part) := by
  unfold Machine.claimBanks
  refine h.ite (h.tablesDone.modCore fun _ hk => hk.withCrews (forall_map hk.2 fun _ hw => .ite hw hw))

/-! ### Matrix instructions (R298 to R316) -/

theorem mldaWord {b : Bool} {f : MWord} (h : Canonical s) : outCanonical (mldaWord b f s) := h.runWord fun c => by
  refine .ite trivial ?_
  dsimp only
  split
  · exact trivial
  · split
    · exact h.trapPoison
    · exact h.completed.addOut

theorem accept {c : Ctx} {k : TunKind} (h : Canonical s) : Canonical (accept s c k) := h.modCore fun _ hk => hk

theorem mldb {f : MWord} (h : Canonical s) : outCanonical (execMldb f s) := h.runWord fun _ =>
  .ite trivial (.ite trivial (.ite trivial (addOut (h.completed.claimGrist.accept.modCrew fun _ hw => hw))))

theorem withPaddle {c : Ctx} {k : State → Res} (h : Canonical s) (hk : ∀ u, Canonical u → resCanonical (k u)) : resCanonical (withPaddle s c k) := by
  unfold Machine.withPaddle
  have h1 : Canonical (s.modCore c.r.core fun x => x.askPaddle c.r.crew) := h.modCore fun _ hk => hk.askPaddle
  refine .ite trivial (.ite h1.modSplit ?_)
  have hr := hk _ h1
  split
  · exact h1.takeTrap
  · exact h1.modSplit.endIfWaits
  · rename_i hu
    rw [hu] at hr
    exact hr

theorem onTile {c : Ctx} {n : Nat} {reads : Bool} {k : Res} (hk : resCanonical k) : resCanonical (onTile s c n reads k) := by
  unfold Machine.onTile
  split
  · exact trivial
  · exact .ite trivial (.ite trivial (.ite trivial hk))

theorem readBlock {c : Ctx} {a : Dword} (h : Canonical s) : blockCanonical (readBlock s c a) := by
  unfold Machine.readBlock
  refine .ite trivial (.ite trivial ?_)
  dsimp only
  split
  · exact trivial
  · exact h.rejectLoad
  · exact trivial
  · split
    · exact h.trapPoison
    · exact h.constFill

theorem mmaWord {z : Bool} {f : RWord} (h : Canonical s) : outCanonical (mmaWord z f s) := h.runWord fun c => by
  refine .ite trivial (h.withPaddle fun u hu => .ite trivial (.ite trivial ?_))
  have hb := hu.readBlock (c := c) (a := sval u c 2 f.b)
  split <;> rename_i he <;> rw [he] at hb
  · exact hb
  · split
    · split
      · exact hb.trapPoison
      · exact trivial
    · exact onTile (.ite trivial (accept (commit (claimGrist (.ite hb.claimBanks hb)))))

theorem mzero {f : RWord} (h : Canonical s) : outCanonical (execMzero f s) := h.runWord fun _ => h.withPaddle fun _ hu => .ite trivial (onTile hu.commit.accept)

theorem mdrain {f : RWord} (h : Canonical s) : outCanonical (execMdrain f s) := h.runWord fun c => by
  refine .ite trivial (h.withPaddle fun u hu => .ite trivial ?_)
  dsimp only
  split
  · exact trivial
  · split
    · exact hu.trapPoison
    · exact onTile (accept (.ite hu.commit hu.completed))

theorem marm {f : RWord} (h : Canonical s) : outCanonical (execMarm f s) := h.runWord fun _ => h.withPaddle fun _ hu =>
  .ite trivial (onTile (hu.commit.accept.modCrew fun _ hw => hw))

theorem mdrainp {f : RWord} (h : Canonical s) : outCanonical (execMdrainp f s) := h.runWord fun _ => h.withPaddle fun _ hu => by
  refine .ite trivial ?_
  split
  · exact trivial
  · exact trivial
  · exact .ite trivial (onTile hu.commit.accept.modEntries)

theorem mstat {f : RWord} (h : Canonical s) : outCanonical (execMstat f s) := h.runWord fun _ => .ite trivial h.completed

theorem ctab {f : RWord} (h : Canonical s) : outCanonical (execCtab f s) := h.runWord fun c => by
  dsimp only
  split
  · exact trivial
  · exact .ite h.trapPoison (.ite trivial (modCrew (modCore h.claimBanks.completeWith fun _ hk => hk) fun _ hw => hw))

theorem msave {f : RWord} (h : Canonical s) : outCanonical (execMsave f s) := h.runWord fun c => h.withPaddle fun _ hu => by
  dsimp only
  split
  · exact trivial
  · refine .ite trivial (.ite trivial ?_)
    have hs := (hu.commit (c := c) (ws := []) (t := .t1)).stopOps (core := c.r.core) (w := c.crew) (urgent := true)
    generalize Machine.stopOps _ _ _ _ = x at hs ⊢
    exact unpoison (modCrew hs fun _ hw => hw.putBytes)

theorem mrest {f : RWord} (h : Canonical s) : outCanonical (execMrest f s) := h.runWord fun c => h.withPaddle fun _ hu => by
  dsimp only
  split
  · exact trivial
  · split
    · exact trivial
    · refine .ite trivial (.ite hu.trapPoison ?_)
      generalize Crew.spadRead _ _ _ = img
      exact .ite trivial (.ite trivial (.ite trivial (hu.commit.foldl fun _ _ h => h.accept)))

end Canonical

end Sys2Proof.Claim
end

section
/-!
PROOF. Canonical form under the events of issue and of the answers to accesses, and under crews that halt, stop and resume.
-/
namespace Sys2Proof.Claim
open Sys2Proof.Machine
variable {s t : State}

/-- Commands of a cluster that change in no image keep it canonical. -/
theorem clusterCanonical.mapCmds {x : Cluster} {f : Cmd → Cmd} (h : clusterCanonical x) (hf : ∀ m, cmdCanonical m → cmdCanonical (f m)) :
    clusterCanonical { x with cmds := x.cmds.map f } := forall_map h hf

theorem cmdCanonical.ite {c : Prop} {_ : Decidable c} {m n : Cmd} (hm : cmdCanonical m) (hn : cmdCanonical n) : cmdCanonical (if c then m else n) := by
  split
  · exact hm
  · exact hn

namespace Canonical

theorem withFree {n : Nat} (h : Canonical s) : Canonical { s with free := n } := h

theorem withFns {m : SMap Fn} (h : Canonical s) : Canonical { s with fns := m } := h

/-! ### Cancels and retirement (R75, R92 to R95) -/

theorem cancelApply {d : BitVec 3} {p : BitVec 6} {scope : BitVec 16} (h : Canonical s) : outCanonical (execCancelApply d p scope s) := h.cancelHere

theorem killTimeout {core crew gid : Nat} (h : Canonical s) : outCanonical (execKillTimeout core crew gid s) := by
  unfold execKillTimeout
  split
  · exact h
  · split
    · exact h
    · exact .ite h.groupEnds h

theorem cancelAcknowledge {p : BitVec 6} {scope : BitVec 16} (h : Canonical s) : outCanonical (execCancelAcknowledge p scope s) :=
  .ite h.ackScope.freeScopes h

theorem crewRetire {core crew : Nat} (h : Canonical s) : outCanonical (execCrewRetire core crew s) := by
  unfold execCrewRetire
  split
  · exact h
  · exact .ite h.crewEnds h

theorem queueRetry {d : BitVec 3} (h : Canonical s) : outCanonical (execQueueRetry d s) :=
  foldl (h.discardCells.modDie fun _ hx => hx) fun _ _ h => h.queueReleased

/-! ### Issue and the answers of accesses (R115 to R122, R263 to R274) -/

theorem issueCycle {core : Nat} (h : Canonical s) : outCanonical (execIssueCycle core s) := by
  unfold execIssueCycle
  refine .ite h ?_
  extract_lets k0 s1 k next ranked taken slots fly long s2
  have hk0 : coreCanonical k0 := (h.core core).catchUp s core
  clear_value k0
  have hs1 : Canonical s1 := settleTraps (h.setCore ⟨hk0.1, hk0.2⟩)
  have hk : coreCanonical k := hs1.core core
  clear_value long fly slots taken ranked next k s1
  have hs2 : Canonical s2 := hs1.setCore ⟨hk.1, hk.2⟩
  exact hs2

theorem settleInval {f : Nat} (h : Canonical s) : Canonical (settleInval s f) := by
  unfold Machine.settleInval
  exact h.ite h.modFn

theorem dropOut {r : SplitRef} {o : Out} (h : Canonical s) : Canonical (dropOut s r o) := foldl h.modGroup fun _ _ h => h.setPort

theorem afterOut {r : SplitRef} (h : Canonical s) : Canonical (afterOut s r) := h.pendingTrap.killedEnds.settleInval

theorem farCommit {r : SplitRef} {o : Out} (h : Canonical s) : Canonical (farCommit s r o) := h.modGroup

theorem endOut {r : SplitRef} {o : Out} {dests : List (Reg × Val)} (h : Canonical s) : Canonical (endOut s r o dests) := by
  have h0 : Canonical ((s.hostRmw.filter fun x => x.id == o.id).foldl State.hostRmwWrite s) := h.foldl fun _ _ h => h.hostRmwWrite
  exact afterOut (.ite (farCommit (modGroup h0.dropOut)) (modGroup h0.dropOut))

theorem farFault {r : SplitRef} {o : Out} {code : Byte} {la : Nat × Dword} (h : Canonical s) : Canonical (farFault s r o code la) := by
  unfold Machine.farFault
  split
  · exact h
  · have h0 : Canonical { s with hostRmw := s.hostRmw.filter fun x => x.id != o.id, free := s.free + 1 } := h
    exact afterOut (.ite (raise (modGroup h0.dropOut)) (modGroup h0.dropOut))

theorem rejectOut {r : SplitRef} {o : Out} {stale : Byte} (h : Canonical s) : Canonical (rejectOut s r o stale) := by
  unfold Machine.rejectOut
  split
  · exact h
  · exact .ite (farFault h.modSplit) (farFault h.modSplit)

theorem peerAnswer {r : SplitRef} {o : Out} {a : FarAnswer} (h : Canonical s) : Canonical (peerAnswer s r o a) := by
  cases a with
  | ok data => exact h.endOut
  | fault k => exact .ite (.ite h.rejectOut h) h.farFault

theorem answer {r : SplitRef} {o : Out} {a : FarAnswer} (h : Canonical s) : Canonical (answer s r o a) := by
  unfold Machine.answer
  refine .ite (.ite h h.peerAnswer) ?_
  cases a with
  | ok data => exact h.endOut
  | fault k => exact .ite h.farFault (.ite h h.endOut)

theorem resultReturn {r : SplitRef} {id : Nat} {a : FarAnswer} (h : Canonical s) : outCanonical (execResultReturn r id a s) := by
  unfold execResultReturn
  split
  · exact .ite h.answer h
  · exact h

theorem storeAcknowledge {r : SplitRef} {id : Nat} {a : FarAnswer} (h : Canonical s) : outCanonical (execStoreAcknowledge r id a s) := by
  unfold execStoreAcknowledge
  split
  · exact .ite h.answer h
  · exact h

theorem waitTimeout {r : SplitRef} (h : Canonical s) : outCanonical (execWaitTimeout r s) := h.pollWait

theorem walkTimeout {r : SplitRef} (h : Canonical s) : outCanonical (execWalkTimeout r s) := by
  unfold execWalkTimeout
  split
  · exact h.modGroup
  · exact h

theorem staleRejection {x : StaleRef} (h : Canonical s) : outCanonical (execStaleRejection x s) := by
  cases x with
  | load r =>
    unfold execStaleRejection
    dsimp only
    split
    · exact h
    · split
      · exact h.rejectOut
      · exact h
  | store _ => exact h
  | copy _ => exact h

/-! ### Crews halted, moved and resumed (R60, R61, R98 to R102) -/

theorem claimCrew {core : Nat} {c : Claim} (h : Canonical s) : Canonical (claimCrew s core c) := by
  unfold Machine.claimCrew
  split
  · exact h
  · exact h.spillCrew fun _ hw => hw

theorem takeStorage {core slot : Nat} (h : Canonical s) : Canonical (takeStorage s core slot) := by
  unfold Machine.takeStorage
  split
  · exact h
  · exact withFree (modCore (modCrew h fun _ hw => hw) fun _ hk => hk)

theorem evict {core slot : Nat} (h : Canonical s) : Canonical (evict s core slot) := by
  unfold Machine.evict
  split
  · exact h
  · exact withFns (modCluster (modCrew h fun _ hw => hw) fun _ hx => hx.mapCmds fun _ hm => hm)

theorem chargeCrew {core slot : Nat} (h : Canonical s) : Canonical (chargeCrew s core slot) := by
  unfold Machine.chargeCrew
  split
  · exact h
  · exact modCrew (modCluster h fun _ hx => hx) fun _ hw => hw

theorem stopCrew {core slot : Nat} {urgent inPlace : Bool} (h : Canonical s) : Canonical (stopCrew s core slot urgent inPlace) := by
  unfold Machine.stopCrew
  have h0 := h.killDoomed (core := core) (slot := slot)
  dsimp only
  split
  · exact h0
  · refine .ite h0 (modCore (modCrew (foldl h0.tablesDone.stopTun fun _ _ h => h.interruptGroup) fun _ hw => hw) fun _ hk => hk.dropPaddle)

theorem haltCrew {core slot : Nat} (h : Canonical s) : Canonical (haltCrew s core slot) := modCrew h.stopCrew fun _ hw => .ite hw hw

theorem restoreBands {core slot : Nat} (h : Canonical s) : Canonical (restoreBands s core slot) := by
  unfold Machine.restoreBands
  split
  · exact h
  · split
    · exact h
    · refine modCrew (modCore h.claimGrist fun k hk => ⟨?_, hk.2⟩) fun _ hw => ⟨hw.1, fun _ hb => nomatch hb⟩
      exact List.foldlRecOn (motive := fun m : Memory => m.wf = true) _ _ (Memory.filter_wf _ hk.1) fun _ hm _ _ => Memory.set_wf _ _ hm

theorem restoreBanks {core slot : Nat} (h : Canonical s) : Canonical (restoreBanks s core slot) := by
  unfold Machine.restoreBanks
  split
  · exact h
  · split
    · exact h
    · exact modCrew (modCore h.claimBanks fun _ hk => hk) fun _ hw => hw

theorem standAgain {core slot : Nat} (h : Canonical s) : Canonical (standAgain s core slot) := by
  unfold Machine.standAgain
  split
  · exact h
  · extract_lets s1 s2 s3
    have h1 : Canonical s1 := h.restoreBands.restoreBanks
    have h2 : Canonical s2 := .ite (modCore h1 fun _ hk => hk.askPaddle) h1
    have h3 : Canonical s3 := h2.resumeTun
    exact modCrew (.ite h3 h3.chargeCrew) fun _ hw => hw

theorem takeHome {core slot : Nat} (h : Canonical s) : Canonical (takeHome s core slot).1 := by
  unfold Machine.takeHome
  split
  · exact h
  · split
    · exact h
    · exact withFns (modCluster (modCrew h.evict fun _ hw => hw) fun _ hx => hx.mapCmds fun _ hm => .ite hm hm)

theorem regain {core slot : Nat} {w : Crew} {x : State × Nat} (h : Canonical s) (hr : regain s core slot w = some x) : Canonical x.1 := by
  unfold Machine.regain at hr
  split at hr
  · rw [← Option.some.inj hr]
    exact h
  · split at hr
    · exact nomatch hr
    · rename_i cs _
      have h1 : Canonical (cs.foldl (fun s c => Machine.claimCrew s core c) s) := h.foldl fun _ _ h => h.claimCrew
      rw [← Option.some.inj hr]
      exact standAgain (.ite h1.takeHome.takeStorage h1.takeHome)

theorem groupResume {core crew gid : Nat} (h : Canonical s) : outCanonical (execGroupResume core crew gid s) := by
  unfold execGroupResume
  split
  · exact h
  · split
    · exact h
    · refine .ite h ?_
      split
      · exact h
      · rename_i hr
        exact (h.regain hr).modGroup.pendingTrap

theorem beginHalt {core slot : Nat} (h : Canonical s) : Canonical (beginHalt s core slot) := h.modCrew fun _ hw => .ite hw hw

theorem keepRunning {f : Nat} {next : Option Nat} (h : Canonical s) : Canonical (keepRunning s f next) := h.foldl fun _ _ h => h.modCrew fun _ hw => hw

theorem sliceEnd {f : BitVec 3} (h : Canonical s) : outCanonical (execSliceEnd f s) := by
  unfold execSliceEnd
  exact .ite h (.ite (foldl h fun _ _ h => h.beginHalt) (keepRunning (foldl h fun _ _ h => h.haltCrew)))

theorem saveTiles {core slot : Nat} (h : Canonical s) : Canonical (saveTiles s core slot) := by
  unfold Machine.saveTiles
  split
  · exact h
  · exact modCore (modCrew h fun _ hw => hw) fun _ hk => hk

theorem keepForSave {core slot : Nat} (h : Canonical s) : Canonical (keepForSave s core slot) := by
  unfold Machine.keepForSave
  split
  · exact h
  · exact .ite h (modCrew h fun _ hw => hw)

end Canonical

end Sys2Proof.Claim
end

section
/-!
PROOF. Canonical form under crews that are saved, placed and moved, and under the dispatcher.
-/
namespace Sys2Proof.Claim
open Sys2Proof.Machine
variable {s t : State}

/-- A crew lifted off its core, and what it leaves, are canonical. -/
def liftCanonical (x : State × Option Crew) : Prop := Canonical x.1 ∧ ∀ w, x.2 = some w → crewCanonical w

theorem crewCanonical.mapCrew {w : Crew} {core : Nat} (h : crewCanonical w) : crewCanonical (mapCrew s core w) := h

theorem crewCanonical.freshCrew {n uid core slot : Nat} {ctx : BitVec 14} {phys : List Nat} {z : Storage} {q : QRec} {c : CodeDesc} {off : Pcoff} :
    crewCanonical (freshCrew n uid core slot ctx phys z q c off) := ⟨rfl, fun _ hb => nomatch hb⟩

/-! ### The records that a die tries and lends are among those of its queue -/

theorem heads_subset {x : Die} {k : QKey} : heads x k ⊆ x.queue := by
  intro q hq
  obtain ⟨b, -, hb⟩ := List.mem_filterMap.mp hq
  exact List.mem_of_mem_filter (List.mem_of_find?_eq_some hb)

theorem tries_subset {d : Nat} : tries s d ⊆ (s.die d).queue := by
  intro q hq
  obtain ⟨_, -, hp⟩ := List.mem_flatMap.mp hq
  obtain ⟨_, -, hr⟩ := List.mem_flatMap.mp hp
  exact heads_subset hr

theorem loot_subset {x : Die} {n : Dword} : loot x n ⊆ x.queue := by
  intro q hq
  unfold loot at hq
  dsimp only at hq
  split at hq
  · exact nomatch hq
  · exact List.mem_of_mem_filter (List.mem_of_mem_filter (List.mem_of_mem_take hq))

theorem dropRec_subset {l : List QRec} {q : QRec} : dropRec l q ⊆ l := by
  induction l with
  | nil => exact List.Subset.refl _
  | cons x l ih =>
    unfold dropRec
    split
    · exact List.subset_cons_self x l
    · exact List.cons_subset_cons x ih

theorem takeOut_subset {n : Nat} {f : QRec → Bool} {l : List QRec} : takeOut n f l ⊆ l := by
  induction l generalizing n with
  | nil => cases n <;> exact List.Subset.refl _
  | cons x l ih =>
    cases n with
    | zero => exact List.Subset.refl _
    | succ n =>
      unfold takeOut
      split
      · exact List.Subset.trans ih (List.subset_cons_self x l)
      · exact List.cons_subset_cons x ih

theorem dieCanonical.dropRec {x : Die} {q : QRec} (h : dieCanonical x) : ∀ r ∈ dropRec x.queue q, recCanonical r := fun r hr => h r (dropRec_subset hr)

theorem dieCanonical.takeOut {x : Die} {n : Nat} {f : QRec → Bool} (h : dieCanonical x) : ∀ r ∈ takeOut n f x.queue, recCanonical r :=
  fun r hr => h r (takeOut_subset hr)

namespace Canonical

/-! ### Crews saved, placed and moved (R98 to R102, R137) -/

theorem liftCrew {core slot : Nat} (h : Canonical s) : liftCanonical (liftCrew s core slot) := by
  unfold Machine.liftCrew
  extract_lets s1
  have h1 : Canonical s1 := h.keepForSave.saveTiles
  clear_value s1
  split
  · exact ⟨h1, fun _ hw => nomatch hw⟩
  · rename_i w hw
    have hc := h1.crew hw
    refine ⟨modCluster (modCore h1 fun _ hk => hk.filterCrews) fun _ hx => hx.mapCmds fun m hm => .ite ?_ hm, ?_⟩
    · intro v hv
      rcases Option.or_eq_some_iff.mp hv with hv | ⟨-, hv⟩
      · exact hm v hv
      · exact Option.some.inj hv ▸ hc
    · intro v hv
      obtain rfl := Option.some.inj hv
      refine ⟨hc.1, fun b hb => ?_⟩
      dsimp only at hb
      split at hb
      · rw [← Option.some.inj hb]
        exact (h1.core core).bandsOfCrew w
      · exact hc.2 b hb

theorem queueSaved {d : Nat} {w : Crew} (h : Canonical s) (hw : crewCanonical w) : Canonical (queueSaved s d w) := by
  refine h.modDie fun x hx => forall_append (forall_append (fun q hq => hx q (List.takeWhile_subset _ hq)) ?_) fun q hq => hx q (List.dropWhile_subset _ hq)
  exact List.forall_mem_singleton.mpr fun v hv => Option.some.inj hv ▸ hw

theorem stopAndLift {core slot : Nat} {urgent : Bool} (h : Canonical s) : liftCanonical (stopAndLift s core slot urgent) := by
  -- The kernel must not evaluate the cause where the match on it is compared.
  obtain ⟨cause, hcause⟩ : ∃ cause, cause = spillCause := ⟨_, rfl⟩
  have hs := h.stopCrew (core := core) (slot := slot) (urgent := urgent) (inPlace := false)
  unfold Machine.stopAndLift
  rw [← hcause]
  dsimp only
  split
  · exact ⟨hs, fun _ hw => nomatch hw⟩
  · split
    · exact ⟨hs, fun _ hw => nomatch hw⟩
    · split
      · exact ⟨hs.refuseSpill, fun _ hw => nomatch hw⟩
      · exact hs.liftCrew

theorem saveCrew {core slot : Nat} {urgent : Bool} (h : Canonical s) : Canonical (saveCrew s core slot urgent) := by
  unfold Machine.saveCrew
  have hl := h.stopAndLift (core := core) (slot := slot) (urgent := urgent)
  split <;> rename_i he <;> rw [he] at hl
  · exact hl.1.queueSaved (hl.2 _ rfl)
  · exact hl.1

theorem placeCrew {core : Nat} {w : Crew} {cs : List Claim} (h : Canonical s) (hw : crewCanonical w) : Canonical (placeCrew s core w cs) := by
  unfold Machine.placeCrew
  extract_lets s1 slot s2 k w1 s3 s4
  have h1 : Canonical s1 := h.foldl fun _ _ h => h.claimCrew
  have h2 : Canonical s2 := h1.evict
  have hw1 : crewCanonical w1 := ⟨hw.1, hw.2⟩
  clear_value w1 k s2
  have h3 : Canonical s3 := h2.modCore fun _ hk => hk.withCrews (forall_append hk.2 (List.forall_mem_singleton.mpr hw1))
  exact foldl (standAgain h3.takeStorage) fun _ _ h => h.pendingTrap

theorem spreRequest {d : BitVec 3} {v : Dword} (h : Canonical s) : outCanonical (execSpreRequest d v s) :=
  .ite h (.ite (h.modDie fun _ hx _ hq => hx _ hq) (foldl (h.modDie fun _ hx _ hq => hx _ hq) fun _ _ h => h.beginHalt))

theorem spreDone {d : BitVec 3} (h : Canonical s) : outCanonical (execSpreDone d s) := by
  unfold execSpreDone
  extract_lets d x cores on s0 crews s1 vac
  have h0 : Canonical s0 := .ite (h.foldl fun _ _ h => h.killDoomed) h
  clear_value s0
  exact .ite h0 (modDie (foldl h0 fun _ _ h => h.saveCrew) fun _ hx _ hq => hx _ hq)

theorem spreRelease {d : BitVec 3} {v : Dword} (h : Canonical s) : outCanonical (execSpreRelease d v s) := .ite h (h.modDie fun _ hx _ hq => hx _ hq)

theorem stopWaiters {core slot : Nat} (h : Canonical s) : Canonical (stopWaiters s core slot) := by
  unfold Machine.stopWaiters
  split
  · exact h
  · exact h.foldl fun _ _ h => h.stopForMove

theorem beginShift {core slot : Nat} (h : Canonical s) : Canonical (beginShift s core slot) := beginHalt (modCrew h fun _ hw => hw)

theorem beginMove {core slot : Nat} (h : Canonical s) : Canonical (beginMove s core slot) := stopWaiters (modCrew h fun _ hw => hw)

theorem runOn {core slot : Nat} (h : Canonical s) : Canonical (runOn s core slot) := standAgain (modCrew h fun _ hw => hw)

theorem stayHere {core slot : Nat} (h : Canonical s) : Canonical (stayHere s core slot) := modCrew h fun _ hw => hw

theorem undoMove {core slot : Nat} (h : Canonical s) : Canonical (undoMove s core slot) := runOn (modCrew h fun _ hw => hw)

theorem moveCrew {core slot target : Nat} {cs : List Claim} (h : Canonical s) : Canonical (moveCrew s core slot target cs) := by
  have hs := h.stopCrew (core := core) (slot := slot) (urgent := false) (inPlace := false)
  unfold Machine.moveCrew
  dsimp only
  split
  · exact hs
  · refine .ite hs.undoMove ?_
    have hl := hs.stopAndLift (core := core) (slot := slot) (urgent := false)
    split <;> rename_i he <;> rw [he] at hl
    · have hw := hl.2 _ rfl
      exact (withFree hl.1).placeCrew (.ite ⟨hw.1, hw.2⟩ hw)
    · exact hl.1

theorem migration {core crew target : Nat} (h : Canonical s) : outCanonical (execMigration core crew target s) := by
  unfold execMigration
  split
  · exact h
  · refine .ite h (.ite (.ite h.saveCrew h.beginHalt) (.ite h (.ite ?_ (.ite h (.ite h.beginMove (.ite h.moveCrew h.beginShift))))))
    extract_lets s1 w1 hot
    have h1 : Canonical s1 := .ite h h.stopWaiters
    clear_value hot w1 s1
    exact .ite h1 (.ite h1.moveCrew (.ite h1 h1.stayHere))

theorem migrationStopTimeout {core crew gid : Nat} (h : Canonical s) : outCanonical (execMigrationStopTimeout core crew gid s) := by
  unfold execMigrationStopTimeout
  split
  · exact h
  · split
    · exact h
    · exact .ite h.stopForMove h

/-! ### Tiles switched (R299) -/

theorem spillTile {core ph : Nat} (h : Canonical s) : Canonical (spillTile s core ph) := by
  unfold Machine.spillTile
  dsimp only
  split
  · exact h
  · exact .ite h (modCrew h fun _ hw => hw)

theorem accumulatorSwitch {core crew : Nat} {tile : BitVec 2} (h : Canonical s) : outCanonical (execAccumulatorSwitch core crew tile s) := by
  unfold execAccumulatorSwitch
  dsimp only
  split
  · exact h
  · refine .ite h ?_
    split
    · exact foldl h fun _ _ h => h.unhandled
    · exact foldl (.ite h (h.spillTile.modCore fun _ hk => hk)) fun _ _ h => h.modGroup

/-! ### Launches generated and records bound (R71 to R86) -/

theorem startLaunch {p : Nat} {pasid : BitVec 20} {t : TaskRec} {e : RootExt} {home : Nat} {pkt : Option Nat} (h : Canonical s) :
    Canonical (startLaunch s p pasid t e home pkt) := h

theorem generateRecord {p : BitVec 6} {l : Word} {slot : Nat} (h : Canonical s) : outCanonical (execGenerateRecord p l slot s) := by
  unfold execGenerateRecord
  dsimp only
  split
  · exact h
  · split
    · exact h
    · exact .ite h (.ite h.modLaunch.countFault h.enqueue.modLaunch)

theorem stepAdd {l : Launch} (h : Canonical s) : Canonical (stepAdd s l) := by
  unfold Machine.stepAdd
  refine h.ite ?_
  have ha := h.devAdd (p := l.part) (pasid := l.pasid) (va := l.ext.stepctr) (n := 1) (q := none) (l := none) (party := 96 + l.home)
  split <;> rename_i he <;> rw [he] at ha
  · exact ha
  · exact ha.countFault

theorem stepBoundary {p : BitVec 6} {l : Word} (h : Canonical s) : outCanonical (execStepBoundary p l s) := by
  unfold execStepBoundary
  dsimp only
  split
  · exact h
  · exact .ite h (.ite h.stepAdd.modLaunch.freeScopes h.stepAdd.modLaunch)

theorem ranFor {q : QRec} (h : Canonical s) : Canonical (s.ranFor q) := h.workOf.modLaunch

theorem bindFresh {core : Nat} {q : QRec} {cs : List Claim} (h : Canonical s) : Canonical (bindFresh s core q cs) := by
  unfold Machine.bindFresh
  extract_lets s1 slot s2 k c z w
  have h1 : Canonical s1 := h.foldl fun _ _ h => h.claimCrew
  have h2 : Canonical s2 := h1.evict
  have hk : coreCanonical k := h2.core core
  have hw : crewCanonical w := .freshCrew
  clear_value w z c k s2
  have hs : ∀ k' : Core, coreCanonical k' → Canonical { s2.setCore core k' with free := s2.free + q.task.grp + 2, nextId := s2.nextId + 1 } :=
    fun _ hk => h2.setCore hk
  exact chargeCrew (ranFor (hs _ ⟨hk.1, forall_append hk.2 (List.forall_mem_singleton.mpr hw)⟩))

theorem testWeights {p : Nat} (h : Canonical s) : Canonical (testWeights s p) := .ite h.startTest h

theorem tookRec {d : Nat} {q : QRec} {c : Option Nat} (h : Canonical s) : Canonical (tookRec s d q c) := by
  unfold Machine.tookRec
  exact modDie h.testWeights fun _ hx => hx.dropRec

theorem bindSaved {d core : Nat} {q : QRec} {w : Crew} {cs : List Claim} (h : Canonical s) (hw : crewCanonical w) : Canonical (bindSaved s d core q w cs) := by
  unfold Machine.bindSaved
  refine .ite (h.tookRec.placeCrew hw) (.ite ((withFree h.tookRec).placeCrew hw.mapCrew) (h.modDie fun _ hx => forall_modFirst hx _ fun _ _ v hv => ?_))
  exact Option.some.inj hv ▸ hw

theorem tryRec {d : Nat} {q : QRec} (h : Canonical s) (hq : recCanonical q) (ht : tryRec s d q = some t) : Canonical t := by
  unfold Machine.tryRec at ht
  split at ht
  · rw [← Option.some.inj ht]
    exact freeScopes (discardRec (modDie h fun _ hx => hx.dropRec))
  · split at ht
    · rw [← Option.some.inj ht]
      exact h.tookRec.startLaunch
    · split at ht
      · exact nomatch ht
      · split at ht
        · rename_i w _
          rw [← Option.some.inj ht]
          exact h.bindSaved (hq w ‹_›)
        · rw [← Option.some.inj ht]
          exact h.tookRec.bindFresh

theorem dispatchBind {d : BitVec 3} (h : Canonical s) : outCanonical (execDispatchBind d s) := by
  unfold execDispatchBind
  dsimp only
  split
  · rename_i hf
    obtain ⟨q, hq, ht⟩ := List.exists_of_findSome?_eq_some hf
    exact withFree (h.tryRec (h.die _ q (tries_subset hq)) ht)
  · exact h

theorem workSteal {d : BitVec 3} (h : Canonical s) : outCanonical (execWorkSteal d s) := by
  unfold execWorkSteal
  dsimp only
  split
  · exact h
  · rename_i e _
    have hl := loot_subset (x := s.die e) (n := Config.freeDword s.free)
    generalize loot _ _ = got at hl ⊢
    split
    · exact h
    · refine .ite h (freeScopes ?_)
      refine List.foldlRecOn (motive := Canonical) _ _ (h.modDie fun _ hx => hx.takeOut) fun u hu r hr => ?_
      exact .ite hu.discardRec (hu.putRec (h.die e r (hl hr)))

end Canonical

end Sys2Proof.Claim
end

section
/-!
PROOF. Canonical form under the copy engine and the packets of the AQIs.
-/
namespace Sys2Proof.Claim
open Sys2Proof.Machine
variable {s t : State}

/-- A byte of grist loaded by a copy command (R157). -/
theorem coreCanonical.loadByte {k : Core} (h : coreCanonical k) {p : Nat} {v : Byte} {g : List Nat} {f : Crew → Crew}
    (hf : ∀ w, crewCanonical w → crewCanonical (f w)) : coreCanonical { k with grist := k.grist.set p v, gristPoison := g, crews := k.crews.map f } :=
  ⟨Memory.set_wf _ _ h.1, forall_map h.2 hf⟩

namespace Canonical

/-! ### The copy engine (R151 to R158, R307, R313) -/

theorem modCmd {id : Nat} {f : Cmd → Cmd} (h : Canonical s) (hf : ∀ m, cmdCanonical m → cmdCanonical (f m)) : Canonical (s.modCmd id f) :=
  h.withClusters (List.forall_mem_map.mpr fun e he => forall_modFirst (h.clusters e he) _ hf)

theorem bulkAsked {m : Cmd} (h : Canonical s) : Canonical (bulkAsked s m) := foldl (foldl h fun _ _ h => h.setPort) fun _ _ h => h.setPort

theorem copyStart {core crew : Nat} (h : Canonical s) : outCanonical (execCopyStart core crew s) := by
  unfold execCopyStart
  split
  · exact h
  · refine .ite (modCrew h fun _ hw => hw) (.ite h (.ite (modCluster h fun _ hx => hx) ?_))
    extract_lets q slot rd m0 m1 s1 s2 s3
    have hm : cmdCanonical m1 := fun _ hw => nomatch hw
    clear_value m1 m0
    have h1 : Canonical s1 := .ite h.startTest h
    clear_value s1
    have h2 : Canonical s2 := .ite h1.bulkAsked h1
    clear_value s2
    have h3 : Canonical s3 := modCluster (modCrew h2 fun _ hw => hw) fun _ hx => forall_append hx (List.forall_mem_singleton.mpr hm)
    exact h3

theorem putBytes {ls : List Loc} {bs : List Byte} (h : Canonical s) : Canonical (putBytes s ls bs) := h.foldl fun _ _ h => h.writeAt

theorem doElem {s0 : State} {m : Cmd} {e : Elem} (h : Canonical s) : Canonical (doElem s0 m s e) := by
  unfold Machine.doElem
  split
  · exact h.putBytes
  · dsimp only
    exact h.putBytes.putBytes
  · exact h.putBytes
  · exact h.foldl fun _ _ h => modCore h fun _ hk => hk.loadByte fun _ hw => .ite hw hw
  · exact h.putBytes

theorem doElems {m : Cmd} {es : List Elem} (h : Canonical s) : Canonical (doElems s m es) := unpoison (h.hostBefores.foldl fun _ _ h => h.doElem)

theorem claimForLoad {m : Cmd} {es : List Elem} (h : Canonical s) : Canonical (claimForLoad s m es) := by
  unfold Machine.claimForLoad
  exact .ite h (modCore h.claimGrist fun _ hk => hk.mapCrews fun _ hw => .ite hw hw)

theorem abortCmd {m : Cmd} {w : Dword} (h : Canonical s) : Canonical (abortCmd s m w) := withFree (modCmd h.claimForLoad.doElems fun _ hm => hm)

theorem copyTest {m : Cmd} {code : Byte} {a : Nat} (h : Canonical s) : Canonical (copyTest s m code a) := by
  unfold Machine.copyTest
  refine .ite h.testWalk (.ite ?_ h)
  split
  · split
    · exact h.startTest
    · exact h
  · exact h

theorem runCmd {kind id : Nat} (h : Canonical s) : outCanonical (runCmd kind id s) := by
  unfold Machine.runCmd
  split
  · exact h
  · refine .ite h ?_
    split
    · exact h.atsAsk
    · exact h.copyTest.abortCmd
    · exact h
    · refine .ite h ?_
      split
      · exact h.abortCmd
      · exact .ite h.abortCmd (withFree (modCmd (h.claimForLoad.doElems.workOf) fun _ hm => hm))

theorem testMap {n : Snap} {page : Nat} (h : Canonical s) : Canonical (testMap s n page) := .ite h.startTest h

theorem markTaken {n : Snap} {page : Nat} (h : Canonical s) : Canonical (markTaken s n page) := h.withMem (Memory.setBytes_wf _ _ h.mem_wf)

theorem takePage {n : Snap} {page : Nat} (h : Canonical s) : Canonical (takePage s n page).1 := h.markTaken

theorem cellarPages {m : Cmd} {f i : Nat} (h : Canonical s) : Canonical (cellarPages m f s i) := by
  induction f generalizing s i with
  | zero => exact modCmd h fun _ hm => hm
  | succ f ih =>
    unfold Machine.cellarPages
    exact .ite (modCmd h.testMap fun _ hm => hm) (.ite (modCmd h.testMap.startTest fun _ hm => hm) (ih (unpoison (putBytes (hostBefores h.testMap.takePage)))))

theorem cellarStream {id : Nat} (h : Canonical s) : outCanonical (execCellarStream id s) := by
  unfold execCellarStream
  split
  · exact h
  · refine .ite h ?_
    have fail : ∀ w : Dword, Canonical (s.modCmd id fun x => { x with err := some w }) := fun _ => modCmd h fun _ hm => hm
    refine .ite (fail _) (.ite (fail _) (.ite (fail _) ?_))
    split
    · exact h.atsAsk
    · exact modCmd h.copyTest fun _ hm => hm
    · exact h.cellarPages

theorem counterBad {m : Cmd} {code : Byte} (h : Canonical s) : Canonical (counterBad s m code) := h.countFault

theorem writeErr {m : Cmd} {w : Dword} (h : Canonical s) : Canonical (writeErr s m w) := by
  unfold Machine.writeErr
  refine .ite ?_ ?_
  · split
    · exact h.counterBad
    · split
      · exact h.counterBad
      · exact unpoison (modCrew h fun _ hw => hw.putBytes)
  · split
    · exact counterBad (.ite h.testWalk h)
    · exact h.devWrite

theorem addCounter {m : Cmd} (h : Canonical s) : Canonical (addCounter s m) := by
  unfold Machine.addCounter
  refine .ite ?_ ?_
  · split
    · exact h.counterBad
    · split
      · exact h.counterBad
      · exact .ite h.startTest.counterBad (modCrew h fun _ hw => hw.putBytes)
  · split
    · exact h.testVa.counterBad
    · have ha := h.devAdd (p := m.part) (pasid := m.pasid) (va := m.ctr) (n := BitVec.ofNat 64 m.inc) (q := none) (l := none) (party := clusterOf m.core)
      split <;> rename_i he <;> rw [he] at ha
      · exact ha
      · exact ha.counterBad

theorem copyComplete {id : Nat} (h : Canonical s) : outCanonical (execCopyComplete id s) := by
  unfold execCopyComplete
  split
  · exact h
  · rename_i m _
    refine .ite h ?_
    extract_lets s0 s1 ended s2
    have h0 : Canonical s0 := h.foldl fun _ _ h => h.setPort
    clear_value s0
    have h1 : Canonical s1 := by
      unfold s1
      split
      · exact h0.writeErr
      · exact h0.addCounter
    have hc : ∀ w, crewCanonical w → crewCanonical (ended w) := fun _ hw => ⟨hw.1, hw.2⟩
    clear_value ended s1
    have h2 : Canonical s2 := withDies (h1.withCores (List.forall_mem_map.mpr fun e he => (h1.cores e he).mapCrews hc))
      (List.forall_mem_map.mpr fun e he => dieCanonical.mapSaved (h1.dies e he) hc)
    exact freeScopes (modCluster h2 fun _ hx => forall_filter hx _)

theorem abortWaiting {f pasid page : Nat} {w : Bool} {code : Nat} (h : Canonical s) : Canonical (abortWaiting s f pasid page w code) :=
  h.foldl fun _ _ h => h.abortCmd

/-! ### Packets (R34 to R53, R78, R81, R88) -/

theorem aqiError {f n code fidx : Nat} (h : Canonical s) : Canonical (aqiError s f n code fidx) := h.setAqi.msix

theorem aqiCtlWrite {f : BitVec 6} {n : BitVec 5} {v : Dword} (h : Canonical s) : outCanonical (execAqiCtlWrite f n v s) :=
  .ite h (.ite h.setAqi (.ite h.setAqi h.setAqi.aqiError))

theorem doorbellWrite {f : BitVec 6} {n : BitVec 5} {size : Nat} {v : Dword} (h : Canonical s) : outCanonical (execDoorbellWrite f n size v s) :=
  .ite h (.ite h.aqiError (.ite h.aqiError (.ite h h.setAqi)))

theorem packetFetch {f : BitVec 6} {n : BitVec 5} (h : Canonical s) : outCanonical (execPacketFetch f n s) := by
  unfold execPacketFetch
  refine .ite h ?_
  split
  · exact h.atsAsk
  · exact .ite h.hostSettled (.ite h.hostSettled.aqiError (.ite h.hostSettled.aqiError h.hostSettled))

theorem tornSubmission {f : BitVec 6} {n : BitVec 5} (h : Canonical s) : outCanonical (execTornSubmission f n s) := .ite h.aqiError h

theorem withPacket {op id : Nat} {body : Packet → State → State} (h : Canonical s) (hb : ∀ k u, Canonical u → Canonical (body k u)) :
    outCanonical (withPacket op id s body) := by
  unfold Machine.withPacket
  split
  · exact h
  · exact .ite (hb _ _ h.modPacket) h

theorem launchBad {id : Nat} {k : Packet} {code : Byte} (h : Canonical s) : Canonical (launchBad s id k code) := h.testWords.complete

theorem launch {id : Nat} (h : Canonical s) : outCanonical (execLaunch id s) := .ite h <| h.withPacket fun k u hu => by
  dsimp only
  split
  · exact hu.complete
  · split
    · exact hu.launchBad
    · exact hu.setScope.putRec fun _ hw => nomatch hw

theorem cancelPacket {id : Nat} (h : Canonical s) : outCanonical (execCancelPacket id s) :=
  h.withPacket fun _ _ hu => .ite hu.complete (.ite hu.complete hu.acceptCancel)

theorem signal {id : Nat} (h : Canonical s) : outCanonical (execSignal id s) := h.withPacket fun k u hu => by
  have ha := hu.devAdd (p := k.fn) (pasid := k.pasid) (va := k.word 2) (n := k.word 3) (q := none) (l := none) (party := 104)
  split <;> rename_i he <;> rw [he] at ha
  · exact ha.complete
  · exact ha.complete

theorem clearMap {l : List Nat} (h : Canonical s) : Canonical (clearMap s l) := h.foldl fun _ _ h => h.devZero

theorem snapcut {id : Nat} (h : Canonical s) : outCanonical (execSnapcut id s) := h.withPacket fun _ _ hu =>
  .ite hu.complete (.ite hu.complete (.ite hu.complete hu.clearMap.modSnap))

theorem cutSwitch {p : BitVec 6} {i : BitVec 3} (h : Canonical s) : outCanonical (execCutSwitch p i s) := .ite h h.modSnap.complete

theorem testPage {n : Snap} {page : Nat} (h : Canonical s) : Canonical (testPage s n page) := .ite h.startTest h

theorem streamPages {id p i first dst pasid f done : Nat} (h : Canonical s) : Canonical (streamPages id p i first dst pasid f s done) := by
  -- `unfold` exceeds the recursion depth here: the recursor is unfolded instead, in the goal and in the hypothesis together.
  induction f generalizing s done with
  | zero =>
    delta Machine.streamPages
    exact h.complete
  | succ f ih =>
    revert ih
    delta Machine.streamPages
    intro ih
    dsimp only
    have hp : ∀ n page, Canonical (Machine.takePage (Machine.testPage (Machine.testMap s n page) n page) n page).1 := fun _ _ => h.testMap.testPage.takePage
    refine .ite h.complete (.ite h.testMap.complete ?_)
    split
    · exact h.atsAsk.modPacket
    · have hq := hp (s.snap p i) (first + done)
      split
      rename_i he
      rw [he] at hq
      exact ih hq.hostWrite

theorem stream {id : Nat} (h : Canonical s) : outCanonical (execStream id s) := by
  unfold execStream
  split
  · exact h
  · exact .ite h (.ite h.modPacket.complete (.ite h.modPacket.complete h.modPacket.streamPages))

theorem snapend {id : Nat} (h : Canonical s) : outCanonical (execSnapend id s) := by
  unfold execSnapend
  split
  · exact h
  · exact .ite h (h.withPacket fun _ _ hu => .ite hu.complete hu.modSnap.complete)

theorem endPacket {k : Packet} (h : Canonical s) : Canonical (endPacket s k) := by
  have h1 : Canonical { s with packets := s.packets.filter fun x => x.id != k.id } := h
  exact .ite h1.msix h1

theorem recordFailed {k : Packet} (h : Canonical s) : Canonical (recordFailed s k) := by
  have h1 : Canonical { s with packets := s.packets.filter fun x => x.id != k.id } := h
  exact .ite h1 h1.aqiError

theorem writeBody {k : Packet} {ws : List Dword} (h : Canonical s) : Canonical (writeBody s k ws) := h.hostWrite

theorem packetCompletion {id : Nat} (h : Canonical s) : outCanonical (execPacketCompletion id s) := by
  unfold execPacketCompletion
  split
  · exact h
  · split
    · exact h
    · refine .ite h (.ite h.endPacket ?_)
      split
      · exact h.atsAsk
      · exact h.writeBody.hostWrite.endPacket

end Canonical

end Sys2Proof.Claim
end

section
/-!
PROOF. Canonical form under host pages, the fault queue, partitions and rails.
-/
namespace Sys2Proof.Claim
open Sys2Proof.Machine
variable {s t : State}

theorem recCanonical.ite {c : Prop} {_ : Decidable c} {q r : QRec} (hq : recCanonical q) (hr : recCanonical r) : recCanonical (if c then q else r) := by
  split
  · exact hq
  · exact hr

namespace Canonical

/-- What holds no crew of a record changes in saved crews alone. -/
theorem mapSaved {f : Crew → Crew} (h : Canonical s) (hf : ∀ w, crewCanonical w → crewCanonical (f w)) :
    Canonical { s with dies := s.dies.map fun (d, x) => (d, { x with queue := x.queue.map fun q => { q with saved := q.saved.map f } }) } :=
  h.withDies (List.forall_mem_map.mpr fun e he => dieCanonical.mapSaved (h.dies e he) hf)

/-! ### Host writes that fail, pages and translations (R44 to R49, R143 to R148, R184) -/

theorem writeEntryBody {f a : Nat} (h : Canonical s) : Canonical (writeEntryBody s f a) := by
  unfold Machine.writeEntryBody
  split
  · exact h
  · exact h.hostWrite

theorem hostWriteError {r : HostWriteRef} (h : Canonical s) : outCanonical (execHostWriteError r s) := by
  have h0 : Canonical { s with free := s.free + 1 } := h
  cases r with
  | completion id =>
    unfold execHostWriteError
    dsimp only
    split
    · exact h
    · split
      · exact h
      · exact .ite h (recordFailed (.ite h0.writeBody h0))
  | faultEntry f =>
    unfold execHostWriteError
    dsimp only
    split
    · exact fqFail (.ite h0.writeEntryBody h0)
    · exact h

theorem trapParked {f pasid page : Nat} {w : Bool} {code : Byte} (h : Canonical s) : Canonical (trapParked s f pasid page w code) :=
  h.foldl fun _ _ h => h.modSplit.takeTrap

theorem modSavedWaiters {f pasid page : Nat} {g : Group → Group} (h : Canonical s) : Canonical (modSavedWaiters s f pasid page g) := h.mapSaved fun _ hw => hw

theorem failWaiters {f pasid page : Nat} {code : Byte} (h : Canonical s) : Canonical (failWaiters s f pasid page code) := by
  unfold Machine.failWaiters
  refine modSavedWaiters (foldl h fun u x hu => ?_)
  obtain ⟨c, w, g⟩ := x
  dsimp only
  split
  · exact .ite hu.modGroup hu.modGroup.dealOther
  · exact hu

theorem failFetches {f pasid page : Nat} (h : Canonical s) : Canonical (failFetches s f pasid page) := h.foldl fun _ _ h => .ite h.aqiError h

theorem failPackets {f pasid page : Nat} (h : Canonical s) : Canonical (failPackets s f pasid page) :=
  h.foldl fun _ _ h => .ite h (.ite (.ite h.recordFailed h) (.ite h.complete h))

theorem failQueue {f pasid page : Nat} (h : Canonical s) : Canonical (failQueue s f pasid page) := .ite h.fqFail h

theorem pageFails {f pasid page : Nat} {w : Bool} {code : Nat} (h : Canonical s) : Canonical (pageFails s f pasid page w code) :=
  .ite h.trapParked.failWaiters.abortWaiting.failPackets.failQueue h.trapParked.failWaiters.abortWaiting.failFetches

theorem noRight {f pasid page : Nat} {w : Bool} (h : Canonical s) : Canonical (noRight s f pasid page w) :=
  .ite h.modFn.pageFails (.ite h h.modFn.trapParked)

theorem atsTranslationResponse {f : BitVec 6} {pasid : BitVec 20} {iova : Nat} {a : Option AtsAnswer} (h : Canonical s) :
    outCanonical (execAtsTranslationResponse f pasid iova a s) := by
  unfold execAtsTranslationResponse
  extract_lets f ps page asked has s1 ok s2 s3
  have h1 : Canonical s1 := by
    unfold s1
    split
    · exact .ite h h
    · exact h
  clear_value s1
  have h2 : Canonical s2 := h1.modFn
  clear_value s2
  exact .ite h (postFaults (h2.foldl fun _ _ h => h.noRight))

theorem dropPri {f : Nat} {q : Nat × Nat × Bool} (h : Canonical s) : Canonical (dropPri s f q) := h.modFn

theorem pageRequestResponse {f : BitVec 6} {pasid : BitVec 20} {iova : Nat} {code : PriCode} (h : Canonical s) :
    outCanonical (execPageRequestResponse f pasid iova code s) := by
  unfold execPageRequestResponse
  extract_lets f ps page qs s1
  have h1 : Canonical s1 := h.foldl fun _ _ h => h.dropPri
  clear_value s1
  refine .ite h ?_
  split
  · exact postFaults (modSavedWaiters (foldl h1 fun _ _ h => h.modGroup))
  · exact foldl (.ite h1.modFn h1) fun _ _ h => h.pageFails

theorem pageRequestTimeout {f : BitVec 6} {pasid : BitVec 20} {iova : Nat} (h : Canonical s) : outCanonical (execPageRequestTimeout f pasid iova s) :=
  h.foldl fun _ _ h => h.dropPri.pageFails

theorem atsInvalidation {f : BitVec 6} {pasid : BitVec 20} {iova len : Nat} (h : Canonical s) : outCanonical (execAtsInvalidation f pasid iova len s) := by
  unfold execAtsInvalidation
  extract_lets f ps s1 s2
  have h2 : Canonical s2 := h.modFn (f := f) (g := fun x => { x with hostGen := x.hostGen.put ps (x.hostGen.get ps 0 + 1) })
  exact h2.modFn.settleInval

/-! ### The fault queue (R184 to R187) -/

theorem fqctlWrite {f : BitVec 6} {v : Dword} (h : Canonical s) : outCanonical (execFqctlWrite f v s) :=
  .ite h (Canonical.ite h.modFn.dealHeld h.modFn.postFaults)

theorem fqheadWrite {f : BitVec 6} {v : Dword} (h : Canonical s) : outCanonical (execFqheadWrite f v s) := h.modFn.postFaults

theorem tokenAnswered {f : Nat} {t : Word} (h : Canonical s) : Canonical (tokenAnswered s f t) := by
  unfold Machine.tokenAnswered
  extract_lets fix
  have hf : ∀ w, crewCanonical w → crewCanonical (fix w) := fun _ hw => .ite hw hw
  exact withDies (h.withCores (List.forall_mem_map.mpr fun e he => (h.cores e he).mapCrews hf))
    (List.forall_mem_map.mpr fun e he => dieCanonical.mapSaved (h.dies e he) hf)

theorem fresRetry {f : BitVec 6} {t : Word} (h : Canonical s) : outCanonical (execFresRetry f t s) := by
  unfold execFresRetry
  extract_lets f s1
  have h1 : Canonical s1 := h.tokenAnswered
  clear_value s1
  split
  · exact h1.modGroup
  · refine h1.withDies (List.forall_mem_map.mpr fun e he => forall_map (h1.dies e he) fun q hq => .ite (hq.mapSaved fun _ hw => hw) hq)

theorem killSavedAt {d f : Nat} {t : Word} (h : Canonical s) : Canonical (killSavedAt s d f t) := by
  unfold Machine.killSavedAt
  split
  · exact h
  · split
    · exact h
    · dsimp only
      split
      · exact h.countTrap.discardWhere.freeScopes
      · exact h.discardWhere.freeScopes

theorem fresKill {f : BitVec 6} {t : Word} (h : Canonical s) : outCanonical (execFresKill f t s) := by
  unfold execFresKill
  extract_lets f s1
  have h1 : Canonical s1 := h.tokenAnswered
  clear_value s1
  split
  · exact h1.unhandledRecord
  · exact h1.foldl fun _ _ h => h.killSavedAt

/-! ### Fences, links and partitions (R17, R54 to R59, R89) -/

theorem refuse {b : Nat} (h : Canonical s) : Canonical (refuse s b) := h

theorem fmapWrite {v : Dword} (h : Canonical s) : outCanonical (execFmapWrite v s) := .ite h.refuse h

theorem fwallWrite {v : Dword} (h : Canonical s) : outCanonical (execFwallWrite v s) := .ite h.refuse h

theorem portCopies {i : Nat} (h : Canonical s) : Canonical (portCopies s i) :=
  h.withClusters (List.forall_mem_map.mpr fun e he => (h.clusters e he).mapCmds fun _ hm => .ite hm hm)

theorem portLost {i : Nat} (h : Canonical s) : Canonical (portLost s i) := by
  unfold Machine.portLost
  refine msix (foldl h.portCopies fun u x hu => ?_)
  obtain ⟨r, id, y⟩ := x
  dsimp only
  split
  · exact hu.farFault
  · exact hu

theorem remap {old new : Dword} {base i : Nat} (h : Canonical s) : Canonical (remap old new base s i) :=
  .ite (.ite h.setPort h.setPort.portLost) (.ite h.setPort h)

theorem ppmapWrite {high : Bool} {v : Dword} (h : Canonical s) : outCanonical (execPpmapWrite high v s) :=
  .ite h.refuse (foldl (.ite h h) fun _ _ h => h.remap)

theorem flushCancels {p : Nat} (h : Canonical s) : Canonical (flushCancels s p) :=
  h.foldl fun _ _ h => h.foldl fun _ _ h => applyCancel (modDie h fun _ hx => hx)

theorem withScopes {m : SMap ScopeEnt} {l a : SMap Nat} (h : Canonical s) : Canonical { s with scopes := m, slice := l, sliceAt := a } := h

theorem partitionEnable {p : BitVec 6} {v : Dword} (h : Canonical s) : outCanonical (execPartitionEnable p v s) := by
  unfold execPartitionEnable
  extract_lets q v s0 base f s1
  have h0 : Canonical s0 := h.flushCancels.modPart
  have h1 : Canonical s1 := .ite h0.devZero h0
  clear_value s1
  exact .ite h (.ite h.refuse h1.withScopes)

theorem resetPacket {k : Packet} (h : Canonical s) : Canonical (resetPacket s k) := by
  unfold Machine.resetPacket
  refine modPacket (.ite h ?_)
  split
  · exact h.lastShare.complete
  · exact h.complete

theorem killParked {p : Nat} (h : Canonical s) : Canonical (killParked s p) :=
  foldl (foldl (foldl h fun _ _ h => modCrew h fun _ hw => hw) fun _ _ h => h.groupEnds) fun _ _ h => h.discardWhere

theorem markReset {p : Nat} (h : Canonical s) : Canonical (markReset s p) := by
  have hc : ∀ w, crewCanonical w → crewCanonical (if w.part == p then { w with reset := true } else w) := fun _ hw => .ite hw hw
  exact ⟨h.mem_wf, h.host_wf, List.forall_mem_map.mpr fun e he => (h.cores e he).mapCrews hc,
    List.forall_mem_map.mpr fun e he => forall_map (h.dies e he) fun _ hq => .ite (hq.mapSaved hc) hq, h.clusters⟩

theorem zeroBuffers {p : Nat} (h : Canonical s) : Canonical (zeroBuffers s p) :=
  h.withCores (List.forall_mem_map.mpr fun e he => ⟨(h.cores e he).1, (h.cores e he).2⟩)

theorem partitionReset {p : BitVec 6} {v : Dword} (h : Canonical s) : outCanonical (execPartitionReset p v s) := by
  unfold execPartitionReset
  extract_lets q old v s1 s2 s3 s4 s5
  have h1 : Canonical s1 := h.modPart
  have h2 : Canonical s2 := h1.foldl fun _ _ h => h.resetPacket
  have h3 : Canonical s3 := h2.modFn
  have h5 : Canonical s5 := h3.markReset.foldl fun _ _ h => .ite h h.acceptCancel
  clear_value s5
  exact .ite h (.ite h.refuse h5.zeroBuffers.killParked.freeScopes)

theorem fownWrite {f : BitVec 10} {v : Byte} (h : Canonical s) : outCanonical (execFownWrite f v s) := .ite h (.ite h (.ite h.refuse h))

theorem frameZeroed {f : BitVec 10} (h : Canonical s) : outCanonical (execFrameZeroed f s) := by
  unfold execFrameZeroed
  refine .ite h ?_
  exact ⟨Memory.zeroRange_wf _ _ h.mem_wf, h.host_wf, h.cores, h.dies, h.clusters⟩

theorem sctbWrite {p : BitVec 6} {v : Dword} (h : Canonical s) : outCanonical (execSctbWrite p v s) := .ite h.refuse h.modPart

theorem capmaskWrite {v : Dword} (h : Canonical s) : outCanonical (execCapmaskWrite v s) := .ite h.refuse h.modPart

/-! ### Rails (R27, R62 to R65) -/

theorem rswWrite {d : BitVec 3} {v : Dword} (h : Canonical s) : outCanonical (execRswWrite d v s) := by
  unfold execRswWrite
  extract_lets d old sel ch pend new
  have hd : Canonical (s.modDie d fun x => { x with rsw := pend ||| maskNat v 0xFFFFFF }) := modDie h fun _ hx _ hq => hx _ hq
  exact hd

theorem rvoltWrite {r : BitVec 2} {v : Dword} (h : Canonical s) : outCanonical (execRvoltWrite r v s) := .ite h.refuse (.ite h h)

theorem quiesceTimeout {t : RailTarget} (h : Canonical s) : outCanonical (execQuiesceTimeout t s) := h.foldl fun _ _ h => .ite h.haltCrew h.beginHalt

theorem railChangeApplied {t : RailTarget} (h : Canonical s) : outCanonical (execRailChangeApplied t s) := by
  unfold execRailChangeApplied
  extract_lets s1
  have h1 : Canonical s1 := h.allCaughtUp (t := t)
  clear_value s1
  refine .ite h (.ite h (.ite h ?_))
  cases t with
  | cluster d c => exact modDie h1 fun _ hx _ hq => hx _ hq
  | rail n => exact h1

theorem railOvercurrent {r : BitVec 2} (h : Canonical s) : outCanonical (execRailOvercurrent r s) := h.setRail

theorem throttleRelease {r : BitVec 2} (h : Canonical s) : outCanonical (execThrottleRelease r s) := .ite h.setRail h

end Canonical

end Sys2Proof.Claim
end

section
/-!
PROOF. Canonical form under the control interval, heat, the ports, time, and register writes.
-/
namespace Sys2Proof.Claim
open Sys2Proof.Machine
variable {s t : State}

namespace Canonical

/-! ### Energy, heat and rows (R62, R63, R66, R68) -/

theorem recharge {cl : Nat} (h : Canonical s) : Canonical (recharge s cl) := by
  unfold Machine.recharge
  extract_lets ws s1
  have h1 : Canonical s1 := h.foldl fun _ _ h => modCrew h fun _ hw => hw
  clear_value s1
  exact foldl (modCluster h1 fun _ hx => hx) fun _ _ h => h.chargeCrew

theorem withLaunches {l : List Launch} {n : Nat} (h : Canonical s) : Canonical { s with launches := l, free := n } := h

theorem controlIntervalEnd {e : List (Nat × Nat)} (h : Canonical s) : outCanonical (execControlIntervalEnd e s) := by
  unfold execControlIntervalEnd
  extract_lets ps s1 cls
  have h1 : Canonical s1 := h.foldl fun _ _ h => withLaunches h.modPart
  clear_value s1
  have h2 : Canonical { s1 with intervalAt := s.times.getD 16 0, worked := [], spent := [] } := h1
  exact .ite h (foldl h2 fun _ _ h => h.recharge)

theorem thermWrite {d : BitVec 3} {v : Dword} (h : Canonical s) : outCanonical (execThermWrite d v s) := by
  unfold execThermWrite
  split
  · exact modDie h fun _ hx _ hq => hx _ hq
  · exact h.refuse

theorem temperatureRead {core temp : Nat} (h : Canonical s) : outCanonical (execTemperatureRead core temp s) := by
  unfold execTemperatureRead
  extract_lets d now above below tc was hot s1 s2 s3 out
  have h1 : Canonical s1 := modCore h fun _ hk => ⟨hk.1, hk.2⟩
  clear_value s1
  have h2 : Canonical s2 := modDie h1 fun _ hx _ hq => hx _ hq
  clear_value s2
  have h3 : Canonical s3 := .ite h2.msix h2
  clear_value s3
  exact .ite h (Canonical.ite (h3.foldl fun _ _ h => h.haltCrew) h3)

theorem thermalCutStep {core : Nat} (h : Canonical s) : outCanonical (execThermalCutStep core s) := .ite (modCore h fun _ hk => ⟨hk.1, hk.2⟩) h

theorem pageLost {pa : Nat} (h : Canonical s) : Canonical (pageLost s pa) := .ite h h.modFn

theorem withdraw {core : Nat} (h : Canonical s) : Canonical (withdraw s core) := by
  unfold Machine.withdraw
  extract_lets s1
  have h1 : Canonical s1 := modCore h fun _ hk => hk
  clear_value s1
  exact modDie h1 fun _ hx _ hq => hx _ hq

theorem rowTestDone {row : Nat} {pass spare : Bool} (h : Canonical s) : outCanonical (execRowTestDone row pass spare s) := by
  unfold execRowTestDone
  extract_lets array d s1 s2
  have h1 : Canonical s1 := h
  clear_value s1
  have h2 : Canonical s2 := modDie h1 fun _ hx _ hq => hx _ hq
  clear_value s2 d
  exact .ite h (Canonical.ite h2 (.ite h2.withdraw h2.pageLost))

/-! ### Ports and peers (R18 to R22, R144, R266) -/

theorem flitTransmit {port : Nat} {vc : BitVec 2} (h : Canonical s) : outCanonical (execFlitTransmit port vc s) :=
  .ite h (.ite h (.ite h h))

theorem idleFlit {port : Nat} (h : Canonical s) : outCanonical (execIdleFlit port s) := .ite h h

theorem retrainPort {i : Nat} (h : Canonical s) : Canonical (retrainPort s i) := h.setPort.portLost

theorem flitReceive {port : Nat} {flit : Flit} (h : Canonical s) : outCanonical (execFlitReceive port flit s) := by
  unfold execFlitReceive
  refine .ite h (.ite h.setPort ?_)
  dsimp only
  split
  · exact h
  · exact .ite h.setPort (.ite h.setPort.retrainPort h.setPort)
  · exact h.setPort
  · exact h

theorem retrainComplete {port : Nat} (h : Canonical s) : outCanonical (execRetrainComplete port s) := .ite h.setPort h

theorem retrainTimeout {port : Nat} (h : Canonical s) : outCanonical (execRetrainTimeout port s) := .ite h.setPort.portLost h

theorem ppretrWrite {v : Dword} (h : Canonical s) : outCanonical (execPpretrWrite v s) := .ite h (h.foldl fun _ _ h => h.setPort)

theorem answerPeer {i k v : Nat} (h : Canonical s) : Canonical (answerPeer s i k v) := h.setPort

theorem peerAt {part : Nat} {pasid : BitVec 20} {a : PeerAccess} {pa : Nat} (h : Canonical s) : Canonical (peerAt s part pasid a pa).1 := by
  unfold Machine.peerAt
  dsimp only
  split
  · exact h
  · exact h.devWrite
  · split
    · exact h
    · split
      · exact h.devWrite.releaseCell
      · exact h.devWrite

theorem peerInboundAccess {port : Nat} {a : PeerAccess} (h : Canonical s) : outCanonical (execPeerInboundAccess port a s) := by
  unfold execPeerInboundAccess
  refine .ite h (.ite h.answerPeer (.ite h.setPort (.ite h.answerPeer ?_)))
  dsimp only
  split
  · exact h.answerPeer
  · exact .ite h.answerPeer (.ite h.startTest.answerPeer h.peerAt.answerPeer)

/-! ### Reset and time (R24, R323) -/

theorem reset : Canonical State.reset := ⟨rfl, rfl, List.forall_mem_nil _, List.forall_mem_nil _, List.forall_mem_nil _⟩

theorem moduleReset (h : Canonical s) : outCanonical (execModuleReset s) := reset.withHost h.host_wf

theorem noteBounds (h : Canonical s) : Canonical (noteBounds s) := h

theorem withTick {v : Vector Dword 34} {a : Vector Nat 34} {ks : SMap Core} (h : Canonical s) (hk : ∀ e ∈ ks, coreCanonical e.2) :
    Canonical { s with times := v, timeAdj := a, cores := ks } := h.withCores hk

theorem timeTick {slip : BitVec 34} (h : Canonical s) : outCanonical (execTimeTick slip s) := by
  unfold execTimeTick
  extract_lets s0 v v1 age s1 s2
  have h0 : Canonical s0 := noteBounds (h.foldl fun _ _ h => h.workOf)
  clear_value s0
  have ha : ∀ e ∈ s0.cores.map age, coreCanonical e.2 := List.forall_mem_map.mpr fun e he => (h0.cores e he).mapCrews fun _ hw => .ite hw hw
  have h1 : Canonical s1 := pollWaits (h0.withTick ha)
  clear_value s1
  have h2 : Canonical s2 := h1.foldl fun _ _ h => h.caughtUp.settleTraps.settleDoomed
  clear_value s2
  exact h2.foldl fun _ _ h => h.postFaults.settleInval

theorem alignmentPulse (h : Canonical s) : outCanonical (execAlignmentPulse s) := .ite h h

/-! ### Address spaces and registers (R34 to R46, R143 to R149) -/

theorem astbWrite {f : BitVec 6} {v : Dword} (h : Canonical s) : outCanonical (execAstbWrite f v s) := .ite h h.modFn

theorem ppasWrite {port : Nat} {v : Dword} (h : Canonical s) : outCanonical (execPpasWrite port v s) := .ite h (.ite h.refuse h.setPort)

theorem discardSpace {f pasid : Nat} (h : Canonical s) : Canonical (discardSpace s f pasid) :=
  ⟨h.mem_wf, h.host_wf, List.forall_mem_map.mpr fun e he => ⟨(h.cores e he).1, (h.cores e he).2⟩, h.dies,
    List.forall_mem_map.mpr fun e he => h.clusters e he⟩

theorem gcmdWrite {f : BitVec 6} {v : Dword} (h : Canonical s) : outCanonical (execGcmdWrite f v s) := by
  unfold execGcmdWrite
  refine .ite h.modFn (.ite h ?_)
  split
  · exact h.modFn
  · exact h.devWrite.discardSpace.modFn

theorem generationAdvanceDone {f : BitVec 6} (h : Canonical s) : outCanonical (execGenerationAdvanceDone f s) := .ite h.modFn h

theorem translationWalk {c : Nat} {f : BitVec 6} {pasid : BitVec 20} {va : Dword} (h : Canonical s) : outCanonical (execTranslationWalk c f pasid va s) := by
  unfold execTranslationWalk
  refine .ite h ?_
  split
  · exact h
  · exact modCluster h fun _ hx => hx

theorem writeWindow {f : Nat} {lim : Bool} {v : Dword} (h : Canonical s) : Canonical (writeWindow s f lim v) := .ite h h.modFn

theorem writeRbase {f n : Nat} {v : Dword} (h : Canonical s) : Canonical (writeRbase s f n v) := .ite h h.setAqi

theorem writeStatus {f n : Nat} {v : Dword} (h : Canonical s) : Canonical (writeStatus s f n v) := .ite h h.setAqi

theorem writeFqbase {f : Nat} {v : Dword} (h : Canonical s) : Canonical (writeFqbase s f v) := .ite h h.modFn

theorem writePcfg0 {p : Nat} {v : Dword} (h : Canonical s) : Canonical (writePcfg0 s p v) := .ite h.refuse h.modPart

theorem writePcfg1 {p : Nat} {v : Dword} (h : Canonical s) : Canonical (writePcfg1 s p v) := .ite h.refuse h.modPart

theorem writeQueue {f : BitVec 6} {off : Nat} {v : Dword} (h : Canonical s) : outCanonical (writeQueue s f off v) := by
  unfold Machine.writeQueue
  refine .ite ?_ ?_
  · split
    · exact h.doorbellWrite
    · exact h.writeStatus
    · exact h
  · split
    · exact h.writeRbase
    · exact h.aqiCtlWrite
    · exact h

theorem writeFres {f : BitVec 6} {v : Dword} (h : Canonical s) : outCanonical (writeFres s f v) := by
  unfold Machine.writeFres
  refine .ite h ?_
  split
  · exact h.fresRetry
  · exact h.fresKill
  · exact h

theorem writeSelected {f : Nat} {lim : Bool} {v : Dword} (h : Canonical s) :
    Canonical (match selectedVf s f with | some x => Machine.writeWindow s x lim v | none => s) := by
  split
  · exact h.writeWindow
  · exact h

theorem writeFunction {f : BitVec 6} {off : Nat} {v : Dword} (h : Canonical s) : outCanonical (writeFunction s f off v) := by
  unfold Machine.writeFunction
  split
  · exact Canonical.ite h.writeWindow h
  · exact Canonical.ite h.writeWindow h
  · exact Canonical.ite h.modFn h
  · exact Canonical.ite h.writeSelected h
  · exact Canonical.ite h.writeSelected h
  · exact h.astbWrite
  · exact h.gcmdWrite
  · exact h.writeFqbase
  · exact h.fqctlWrite
  · exact h.fqheadWrite
  · exact h.writeFres
  · exact h.modFn
  · exact h

theorem writePcfg {p w : Nat} {v : Dword} (h : Canonical s) : outCanonical (writePcfg s p w v) := by
  unfold Machine.writePcfg
  refine .ite h.writePcfg1 ?_
  split
  · exact h.partitionEnable
  · exact h.partitionReset
  · exact h.writePcfg0

theorem writeMgmt {off : Nat} {v : Dword} (h : Canonical s) : outCanonical (writeMgmt s off v) :=
  .ite h.fmapWrite <| .ite h.fwallWrite <| .ite h <| .ite h.ppmapWrite <| .ite h.ppmapWrite <| .ite h.ppasWrite <| .ite h.ppretrWrite <| .ite h.rswWrite <|
    .ite h.rvoltWrite <| .ite h.thermWrite <| .ite (.ite h.spreRequest h.spreRelease) <| .ite h <| .ite h.capmaskWrite <| .ite h.writePcfg <| .ite h.sctbWrite h

theorem registerWrite {f : BitVec 6} {off : BitVec 18} {size : Nat} {v : Dword} (h : Canonical s) : outCanonical (execRegisterWrite f off size v s) := by
  unfold execRegisterWrite
  extract_lets o r
  generalize BitVec.ofNat 10 (r - 0xC00) = frame
  clear_value r o
  exact .ite (.ite h.fownWrite h) <| .ite h <| .ite h.writeQueue <| .ite h <| .ite h.writeFunction <| .ite h.writeMgmt h

theorem bar2Write {f off : Nat} {bs : List Byte} (h : Canonical s) : Canonical (bar2Write s f off bs) := .ite h h.modFn

end Canonical

end Sys2Proof.Claim
end

section
/-!
PROOF. Canonical form under each instruction and event, under each step, and O57.
-/
namespace Sys2Proof.Claim
open Sys2Proof.Machine
variable {s t : State}

/-- What a fetch comes to holds canonical memories. -/
def fetchCanonical : FetchRes → Prop
  | .word _ t => Canonical t
  | .stop r => resCanonical r

theorem fetchCanonical_stop {r : Res} : fetchCanonical (.stop r) ↔ resCanonical r := Iff.rfl

theorem fetchCanonical_word {w : Dword} : fetchCanonical (.word w t) ↔ Canonical t := Iff.rfl

namespace Canonical

/-! ### One instruction or event -/

theorem pairWord {f : PairWord} (h : Canonical s) : outCanonical (execPairWord f s) := h.runWord fun _ => h.finishWrites

theorem nop {f : RWord} (h : Canonical s) : outCanonical (execNop f s) := h.runWord fun _ => h.completed

theorem moviB64 {f : IWord} (h : Canonical s) : outCanonical (execMoviB64 f s) := h.runWord fun _ => h.finishWrites

theorem moviB32 {f : IWord} (h : Canonical s) : outCanonical (execMoviB32 f s) := h.runWord fun _ => h.finishWrites

theorem bextB64 {f : RWord} (h : Canonical s) : outCanonical (execBextB64 f s) := h.runWord fun _ => h.finishWrites

theorem binsB64 {f : RWord} (h : Canonical s) : outCanonical (execBinsB64 f s) := h.runWord fun _ => h.finishWrites

theorem rdfr {f : RWord} (h : Canonical s) : outCanonical (execRdfr f s) := h.runWord fun _ => h.finishWrites

theorem widen {f : CvtWord} {g : FloatFmt} (h : Canonical s) : outCanonical (Machine.widen f g s) := h.laneWord

theorem packI8I16 {f : MRWord} (h : Canonical s) : outCanonical (execPackI8I16 f s) := by
  unfold execPackI8I16
  exact h.laneWord

theorem nopPacket {id : Nat} (h : Canonical s) : outCanonical (execNopPacket id s) := h.withPacket fun _ _ hu => hu.complete

theorem exec {i : Instr} (h : Canonical s) : outCanonical (exec i s) := by
  unfold Machine.exec
  cases i with
  | moduleReset => exact h.moduleReset
  | timeTick _ => exact h.timeTick
  | alignmentPulse => exact h.alignmentPulse
  | registerWrite _ _ _ _ => exact h.registerWrite
  | aqiCtlWrite _ _ _ => exact h.aqiCtlWrite
  | doorbellWrite _ _ _ _ => exact h.doorbellWrite
  | packetFetch _ _ => exact h.packetFetch
  | tornSubmission _ _ => exact h.tornSubmission
  | nopPacket _ => exact h.nopPacket
  | launch _ => exact h.launch
  | cancelPacket _ => exact h.cancelPacket
  | signal _ => exact h.signal
  | snapcut _ => exact h.snapcut
  | cutSwitch _ _ => exact h.cutSwitch
  | stream _ => exact h.stream
  | snapend _ => exact h.snapend
  | packetCompletion _ => exact h.packetCompletion
  | atsTranslationResponse _ _ _ _ => exact h.atsTranslationResponse
  | pageRequestResponse _ _ _ _ => exact h.pageRequestResponse
  | pageRequestTimeout _ _ _ => exact h.pageRequestTimeout
  | atsInvalidation _ _ _ _ => exact h.atsInvalidation
  | flitTransmit _ _ => exact h.flitTransmit
  | idleFlit _ => exact h.idleFlit
  | flitReceive _ _ => exact h.flitReceive
  | retrainComplete _ => exact h.retrainComplete
  | retrainTimeout _ => exact h.retrainTimeout
  | ppretrWrite _ => exact h.ppretrWrite
  | peerInboundAccess _ _ => exact h.peerInboundAccess
  | fmapWrite _ => exact h.fmapWrite
  | fwallWrite _ => exact h.fwallWrite
  | ppmapWrite _ _ => exact h.ppmapWrite
  | partitionEnable _ _ => exact h.partitionEnable
  | partitionReset _ _ => exact h.partitionReset
  | fownWrite _ _ => exact h.fownWrite
  | frameZeroed _ => exact h.frameZeroed
  | sctbWrite _ _ => exact h.sctbWrite
  | rswWrite _ _ => exact h.rswWrite
  | rvoltWrite _ _ => exact h.rvoltWrite
  | quiesceTimeout _ => exact h.quiesceTimeout
  | railChangeApplied _ => exact h.railChangeApplied
  | railOvercurrent _ => exact h.railOvercurrent
  | throttleRelease _ => exact h.throttleRelease
  | controlIntervalEnd _ => exact h.controlIntervalEnd
  | thermWrite _ _ => exact h.thermWrite
  | temperatureRead _ _ => exact h.temperatureRead
  | thermalCutStep _ => exact h.thermalCutStep
  | rowTestDone _ _ _ => exact h.rowTestDone
  | spreRequest _ _ => exact h.spreRequest
  | spreRelease _ _ => exact h.spreRelease
  | spreDone _ => exact h.spreDone
  | capmaskWrite _ => exact h.capmaskWrite
  | astbWrite _ _ => exact h.astbWrite
  | ppasWrite _ _ => exact h.ppasWrite
  | gcmdWrite _ _ => exact h.gcmdWrite
  | generationAdvanceDone _ => exact h.generationAdvanceDone
  | staleRejection _ => exact h.staleRejection
  | translationWalk _ _ _ _ => exact h.translationWalk
  | walkTimeout _ => exact h.walkTimeout
  | prefetch _ _ _ _ => exact h
  | resultReturn _ _ _ => exact h.resultReturn
  | storeAcknowledge _ _ _ => exact h.storeAcknowledge
  | issueCycle _ => exact h.issueCycle
  | generateRecord _ _ _ => exact h.generateRecord
  | stepBoundary _ _ => exact h.stepBoundary
  | dispatchBind _ => exact h.dispatchBind
  | workSteal _ => exact h.workSteal
  | sliceEnd _ => exact h.sliceEnd
  | groupResume _ _ _ => exact h.groupResume
  | crewRetire _ _ => exact h.crewRetire
  | queueRetry _ => exact h.queueRetry
  | cancelApply _ _ _ => exact h.cancelApply
  | killTimeout _ _ _ => exact h.killTimeout
  | cancelAcknowledge _ _ => exact h.cancelAcknowledge
  | migration _ _ _ => exact h.migration
  | migrationStopTimeout _ _ _ => exact h.migrationStopTimeout
  | fqctlWrite _ _ => exact h.fqctlWrite
  | fqheadWrite _ _ => exact h.fqheadWrite
  | fresRetry _ _ => exact h.fresRetry
  | fresKill _ _ => exact h.fresKill
  | accumulatorSwitch _ _ _ => exact h.accumulatorSwitch
  | copyStart _ _ => exact h.copyStart
  | copy _ | transpose _ | fill _ | caskAdd _ | settle _ | gristLoad _ => exact h.runCmd
  | cellarStream _ => exact h.cellarStream
  | copyComplete _ => exact h.copyComplete
  | tunStep _ => exact h.tunStep
  | tunOperationDone _ => exact h.tunOperationDone
  | peerAddApply _ _ _ => exact h.peerAddApply
  | ctabDone _ => exact h.ctabComplete
  | waitTimeout _ => exact h.waitTimeout
  | pairWord _ => exact h.pairWord
  | nop _ => exact h.nop
  | capq _ => exact h.capq
  | trap _ => exact h.trap
  | rte _ => exact h.rte
  | br _ => exact h.br
  | bz _ | bnz _ => exact h.branchIf
  | bk _ | bnk _ => exact h.splitBranch
  | call _ => exact h.call
  | ret _ => exact h.ret
  | mark _ => exact h.mark
  | join _ => exact h.join
  | exit _ => exact h.exit
  | addB64 _ | subB64 _ | mulB64 _ | mulhiI64 _ | mulhiN64 _ | andB64 _ | orB64 _ | xorB64 _ | andnB64 _ | shlB64 _ | shrN64 _ | shrI64 _
  | minI64 _ | maxI64 _ | minN64 _ | maxN64 _ => exact h.scalar2
  | maddB64 _ | selB64 _ => exact h.scalar3
  | addoI64 _ | addoN64 _ | suboI64 _ | suboN64 _ | muloI64 _ | muloN64 _ => exact h.scalarFlag
  | addiB64 _ | andiB64 _ | oriB64 _ | xoriB64 _ | inshB64 _ => exact h.scalarImm
  | moviB64 _ => exact h.moviB64
  | cmpEqB64 _ | cmpNeB64 _ | cmpLtI64 _ | cmpLeI64 _ | cmpLtN64 _ | cmpLeN64 _ => exact h.scalarCmp
  | popcB64 _ | clzB64 _ | ctzB64 _ | brevB64 _ => exact h.scalar1
  | bextB64 _ => exact h.bextB64
  | binsB64 _ => exact h.binsB64
  | rdfr _ => exact h.rdfr
  | wrsr _ => exact h.wrsr
  | se _ => exact h.se
  | migr _ => exact h.migr
  | addI32 _ | subI32 _ | addN32 _ | subN32 _ | andB32 _ | orB32 _ | xorB32 _ | andnB32 _ | shlB32 _ | shrN32 _ | shrI32 _ | minI32 _
  | maxI32 _ | minN32 _ | maxN32 _ | mulB32 _ | mulhiI32 _ | mulhiN32 _ | drcpN32 _ | dcorN32 _ | addI16 _ | subI16 _ | minI16 _ | maxI16 _
  | addI8 _ | subI8 _ | minN8 _ | maxN8 _ | absI32 _ | popcB32 _ | clzB32 _ | brevB32 _ | addF32 _ | subF32 _ | mulF32 _ | minF32 _
  | maxF32 _ | addF16 _ | subF16 _ | mulF16 _ | minF16 _ | maxF16 _ | addBf16 _ | subBf16 _ | mulBf16 _ | minBf16 _ | maxBf16 _ | absF32 _
  | negF32 _ | absF16 _ | negF16 _ | absBf16 _ | negBf16 _ | cvtF32I32 _ | cvtF32N32 _ | cvtI32F32 _ | cvtN32F32 _ | packI16I32 _
  | cvtHq4F32 _ => exact h.laneWord
  | addiI32 _ | andiB32 _ | oriB32 _ | xoriB32 _ | shliB32 _ | shriN32 _ | shriI32 _ => exact h.immWord
  | moviB32 _ => exact h.moviB32
  | fmaF32 _ | fmsF32 _ | fnmaF32 _ | fnmsF32 _ | fmaF16 _ | fmaBf16 _ => exact h.fmaWord
  | cmpEqI32 _ | cmpNeI32 _ | cmpLtI32 _ | cmpLeI32 _ | cmpLtN32 _ | cmpLeN32 _ | cmpEqF32 _ | cmpNeF32 _ | cmpLtF32 _ | cmpLeF32 _
  | cmpUnF32 _ => exact h.compare
  | kand _ | kor _ | kxor _ | kandn _ | knot _ | kfirst _ => exact h.klogic
  | compressB32 _ | expandB32 _ | matchB32 _ => exact h.permute
  | slideupB32 _ | slidednB32 _ => exact h.slide
  | redAddI32 _ | redAddF32 _ | redMinI32 _ | redMaxI32 _ | redMinN32 _ | redMaxN32 _ | redMinF32 _ | redMaxF32 _ | redAndB32 _
  | redOrB32 _ | redXorB32 _ => exact h.reduce
  | scanAddI32 _ | scanAddF32 _ | scanMaxI32 _ | scanMaxF32 _ => exact h.scan
  | cvtF16F32 _ | cvtBf16F32 _ | cvtF8e4F32 _ | cvtF8e5F32 _ => exact h.narrow
  | cvtF32F16 _ | cvtF32Bf16 _ | cvtF32F8e4 _ | cvtF32F8e5 _ => exact h.widen
  | packI8I16 _ => exact h.packI8I16
  | rcpF32 _ | rsqrtF32 _ | sqrtF32 _ | exp2F32 _ | log2F32 _ | sinpiF32 _ | cospiF32 _ | tanhF32 _ | divF32 _ => exact h.special
  | lds _ | ldc _ | ldd _ | ldp _ | ldh _ | ldk _ => exact h.loadWord
  | sts _ | stc _ | std _ | stp _ | sth _ => exact h.storeWord
  | atsAdd _ | atsAnd _ | atsOr _ | atsXor _ | atsSmin _ | atsSmax _ | atsUmin _ | atsUmax _ | atsExch _ | atsCas _ | atsFadd _ | atcAdd _
  | atcAnd _ | atcOr _ | atcXor _ | atcSmin _ | atcSmax _ | atcUmin _ | atcUmax _ | atcExch _ | atcCas _ | atcFadd _ | atdAdd _ | atdAnd _
  | atdOr _ | atdXor _ | atdSmin _ | atdSmax _ | atdUmin _ | atdUmax _ | atdExch _ | atdCas _ | atdFadd _ | atrPAdd _ | atrPAnd _
  | atrPOr _ | atrPXor _ | atrPSmin _ | atrPSmax _ | atrPUmin _ | atrPUmax _ | atrPExch _ | atrPCas _ | atrPFadd _ | atrHAdd _ | atrHAnd _
  | atrHOr _ | atrHXor _ | atrHSmin _ | atrHSmax _ | atrHUmin _ | atrHUmax _ | atrHExch _ | atrHCas _ | atrHFadd _ => exact h.atomic
  | fenceAcq _ | fenceRel _ | fenceAr _ | fenceTot _ => exact h.fenceOn
  | xfence _ => exact h.xfence
  | fenceI _ => exact h.fenceI
  | barArr _ | barHold _ => exact h.barWord
  | wait _ => exact h.wait
  | pass _ => exact h.pass
  | cpost _ => exact h.cpost
  | cdrain _ => exact h.cdrain
  | spawn _ | spawnOpen _ => exact h.spawnWord
  | arm _ => exact h.arm
  | cancel _ => exact h.cancel
  | step _ => exact h.step
  | retire _ => exact h.retire
  | mlda _ | mldaT _ => exact h.mldaWord
  | mldb _ => exact h.mldb
  | mma _ | mmaZ _ => exact h.mmaWord
  | mzero _ => exact h.mzero
  | mdrain _ => exact h.mdrain
  | mdrainp _ => exact h.mdrainp
  | marm _ => exact h.marm
  | mstat _ => exact h.mstat
  | ctab _ => exact h.ctab
  | msave _ => exact h.msave
  | mrest _ => exact h.mrest
  | hostWriteError _ => exact h.hostWriteError

/-! ### A step -/

theorem fetch {c : Ctx} (h : Canonical s) : fetchCanonical (fetch s c) := by
  unfold Machine.fetch
  dsimp only
  split
  · exact h
  · split
    · exact trivial
    · split
      · exact fetchCanonical_stop.mpr h.trapPoison
      · exact fetchCanonical_word.mpr (modCore h fun _ hk => ⟨hk.1, hk.2⟩)

theorem popSlot {u : Cur} {l : List Cur} (h : Canonical s) : Canonical (s.popSlot u l) := h

theorem runSlot (h : Canonical s) : outCanonical (runSlot Machine.exec decode s) := by
  unfold Machine.runSlot
  split
  · exact h
  · rename_i c _
    have hf := h.fetch (c := c)
    split <;> rename_i he <;> rw [he] at hf
    · exact h.finish hf
    · split
      · exact hf.exec
      · exact hf.finish trivial

theorem arrayFails {r : SplitRef} {code : Byte} (h : Canonical s) : Canonical (arrayFails s r code) := by
  unfold Machine.arrayFails
  split
  · exact h
  · exact .ite h.startTest.takeTrap h

theorem savedFails {core slot : Nat} {code : Byte} (h : Canonical s) : Canonical (savedFails s core slot code) := by
  unfold Machine.savedFails
  dsimp only
  split
  · exact h
  · exact freeScopes (discardWhere (.ite h h.countTrap))

theorem imageFails {core slot : Nat} {code : Byte} (h : Canonical s) : Canonical (imageFails s core slot code) := by
  unfold Machine.imageFails
  split
  · exact h.savedFails
  · refine .ite (foldl h fun _ _ h => h.unhandled) ?_
    split
    · exact h
    · exact .ite h (.ite h.killDoomed h.unhandled)

theorem runInput {x : Input} (h : Canonical s) : outCanonical (runInput Machine.exec s x) := by
  cases x with
  | event i => exact .ite h h.exec
  | hostMem a bs => exact h.withHost (Memory.setBytes_wf _ _ h.host_wf)
  | devMem a bs => exact h.foldl fun _ _ h => h.devWrite
  | devPoison w => exact Canonical.ite h h
  | spadPoison c w p => exact h.modCrew fun _ hw => .ite hw hw
  | gristPoison c p => exact h.modCore fun _ hk => .ite hk hk
  | hostPoison w => exact Canonical.ite h h
  | arrayError r code => exact h.arrayFails
  | imageError c w refused => exact h.imageFails
  | priEnable f => exact h.modFn
  | rowError r => exact h.startTest
  | bar2Write f off bs => exact h.bar2Write

theorem runAlone (h : Canonical s) : outCanonical (runAlone Machine.exec s) := by
  unfold Machine.runAlone
  split
  · exact h.exec
  · exact h.exec
  · split
    · exact .ite h.exec h.exec
    · exact h.exec

theorem step_out (h : Canonical s) : outCanonical (Machine.step s) := by
  unfold Machine.step
  split
  · exact h.popSlot.runSlot
  · split
    · exact runInput h
    · exact h.runAlone

end Canonical

theorem outCanonical.next {o : Out3} (h : outCanonical o) (ho : o = .next t) : Canonical t := by
  rw [ho] at h
  exact h

end Sys2Proof.Claim

open Sys2Proof.Claim in
/-- Settles O57, by one lemma for each function of the model: each writes memories through the canonical updates alone. -/
theorem canonicalKept : Obligations.CanonicalKept :=
  ⟨fun _ _ h hs => h.step_out.next hs, fun _ _ _ h he => h.exec.next he⟩
end

section
/-!
PROOF. The reset values (O56).
-/
namespace Sys2Proof.Claim
open Sys2Proof.Machine

/-! ## The reset values (R22, R24, R34, R35, R54, R57, R64, R66, R121, R184, R208) -/

theorem reset_times : ∀ d < 34, State.reset.times.getD d 1 = 0 := by decide

theorem reset_fownOf (f : Nat) : State.reset.fownOf f = 0 := ite_self 0

/-- Each cluster of a die is connected to the rail of its half of the module (R64). -/
theorem reset_rsw : ∀ d < 8, ∀ c < 12, ((Die.reset d).rsw.extractLsb' (2 * c) 2).toNat = d / 2 := by decide

theorem reset_rsw_pend : ∀ d < 8, (Die.reset d).rsw.extractLsb' 24 40 = 0 := by decide

end Sys2Proof.Claim

open Sys2Proof.Claim Sys2Proof.Machine in
/-- Settles O56: no part of the reset state has been written, so each register reads its reset value. -/
theorem resetState : Obligations.ResetState := by
  refine ⟨Canonical.reset, reset_times, rfl, rfl, rfl, rfl, rfl, rfl, reset_fownOf, fun _ _ => ⟨rfl, rfl, rfl⟩,
    fun _ _ => ⟨rfl, rfl, rfl, rfl, rfl, rfl, rfl, rfl, rfl⟩, fun _ _ _ _ => ⟨rfl, rfl, rfl, rfl, rfl⟩, fun _ _ => ⟨rfl, rfl, rfl, rfl⟩, ?_,
    fun _ _ => rfl, fun _ _ => ⟨rfl, rfl, rfl, rfl⟩⟩
  exact fun d hd => ⟨rfl, rfl, rfl, rfl, rfl, reset_rsw d hd, reset_rsw_pend d hd⟩
end

section
/-!
PROOF. A commit that writes one s register, from a state in which the executing strand stands as it did (R130, R131): what task words do to queues, cells, scopes,
launches and memory leaves it so.
-/
namespace Sys2Proof.Claim
open Sys2Proof.Machine
variable {s t u : State} {c : Ctx}

/-! ## Updates beside the executing strand -/

/-- The cores and the executing split of t are those of s. -/
structure KeepsStrand (s t : State) : Prop where
  cores : t.cores = s.cores
  cur : t.cur = s.cur

/-- Besides, the dies of t are those of s. -/
structure KeepsDies (s t : State) : Prop extends KeepsStrand s t where
  dies : t.dies = s.dies

theorem KeepsStrand.trans (h : KeepsStrand s t) (h' : KeepsStrand t u) : KeepsStrand s u := ⟨h'.cores.trans h.cores, h'.cur.trans h.cur⟩

theorem KeepsStrand.crew? (h : KeepsStrand s t) (core slot : Nat) : t.crew? core slot = s.crew? core slot := by
  simp only [State.crew?, State.core, h.cores]

theorem KeepsStrand.ctx (h : KeepsStrand s t) : t.ctx = s.ctx := by
  simp only [State.ctx, h.cur, h.crew?]

/-- Where a commit may execute, it may complete in a state that keeps the strand. -/
theorem KeepsStrand.mayCommit (h : KeepsStrand s t) (hc : MayCommit s c) : MayCommit t c := by
  obtain ⟨⟨⟨hctx, htrap, hheld⟩, hstrand⟩, hhandler⟩ := hc
  exact ⟨⟨⟨h.ctx.trans hctx, htrap, hheld⟩, hstrand⟩, hhandler⟩

/-- To name a cell changes nothing but the list of cells (R74; log 12). -/
theorem nameCell_cells (s : State) (p pasid : Nat) (va : Dword) (party : Nat) : ∃ l, s.nameCell p pasid va party = { s with cells := l } := by
  unfold State.nameCell
  split
  · split
    · exact ⟨_, rfl⟩
    · exact ⟨_, rfl⟩
  · exact ⟨_, rfl⟩

namespace KeepsDies

theorem refl (s : State) : KeepsDies s s := ⟨⟨rfl, rfl⟩, rfl⟩

theorem trans (h : KeepsDies s t) (h' : KeepsDies t u) : KeepsDies s u := ⟨h.toKeepsStrand.trans h'.toKeepsStrand, h'.dies.trans h.dies⟩

theorem die (h : KeepsDies s t) (d : Nat) : t.die d = s.die d := by simp only [State.die, h.dies]

theorem queueRoom (h : KeepsDies s t) (d p : Nat) : t.queueRoom d p = s.queueRoom d p := by
  have hd : t.die = s.die := funext h.die
  rw [State.queueRoom, State.dieStore, State.overflowUse, hd]
  rfl

theorem ite {p : Prop} {_ : Decidable p} (ht : KeepsDies s t) (hu : KeepsDies s u) : KeepsDies s (if p then t else u) := by
  split
  · exact ht
  · exact hu

theorem foldl {α : Type} (l : List α) {f : State → α → State} (hf : ∀ v a, KeepsDies v (f v a)) : KeepsDies s (l.foldl f s) :=
  List.foldlRecOn l f (refl s) fun v hv a _ => hv.trans (hf v a)

/-! ### Memory, row tests, launches, scopes and cells -/

theorem startTest (s : State) (row : Nat) : KeepsDies s (s.startTest row) := ite (refl s) ⟨⟨rfl, rfl⟩, rfl⟩

theorem testWalk (s : State) (p pasid va : Nat) : KeepsDies s (s.testWalk p pasid va) := by
  unfold State.testWalk
  split
  · exact startTest s _
  · exact refl s
  · split
    · exact startTest s _
    · exact refl s

theorem testVa (s : State) (p pasid : Nat) (va : Dword) (n party : Nat) : KeepsDies s (s.testVa p pasid va n party) := by
  unfold State.testVa
  split
  · exact testWalk s _ _ _
  · exact refl s
  · exact ite (startTest s _) (refl s)

theorem testWords (s : State) (p pasid : Nat) (va : Dword) (n party : Nat) : KeepsDies s (s.testWords p pasid va n party) :=
  foldl _ fun v _ => testVa v _ _ _ _ _

theorem countFault (s : State) (p : Nat) (id : Word) (d : Nat) (cause : Byte) (a : Dword) : KeepsDies s (s.countFault p id d cause a) :=
  ⟨⟨rfl, rfl⟩, rfl⟩

theorem nameCell (s : State) (p pasid : Nat) (va : Dword) (party : Nat) : KeepsDies s (s.nameCell p pasid va party) := by
  obtain ⟨l, h⟩ := nameCell_cells s p pasid va party
  rw [h]
  exact ⟨⟨rfl, rfl⟩, rfl⟩

theorem journalFor (s : State) (p i : Nat) (n : Snap) (page : Nat) : KeepsDies s (s.journalFor p i n page) := by
  unfold State.journalFor
  exact ite (refl s) (ite (refl s) (ite ⟨⟨rfl, rfl⟩, rfl⟩ ⟨⟨rfl, rfl⟩, rfl⟩))

theorem journalPage (s : State) (page : Nat) : KeepsDies s (s.journalPage page) := foldl _ fun v _ => journalFor v _ _ _ _

theorem devWrite (s : State) (pa : Nat) (bs : List Byte) : KeepsDies s (s.devWrite pa bs) := (journalPage s _).trans ⟨⟨rfl, rfl⟩, rfl⟩

theorem setScope (s : State) (p id : Nat) (e : ScopeEnt) : KeepsDies s (s.setScope p id e) := by
  unfold State.setScope
  have h : KeepsDies s { s with scopes := s.scopes.put (p * 65536 + id) e } := ⟨⟨rfl, rfl⟩, rfl⟩
  exact ite (h.trans (devWrite _ _ _)) h

end KeepsDies

/-! ## The group after a commit that writes an s register -/

/-- An element of a vector after a change of one of them. -/
theorem vmod_getD {α : Type} {n : Nat} (v : Vector α n) (i j : Nat) (f : α → α) (d : α) (hj : j < n) :
    (vmod v i f).getD j d = if j = i then f (v.getD j d) else v.getD j d := by
  simp [vmod, Vector.getD, hj]

/-- A completed word keeps the splits by number, with their places and lanes. -/
theorem writeWord_split? {g : Group} {n split k : Nat} {pre : Option Pre} {cls : TClass} {ws : List Wr} {p : Split} (h : g.split? k = some p) :
    ∃ v w, (g.writeWord n split pre cls ws).split? k = some { p with view := v, waiting := w } := by
  have hs : (g.writeWord n split pre cls ws).split? k = (g.split? k).map fun p => contestWait ws
      (if p.num == split then { p with view := ownHazards n g pre cls ws ++ tickView p.view } else { p with view := otherHazards n g pre ws ++ p.view }) := by
    simp only [Group.writeWord, Group.split?, List.find?_map]
    congr 2
    funext q
    simp only [Function.comp, contestWait]
    split <;> rfl
  rw [hs, h]
  simp only [Option.map_some, contestWait]
  split
  · exact ⟨_, _, rfl⟩
  · exact ⟨_, _, rfl⟩

/-- The split after a commit (R130). -/
def afterCommit (p : Split) : Split := { p with pc := p.pc + 1, closed := true, stale := 0, parked := none, oldSpec := none, barWait := none }

/-- The group after a commit: the writes of its word, the split closed at the next word, and SEQ one more (R130). -/
def committedGroup (t : State) (c : Ctx) (ws : List Wr) (cls : TClass) : Group :=
  let g := (c.g.writeWord t.free c.r.split c.pre cls ws).modSplit c.r.split afterCommit
  { g with seq := g.seq + 1, flags := g.flags ||| 0 }

theorem commit_group (h : t.ctx = some c) (ws : List Wr) (cls : TClass) :
    (commit t c ws cls).group? c.r.core c.r.crew c.r.gid = some (committedGroup t c ws cls) := by
  unfold commit
  rw [State.group?_modGroup _ _ _ _ _ fun _ hx => by exact hx, completeWith_group h]
  rfl

theorem committedGroup_counts (t : State) (c : Ctx) (ws : List Wr) (cls : TClass) :
    (committedGroup t c ws cls).seq = c.g.seq + 1 ∧ (committedGroup t c ws cls).flags = c.g.flags ∧ (committedGroup t c ws cls).ctx = c.g.ctx ∧
      (committedGroup t c ws cls).frec = c.g.frec ∧ (committedGroup t c ws cls).handler = c.g.handler := by
  obtain ⟨-, -, hseq, hflags, hctx, hfrec, hhandler, -, -⟩ := c.g.writeWord_keeps t.free c.r.split c.pre cls ws
  simp [committedGroup, Group.modSplit, hseq, hflags, hctx, hfrec, hhandler]

/-- Of the files, a commit to an s register changes that register alone. -/
theorem committedGroup_files (t : State) (c : Ctx) (i : BitVec 6) (v : Dword) (cls : TClass) :
    let g := committedGroup t c (wrScalar (.s i) v) cls
    g.s = vmod c.g.s i.toNat (fun _ => v) ∧ g.m = c.g.m ∧ g.k = c.g.k ∧ g.o = c.g.o ∧ g.x = c.g.x := by
  simp [committedGroup, Group.modSplit, Group.writeWord, wrScalar, Group.write]

theorem committedGroup_split? (h : t.ctx = some c) (ws : List Wr) (cls : TClass) :
    ∃ v w, (committedGroup t c ws cls).split? c.r.split = some (afterCommit { c.sp with view := v, waiting := w }) := by
  obtain ⟨-, -, -, -, hp⟩ := State.of_ctx h
  obtain ⟨v, w, hw⟩ := writeWord_split? (n := t.free) (split := c.r.split) (pre := c.pre) (cls := cls) (ws := ws) hp
  refine ⟨v, w, (Group.split?_modSplit (c.g.writeWord t.free c.r.split c.pre cls ws) c.r.split afterCommit fun _ hx => hx).trans ?_⟩
  rw [hw]
  rfl

/-- A commit to s register i: its value, the counts of a commit, and nothing else (R130, R131). -/
theorem commit_scalar (h : MayCommit t c) (i : BitVec 6) (v : Dword) (cls : TClass) :
    ∃ g q, committed (commit t c (wrScalar (.s i) v) cls) c g q ∧ onlyS c g i v := by
  obtain ⟨_, _, hsplit⟩ := committedGroup_split? h.ctx (wrScalar (.s i) v) cls
  obtain ⟨hseq, hflags, hctx, hfrec, hhandler⟩ := committedGroup_counts t c (wrScalar (.s i) v) cls
  obtain ⟨hs, hm, hk, ho, hx⟩ := committedGroup_files t c i v cls
  refine ⟨_, _, ⟨commit_group h.ctx _ _, hsplit, rfl, rfl, rfl, hseq, hflags, hctx, hfrec, hm, hk, ho, hx, hhandler.trans h.noHandler⟩, ?_⟩
  intro j hj
  rw [hs]
  exact vmod_getD c.g.s i.toNat j _ 0 hj

/-- A word whose effect keeps the strand completes as a commit. -/
theorem finish_commit (h : MayCommit s c) (ht : KeepsStrand s t) (ws : List Wr) (cls : TClass) : finish s c (.ok (commit t c ws cls)) = .next (commit t c ws cls) :=
  finish_ok (pendingTrap_commit (ht.mayCommit h).toIssues ws cls)

/-! ## Operands -/

/-- A value operand has no code of its own (R319). -/
theorem srcVal_valueOperand {o : Operand} (h : valueOperand o) : srcVal o = none := by
  obtain ⟨_, rfl⟩ | ⟨_, rfl⟩ | ⟨_, rfl⟩ := h <;> rfl

/-! ## What a commit leaves: the dies, and every byte of memory -/

theorem commit_die (t : State) (c : Ctx) (ws : List Wr) (cls : TClass) (d : Nat) : (commit t c ws cls).die d = t.die d := rfl

/-- No change of a group writes a byte of memory. -/
theorem byteIn_modGroup (t : State) (core slot gid : Nat) (f : Group → Group) (q : Place) : byteIn (t.modGroup core slot gid f) q = byteIn t q := by
  cases q with
  | dev a => rfl
  | host a => rfl
  | spad d x a =>
    simp only [byteIn]
    by_cases h : d ≠ core ∨ x ≠ slot
    · rw [State.crew?_modGroup_other _ _ _ _ _ _ _ h]
    · obtain ⟨rfl, rfl⟩ : d = core ∧ x = slot := by omega
      rw [State.crew?_modGroup]
      cases t.crew? d x <;> rfl

theorem byteIn_commit (t : State) (c : Ctx) (ws : List Wr) (cls : TClass) (q : Place) : byteIn (commit t c ws cls) q = byteIn t q := by
  have hfree : ∀ (v : State) (n : Nat), byteIn { v with free := n } q = byteIn v q := fun _ _ => by cases q <;> rfl
  unfold commit completeWith
  rw [byteIn_modGroup, hfree, byteIn_modGroup]

end Sys2Proof.Claim
end

section
/-!
PROOF. Little-endian numbers in device memory, and a write of one where no snapshot journals its page (R2, R158).
-/
namespace Sys2Proof.Claim
open Sys2Proof.Machine
variable {s t : State}

theorem leBytes_length (n v : Nat) : (leBytes n v).length = n := by
  induction n generalizing v with
  | zero => rfl
  | succ n ih => rw [leBytes, List.length_cons, ih]

theorem leBytes_getElem (n v i : Nat) (h : i < (leBytes n v).length) : (leBytes n v)[i] = BitVec.ofNat 8 (v / 256 ^ i) := by
  induction n generalizing v i with
  | zero => exact absurd h (Nat.not_lt_zero i)
  | succ n ih =>
    cases i with
    | zero => simp [leBytes]
    | succ i => simp [leBytes, ih, Nat.div_div_eq_div_mul, Nat.pow_succ']

theorem leNat_leBytes (n v : Nat) : leNat (leBytes n v) = v % 256 ^ n := by
  induction n generalizing v with
  | zero => simp [leBytes, leNat, Nat.mod_one]
  | succ n ih => rw [leBytes, leNat, ih, Nat.pow_succ', Nat.mod_mul, BitVec.toNat_ofNat]

theorem leNat_lt (l : List Byte) : leNat l < 256 ^ l.length := by
  induction l with
  | nil => simp [leNat]
  | cons b l ih =>
    have hb := b.isLt
    rw [leNat, List.length_cons, Nat.pow_succ']
    omega

/-- A number from bytes is the sum of its bytes by place. -/
theorem leNat_map_range (n : Nat) (f : Nat → Byte) : leNat ((List.range n).map f) = ((List.range n).map fun i => (f i).toNat * 256 ^ i).sum := by
  induction n generalizing f with
  | zero => rfl
  | succ n ih =>
    have hstep : ∀ i, (f (i + 1)).toNat * 256 ^ (i + 1) = 256 * ((f (i + 1)).toNat * 256 ^ i) := fun i => by rw [Nat.pow_succ]; ring
    simp [List.range_succ_eq_map, leNat, Function.comp_def, ih, hstep, List.sum_map_mul_left]

theorem devRead_lt (s : State) (pa n : Nat) : s.devRead pa n < 256 ^ n := by
  have h := leNat_lt (s.mem.getBytes pa n)
  rwa [Memory.getBytes, List.length_map, List.length_range] at h

/-- What a load of device memory reads is what stands there. -/
theorem readThere_dev (s : State) (n pa : Nat) : readThere n (.dev pa) (byteIn s) = s.devRead pa n := (leNat_map_range n _).symm

/-- Where no snapshot holds the page, a write changes the bytes it names alone. -/
theorem devWrite_unjournalled {pa : Nat} (h : s.snapsOf (pa / 4096 * 4096) = []) (bs : List Byte) :
    s.devWrite pa bs = { s with mem := s.mem.setBytes pa bs } := by
  have hj : s.journalPage (pa / 4096 * 4096) = s := by rw [State.journalPage, h]; rfl
  rw [State.devWrite, hj]

theorem byteIn_devWrite {pa : Nat} (hm : s.mem.wf = true) (h : s.snapsOf (pa / 4096 * 4096) = []) (n v : Nat) (q : Place) :
    byteIn (s.devWrite pa (leBytes n v)) q = writtenAt n v (.dev pa) (byteIn s) q := by
  rw [devWrite_unjournalled h]
  cases q with
  | host a => rfl
  | spad core slot a => rfl
  | dev a =>
    simp only [byteIn, writtenAt, offsetIn]
    split
    · rename_i i hi
      split at hi
      · rename_i hr
        obtain rfl := Option.some.inj hi
        have hlt : a - pa < (leBytes n v).length := by rw [leBytes_length]; omega
        have hget := Memory.get_setBytes pa (a - pa) (leBytes n v) hm hlt
        rwa [Nat.add_sub_cancel' hr.1, leBytes_getElem] at hget
      · exact nomatch hi
    · rename_i hi
      split at hi
      · exact nomatch hi
      · exact Memory.get_setBytes_other pa a (leBytes n v) hm (by rw [leBytes_length]; omega)

theorem devRead_devWrite {pa : Nat} (hm : s.mem.wf = true) (h : s.snapsOf (pa / 4096 * 4096) = []) (n v : Nat) :
    (s.devWrite pa (leBytes n v)).devRead pa n = v % 256 ^ n := by
  have hbytes : (s.mem.setBytes pa (leBytes n v)).getBytes pa n = leBytes n v := by
    refine List.ext_getElem (by simp [Memory.getBytes, leBytes_length]) fun i _ hi => ?_
    simp only [Memory.getBytes, List.getElem_map, List.getElem_range]
    exact Memory.get_setBytes pa i _ hm hi
  rw [devWrite_unjournalled h, State.devRead, hbytes, leNat_leBytes]

end Sys2Proof.Claim
end

section
/-!
PROOF. The outcomes of spawn and spawn.open (O33).
-/
namespace Sys2Proof.Claim
open Sys2Proof.Machine
variable {s t u : State} {c : Ctx} {f : RWord} {opens : Bool} {a : Dword}

/-! ## Queues and scopes -/

/-- A record put in a queue stands last in it; its place is all that is chosen for it (R81). -/
theorem putRec_queue (s : State) (d : Nat) (q : QRec) :
    ((s.putRec d q).die d).queue = (s.die d).queue ++ [{ q with spilled := !decide (s.dieStore d < 2048) }] := by
  simp [State.putRec, State.modDie, State.setDie, State.die]

theorem journalFor_scopes (s : State) (p i : Nat) (n : Snap) (page : Nat) : (s.journalFor p i n page).scopes = s.scopes := by
  unfold State.journalFor
  dsimp only
  repeat' split
  all_goals rfl

theorem devWrite_scopes (s : State) (pa : Nat) (bs : List Byte) : (s.devWrite pa bs).scopes = s.scopes :=
  List.foldlRecOn (motive := fun t : State => t.scopes = s.scopes) _ _ rfl fun _ ht _ _ => (journalFor_scopes _ _ _ _ _).trans ht

theorem setScope_scopes (s : State) (p id : Nat) (e : ScopeEnt) : (s.setScope p id e).scopes = s.scopes.put (p * 65536 + id) e := by
  unfold State.setScope
  extract_lets s1
  have h1 : s1.scopes = s.scopes.put (p * 65536 + id) e := rfl
  clear_value s1
  split
  · rw [devWrite_scopes, h1]
  · exact h1

/-- A scope written reads back (R89). -/
theorem setScope_scope (s : State) (p id : Nat) (e : ScopeEnt) : (s.setScope p id e).scope p id = e := by
  rw [State.scope, setScope_scopes, SMap.get_put_same]

/-- A scope opens under an open parent that is not too deep, where it is FREE (R88). -/
theorem openScope?_free {p id q : Nat} {k : Dword} {opas : BitVec 20} (he : (s.scope p id).st = .free) (hp : (s.scope p q).st = .opened)
    (hd : (s.scope p q).depth.toNat < 15) :
    s.openScope? p id (some q) k opas false =
      some { ScopeEnt.free with st := .opened, parent := BitVec.ofNat 16 q, depth := (s.scope p q).depth + 1, acka := k, opas := opas } := by
  simp [State.openScope?, he, hp, hd]

/-- A scope that is open, or under cancellation, does not open (R88). -/
theorem openScope?_taken {p id q : Nat} {k : Dword} {opas : BitVec 20} (he : (s.scope p id).st = .opened ∨ (s.scope p id).st = .cancelling) :
    s.openScope? p id (some q) k opas false = none := by
  obtain he | he := he <;> simp [State.openScope?, he]

/-- No scope opens under one that is not open, or at depth 16 (R88). -/
theorem openScope?_parent {p id q : Nat} {k : Dword} {opas : BitVec 20} (hp : (s.scope p q).st ≠ .opened ∨ (s.scope p q).depth.toNat = 15) :
    s.openScope? p id (some q) k opas false = none := by
  obtain hp | hp := hp <;> simp [State.openScope?, hp]

/-! ## The effect of spawn, by the state of the scope (R327) -/

theorem spawnInto_free {t : TaskRec} {root : Option RootExt} (h : (s.scope c.crew.part t.scopeId).st = .free) : spawnInto s c t root a = (s, 4) := by
  simp only [spawnInto, h]

theorem spawnInto_cancelled {t : TaskRec} {root : Option RootExt}
    (h : (s.scope c.crew.part t.scopeId).st = .cancelling ∨ (s.scope c.crew.part t.scopeId).st = .cancelled) : spawnInto s c t root a = (s, 1) := by
  obtain h | h := h <;> simp only [spawnInto, h]

theorem spawnInto_full {t : TaskRec} {root : Option RootExt} (h : (s.scope c.crew.part t.scopeId).st = .opened)
    (hr : s.queueRoom (dieOf c.r.core) c.crew.part = false) : spawnInto s c t root a = (s, 2) := by
  simp only [spawnInto, h, hr]
  rfl

/-- Where there is room, the copy is queued on the die, and the state changes else only in the cells that are named (log 12). -/
theorem spawnInto_queued {t : TaskRec} {root : Option RootExt} (h : (s.scope c.crew.part t.scopeId).st = .opened)
    (hr : s.queueRoom (dieOf c.r.core) c.crew.part = true) :
    ∃ l, spawnInto s c t root a = ({ s.enqueue (dieOf c.r.core) c.crew.part c.crew.pasid
      (if t.isRoot then t else { t with launch := c.crew.task.launch }) root false a with cells := l }, 0) := by
  simp only [spawnInto, h, hr, if_true]
  split
  · obtain ⟨l, hl⟩ := nameCell_cells (s.enqueue (dieOf c.r.core) c.crew.part c.crew.pasid
      (if t.isRoot then t else { t with launch := c.crew.task.launch }) root false a) c.crew.part c.crew.pasid.toNat t.succ (96 + dieOf c.r.core)
    exact ⟨l, by rw [hl]⟩
  · exact ⟨_, rfl⟩

/-! ## The status of a record that can be read (R71, R78, R327) -/

/-- The cause that spawn counts for a record: 0x88 for R71, 0x89 for R78. -/
def spawnCause (s : State) (c : Ctx) (a : Dword) : Option Byte :=
  if taskBad s c.crew.part c.crew.pasid.toNat (spawnedTask s c a) (96 + dieOf c.r.core) then some 0x88
  else match spawnedRoot s c a with | some e => if rootBad s c.crew.part e then some 0x89 else none | none => none

theorem spawnCause_isSome (s : State) (c : Ctx) (a : Dword) : (spawnCause s c a).isSome = malformedAt s c a := by
  unfold spawnCause malformedAt
  cases taskBad s c.crew.part c.crew.pasid.toNat (spawnedTask s c a) (96 + dieOf c.r.core) with
  | true => rfl
  | false =>
    cases spawnedRoot s c a with
    | none => rfl
    | some e => cases h : rootBad s c.crew.part e <;> simp [h]

/-- A malformed record is counted, and changes neither the strand nor a queue. -/
theorem spawnStatus_malformed {k : Option Dword} (h : malformedAt s c a = true) : ∃ u, spawnStatus s c a k = (u, 3) ∧ KeepsDies s u := by
  rw [← spawnCause_isSome, Option.isSome_iff_exists] at h
  obtain ⟨code, hcode⟩ := h
  unfold spawnStatus
  extract_lets p ps d t root bad
  have hbad : bad = some code := hcode
  rw [hbad]
  exact ⟨_, rfl, (KeepsDies.testWords _ _ _ _ _ _).trans (.countFault _ _ _ _ _ _)⟩

/-- A well-formed record is queued in its scope; with an ACKA the scope is opened first, and freed again where the record finds no place. -/
theorem spawnStatus_wellFormed (k : Option Dword) (h : malformedAt s c a = false) : spawnStatus s c a k =
    k.elim (spawnInto s c (spawnedTask s c a) (spawnedRoot s c a) a) fun k =>
      (s.openScope? c.crew.part (spawnedTask s c a).scopeId (some c.crew.task.scopeId) k c.crew.pasid false).elim (s, 4) fun e =>
        let r := spawnInto (s.setScope c.crew.part (spawnedTask s c a).scopeId e) c (spawnedTask s c a) (spawnedRoot s c a) a
        (if r.2 == 0 then r.1 else r.1.freeScopes c.crew.part, r.2) := by
  rw [← spawnCause_isSome, Option.isSome_eq_false_iff, Option.isNone_iff_eq_none] at h
  -- Two opaque names, so that the kernel does not evaluate the functions where it compares the matches on their results.
  obtain ⟨into, hinto⟩ : ∃ into, into = spawnInto := ⟨_, rfl⟩
  obtain ⟨opened, hopened⟩ : ∃ opened, opened = State.openScope? := ⟨_, rfl⟩
  unfold spawnStatus
  rw [← hinto, ← hopened]
  extract_lets p ps d t root bad
  have hbad : bad = none := h
  rw [hbad]
  cases k with
  | none => rfl
  | some k =>
    show _ = Option.elim (opened s p t.scopeId (some c.crew.task.scopeId) k c.crew.pasid false) _ _
    dsimp only
    cases opened s p t.scopeId (some c.crew.task.scopeId) k c.crew.pasid false <;> rfl

theorem spawnStatus_spawn (h : malformedAt s c a = false) :
    spawnStatus s c a none = spawnInto s c (spawnedTask s c a) (spawnedRoot s c a) a := spawnStatus_wellFormed none h

theorem spawnStatus_unopened {k : Dword} (h : malformedAt s c a = false)
    (ho : s.openScope? c.crew.part (spawnedTask s c a).scopeId (some c.crew.task.scopeId) k c.crew.pasid false = none) :
    spawnStatus s c a (some k) = (s, 4) := by
  rw [spawnStatus_wellFormed _ h, Option.elim_some, ho, Option.elim_none]

theorem spawnStatus_opened {k : Dword} {e : ScopeEnt} (h : malformedAt s c a = false)
    (ho : s.openScope? c.crew.part (spawnedTask s c a).scopeId (some c.crew.task.scopeId) k c.crew.pasid false = some e)
    (hu : spawnInto (s.setScope c.crew.part (spawnedTask s c a).scopeId e) c (spawnedTask s c a) (spawnedRoot s c a) a = (u, 0)) :
    spawnStatus s c a (some k) = (u, 0) := by
  rw [spawnStatus_wellFormed _ h, Option.elim_some, ho, Option.elim_some, hu]
  rfl

/-! ## The word -/

theorem exec_spawnOrOpen (s : State) (f : RWord) (opens : Bool) : exec (if opens then .spawnOpen f else .spawn f) s = spawnWord f opens s := by
  cases opens <;> rfl

/-- The operand codes of spawn and spawn.open with a good destination and good values: 0x14 for an ACKA with a reserved bit (R319, R327). -/
theorem spawn_codes {i : BitVec 6} (hd : f.d = .s i) (ha : valueOperand f.a) (hb : opens = true → valueOperand f.b) (x : Nat) :
    lowest [dstS17 f.d, srcVal f.a, if opens then srcVal f.b else none, codeIf (opens && srcVal f.b == none && x != 0) 0x14] =
      if opens = true ∧ x ≠ 0 then some 0x14 else none := by
  rw [hd, srcVal_valueOperand ha]
  cases opens with
  | false => simp [lowest, dstS17, dstS, codeIf]
  | true =>
    rw [srcVal_valueOperand (hb rfl)]
    by_cases hx : x = 0 <;> simp [lowest, dstS17, dstS, codeIf, hx]

/-- What the word asks before its body: a commit's operands are good, and an ACKA has no reserved bit (R319, R327). -/
structure SpawnIssues (s : State) (c : Ctx) (f : RWord) (i : BitVec 6) (opens : Bool) : Prop where
  may : MayCommit s c
  dst : f.d = .s i
  src : valueOperand f.a
  acka : opens = true → valueOperand f.b
  waits : accessWaits c true true false = []

/-- An ACKA with a reserved bit takes 0x14. -/
theorem spawnWord_badAcka {i : BitVec 6} (h : SpawnIssues s c f i opens) (ho : opens = true) (hb : (sval s c 2 f.b).toNat % 8 ≠ 0) :
    spawnWord f opens s = trapsWith s c 0x14 := by
  refine runWord_code h.may.ctx (fun b hb => nomatch hb) (fun _ => h.may.noHandler) ?_
  rw [spawn_codes h.dst h.src h.acka, if_pos ⟨ho, by simpa [bits] using hb⟩]

/-- With good operands the word traps as the check of its record says, or completes with the status (R327). -/
theorem spawnWord_body {i : BitVec 6} (h : SpawnIssues s c f i opens) (hb : opens = true → (sval s c 2 f.b).toNat % 8 = 0) : spawnWord f opens s = finish s c
    ((recordCheck s c (sval s c 1 f.a) 8).elim
      ((if (spawnedTask s c (sval s c 1 f.a)).isRoot then recordCheck s c (sval s c 1 f.a) 16 else none).elim
        (let r := spawnStatus s c (sval s c 1 f.a) (if opens then some (sval s c 2 f.b) else none)
         .ok (commit r.1 c (wrScalar f.d (BitVec.ofNat 64 r.2)) .t1)) id) id) := by
  -- Opaque names, as in spawnStatus_wellFormed.
  obtain ⟨status, hstatus⟩ : ∃ status, status = spawnStatus := ⟨_, rfl⟩
  obtain ⟨check, hcheck⟩ : ∃ check, check = recordCheck := ⟨_, rfl⟩
  unfold spawnWord
  rw [← hstatus, ← hcheck, runWord_commit h.may]
  · rw [h.waits]
    congr 1
    dsimp only [List.isEmpty_nil]
    cases check s c (sval s c 1 f.a) 8 with
    | some r => rfl
    | none =>
      show _ = Option.elim (if (readTask s c.crew.part c.crew.pasid.toNat (sval s c 1 f.a) (96 + dieOf c.r.core)).isRoot then
        check s c (sval s c 1 f.a) 16 else none) _ _
      cases (if (readTask s c.crew.part c.crew.pasid.toNat (sval s c 1 f.a) (96 + dieOf c.r.core)).isRoot then
        check s c (sval s c 1 f.a) 16 else none) <;> rfl
  · rw [spawn_codes h.dst h.src h.acka, if_neg]
    rintro ⟨ho, hx⟩
    exact hx (by simpa [bits] using hb ho)

/-- An unaligned record takes 0x52 (log 26). -/
theorem spawnWord_unaligned {i : BitVec 6} (h : SpawnIssues s c f i opens) (hb : opens = true → (sval s c 2 f.b).toNat % 8 = 0)
    (hlt : (sval s c 1 f.a).toNat < 2 ^ 57) (ha : (sval s c 1 f.a).toNat % 64 ≠ 0) :
    spawnWord f opens s = .next (takeTrap s c.r.core c.r.crew c.r.gid c.r.split 0x52 0 (sval s c 1 f.a)) := by
  have hcheck : recordCheck s c (sval s c 1 f.a) 8 = some (.trap 0x52 0 (sval s c 1 f.a)) := by
    rw [recordCheck, if_pos (by simpa using ha), if_neg (Nat.not_le.mpr hlt)]
  rw [spawnWord_body h hb, hcheck]
  rfl

/-- With a readable record the word completes as a commit with the status in D, and makes the status's effect (R327). -/
theorem spawnWord_status {i : BitVec 6} {n : Nat} (h : SpawnIssues s c f i opens) (hb : opens = true → (sval s c 2 f.b).toNat % 8 = 0)
    (hr : recordReadable s c (sval s c 1 f.a))
    (hs : spawnStatus s c (sval s c 1 f.a) (if opens then some (sval s c 2 f.b) else none) = (u, n)) (hu : KeepsStrand s u) :
    ∃ g q, spawnWord f opens s = .next (commit u c (wrScalar f.d (BitVec.ofNat 64 n)) .t1) ∧
      committed (commit u c (wrScalar f.d (BitVec.ofNat 64 n)) .t1) c g q ∧ onlyS c g i (BitVec.ofNat 64 n) := by
  obtain ⟨h8, h16⟩ := hr
  have hroot : (if (spawnedTask s c (sval s c 1 f.a)).isRoot then recordCheck s c (sval s c 1 f.a) 16 else none) = none := by
    split
    · exact h16 ‹_›
    · rfl
  obtain ⟨g, q, hcommit, hreg⟩ := commit_scalar (hu.mayCommit h.may) i (BitVec.ofNat 64 n) .t1
  rw [h.dst]
  refine ⟨g, q, ?_, hcommit, hreg⟩
  rw [spawnWord_body h hb, h8, Option.elim_none, hroot, Option.elim_none, hs, h.dst]
  exact finish_commit h.may hu _ _

/-! ## What is queued -/

/-- The copy of a record that is put in a queue, as the statement describes it (R81, R327). -/
theorem queuedAs_enqueue (s : State) (d p : Nat) (pasid : BitVec 20) (t : TaskRec) (root : Option RootExt) (a : Dword) (l : List Nat) :
    queuedAs s { s.enqueue d p pasid t root false a with cells := l } d p pasid t root a :=
  ⟨_, putRec_queue s d _, rfl, rfl, rfl, rfl, rfl, rfl, rfl, rfl⟩

theorem enqueue_keepsStrand (s : State) (d p : Nat) (pasid : BitVec 20) (t : TaskRec) (root : Option RootExt) (a : Dword) (l : List Nat) :
    KeepsStrand s { s.enqueue d p pasid t root false a with cells := l } := ⟨rfl, rfl⟩

theorem enqueue_scope (s : State) (d p : Nat) (pasid : BitVec 20) (t : TaskRec) (root : Option RootExt) (a : Dword) (l : List Nat) (p' id : Nat) :
    State.scope { s.enqueue d p pasid t root false a with cells := l } p' id = s.scope p' id := rfl

/-- A record whose scope has just been opened is queued, and the scope stays as it was opened (R88, R327). -/
theorem spawnInto_setScope {t : TaskRec} {root : Option RootExt} (e : ScopeEnt) (he : e.st = .opened)
    (hr : s.queueRoom (dieOf c.r.core) c.crew.part = true) :
    ∃ u, spawnInto (s.setScope c.crew.part t.scopeId e) c t root a = (u, 0) ∧ KeepsStrand s u ∧
      queuedAs s u (dieOf c.r.core) c.crew.part c.crew.pasid (if t.isRoot then t else { t with launch := c.crew.task.launch }) root a ∧
      u.scope c.crew.part t.scopeId = e := by
  have hk := KeepsDies.setScope s c.crew.part t.scopeId e
  have hscope := setScope_scope s c.crew.part t.scopeId e
  obtain ⟨l, hl⟩ := spawnInto_queued (s := s.setScope c.crew.part t.scopeId e) (t := t) (root := root) (a := a) (by rw [hscope, he]) ((hk.queueRoom _ _).trans hr)
  refine ⟨_, hl, hk.toKeepsStrand.trans (enqueue_keepsStrand _ _ _ _ _ _ _ l), ?_, (enqueue_scope _ _ _ _ _ _ _ l _ _).trans hscope⟩
  obtain ⟨q, hq, hkeeps⟩ := queuedAs_enqueue (s.setScope c.crew.part t.scopeId e) (dieOf c.r.core) c.crew.part c.crew.pasid
    (if t.isRoot then t else { t with launch := c.crew.task.launch }) root a l
  exact ⟨q, hk.die (dieOf c.r.core) ▸ hq, hkeeps⟩

end Sys2Proof.Claim

open Sys2Proof.Claim Sys2Proof.Machine in
/-- Settles O33: each status is what spawnStatus gives, by whether the record is malformed and by its scope; an effect that keeps the strand ends in a commit. -/
theorem spawnOutcomes : Obligations.SpawnOutcomes := by
  intro f s c i opens hmay hd ha hb hwaits
  dsimp only
  have h : SpawnIssues s c f i opens := ⟨hmay, hd, ha, hb, hwaits⟩
  rw [exec_spawnOrOpen]
  refine ⟨spawnWord_badAcka h, spawnWord_unaligned h, fun hacka hr => ?_⟩
  -- A status and its effect, once known, are what the word ends with.
  have ends : ∀ {u : State} {n : Nat} {also : State → Prop},
      spawnStatus s c (sval s c 1 f.a) (if opens then some (sval s c 2 f.b) else none) = (u, n) → KeepsStrand s u →
      also (commit u c (wrScalar f.d (BitVec.ofNat 64 n)) .t1) →
      ∃ u g q, spawnWord f opens s = .next u ∧ committed u c g q ∧ onlyS c g i (BitVec.ofNat 64 n) ∧ also u := fun hs hu ha => by
    obtain ⟨g, q, hnext, hcommit, hreg⟩ := spawnWord_status h hacka hr hs hu
    exact ⟨_, g, q, hnext, hcommit, hreg, ha⟩
  refine ⟨fun hbad => ?_, fun hok ho => ?_, fun hok ho => ?_⟩
  · obtain ⟨u, hs, hu⟩ := spawnStatus_malformed (k := if opens then some (sval s c 2 f.b) else none) hbad
    exact ends hs hu.toKeepsStrand (congrArg Die.queue (hu.die _))
  · subst ho
    have spawned := spawnStatus_spawn hok
    refine ⟨fun hst => ?_, fun hst => ?_, fun hst hroom => ?_, fun hst hroom => ?_⟩
    · exact ends (spawned.trans (spawnInto_free hst)) ⟨rfl, rfl⟩ rfl
    · exact ends (spawned.trans (spawnInto_cancelled hst)) ⟨rfl, rfl⟩ rfl
    · exact ends (spawned.trans (spawnInto_full hst hroom)) ⟨rfl, rfl⟩ rfl
    · obtain ⟨l, hl⟩ := spawnInto_queued (root := spawnedRoot s c (sval s c 1 f.a)) (a := sval s c 1 f.a) hst hroom
      exact ends (spawned.trans hl) ⟨rfl, rfl⟩ (queuedAs_enqueue s _ _ _ _ _ _ l)
  · subst ho
    refine ⟨fun hst => ?_, fun hpar => ?_, fun hst hpar hdepth hroom => ?_⟩
    · exact ends (spawnStatus_unopened hok (openScope?_taken hst)) ⟨rfl, rfl⟩ rfl
    · exact ends (spawnStatus_unopened hok (openScope?_parent hpar)) ⟨rfl, rfl⟩ rfl
    · have hopen := openScope?_free (k := sval s c 2 f.b) (opas := c.crew.pasid) hst hpar hdepth
      obtain ⟨u, hu, hstrand, hqueued, hscope⟩ := spawnInto_setScope (t := spawnedTask s c (sval s c 1 f.a)) (root := spawnedRoot s c (sval s c 1 f.a))
        (a := sval s c 1 f.a) { ScopeEnt.free with
          st := .opened, parent := BitVec.ofNat 16 c.crew.task.scopeId, depth := (s.scope c.crew.part c.crew.task.scopeId).depth + 1,
          acka := sval s c 2 f.b, opas := c.crew.pasid } rfl hroom
      exact ends (spawnStatus_opened hok hopen hu) hstrand ⟨hqueued, hscope⟩
end

section
/-!
PROOF. The release of a join cell: what becomes of its record (O34).
-/
namespace Sys2Proof.Claim
open Sys2Proof.Machine
variable {s t u : State} {c : Ctx} {f : RWord}

/-! ## The release of a cell, case by case (R71, R76) -/

section
variable {d p : Nat} {pasid : BitVec 20} {cell : Dword} {launch : Option Word}

/-- The record parked at a cell, with the launch that replaces its own (R76). -/
def parkedTask (s : State) (d p : Nat) (pasid : BitVec 20) (cell : Dword) (launch : Option Word) : TaskRec :=
  let t0 := readTask s p pasid.toNat (cell + 64) (96 + d)
  { t0 with launch := launch.getD t0.launch }

/-- The cell can be read, and its reserved words are zero (R74). -/
def cellSound (s : State) (d p : Nat) (pasid : BitVec 20) (cell : Dword) : Prop :=
  s.vaFault p pasid.toNat cell 16 (96 + d) = none ∧ ∀ i < 7, wordAt s p pasid.toNat cell (i + 1) (96 + d) = 0

theorem reservedWords_any (w : Nat → Dword) : ((List.range 7).any fun i => w i != 0) = true ↔ ∃ i < 7, w i ≠ 0 := by
  simp [List.any_eq_true]

/-- A fault of the cell or its record is counted under its code. -/
theorem releaseCell_fault {e : XErr} (h : s.vaFault p pasid.toNat cell 16 (96 + d) = some e) :
    s.releaseCell d p pasid cell launch = (s.testWords p pasid.toNat cell 16 (96 + d)).countFault p (launch.getD 0) d (e.code 0x50) cell := by
  unfold State.releaseCell
  dsimp only
  rw [h]

/-- A reserved word that is not zero is counted as 0x8A. -/
theorem releaseCell_reserved (h : s.vaFault p pasid.toNat cell 16 (96 + d) = none) (hw : ∃ i < 7, wordAt s p pasid.toNat cell (i + 1) (96 + d) ≠ 0) :
    s.releaseCell d p pasid cell launch = s.countFault p (parkedTask s d p pasid cell launch).launch d 0x8A cell := by
  unfold State.releaseCell
  dsimp only
  rw [h]
  exact if_pos ((reservedWords_any _).mpr hw)

/-- What becomes of the well-formed record of a sound cell, by the state of its scope (R76). -/
def releaseRecord (s : State) (d p : Nat) (pasid : BitVec 20) (cell : Dword) (t : TaskRec) : State :=
  match (s.scope p t.scopeId).st with
  | .free => s.countFault p t.launch d 0x8F cell
  | .cancelling => s
  | .cancelled => s
  | .opened => s.queueReleased d ⟨p, pasid, cell, t, false⟩

theorem releaseRecord_free {t : TaskRec} (h : (s.scope p t.scopeId).st = .free) :
    releaseRecord s d p pasid cell t = s.countFault p t.launch d 0x8F cell := by
  rw [releaseRecord, h]

theorem releaseRecord_cancelled {t : TaskRec} (h : (s.scope p t.scopeId).st = .cancelling ∨ (s.scope p t.scopeId).st = .cancelled) :
    releaseRecord s d p pasid cell t = s := by
  obtain h | h := h <;> rw [releaseRecord, h]

theorem releaseRecord_opened {t : TaskRec} (h : (s.scope p t.scopeId).st = .opened) :
    releaseRecord s d p pasid cell t = s.queueReleased d ⟨p, pasid, cell, t, false⟩ := by
  rw [releaseRecord, h]

/-- A sound cell's record is judged, and counted as 0x88 or released (log 82: before its scope is looked at). -/
theorem releaseCell_sound (h : cellSound s d p pasid cell) : s.releaseCell d p pasid cell launch =
    if (parkedTask s d p pasid cell launch).isRoot || taskBad s p pasid.toNat (parkedTask s d p pasid cell launch) (96 + d) then
      (s.testWords p pasid.toNat (parkedTask s d p pasid cell launch).code 8 (96 + d)).countFault p (parkedTask s d p pasid cell launch).launch d 0x88 (cell + 64)
    else releaseRecord s d p pasid cell (parkedTask s d p pasid cell launch) := by
  obtain ⟨hf, hw⟩ := h
  have hany : ¬((List.range 7).any fun i => wordAt s p pasid.toNat cell (i + 1) (96 + d) != 0) = true := by
    rw [reservedWords_any]
    rintro ⟨i, hi, hne⟩
    exact hne (hw i hi)
  unfold State.releaseCell
  dsimp only
  rw [hf]
  exact if_neg hany

/-- A well-formed record of a sound cell. -/
def cellGood (s : State) (d p : Nat) (pasid : BitVec 20) (cell : Dword) (launch : Option Word) : Prop :=
  cellSound s d p pasid cell ∧ (parkedTask s d p pasid cell launch).isRoot = false ∧
    taskBad s p pasid.toNat (parkedTask s d p pasid cell launch) (96 + d) = false

theorem releaseCell_good (h : cellGood s d p pasid cell launch) :
    s.releaseCell d p pasid cell launch = releaseRecord s d p pasid cell (parkedTask s d p pasid cell launch) := by
  obtain ⟨hsound, hroot, hbad⟩ := h
  rw [releaseCell_sound hsound, hroot, hbad]
  rfl

theorem releaseCell_malformed (h : cellSound s d p pasid cell)
    (hbad : (parkedTask s d p pasid cell launch).isRoot = true ∨ taskBad s p pasid.toNat (parkedTask s d p pasid cell launch) (96 + d) = true) :
    s.releaseCell d p pasid cell launch =
      (s.testWords p pasid.toNat (parkedTask s d p pasid cell launch).code 8 (96 + d)).countFault p (parkedTask s d p pasid cell launch).launch d 0x88 (cell + 64) := by
  rw [releaseCell_sound h, if_pos (by simpa using hbad)]

end

/-! ## A released record in the queue (R77, R81) -/

/-- Where there is room, the record stands last in the queue of its die, and memory is as it was. -/
theorem queueReleased_room {d : Nat} {x : HeldCell} (h : s.queueRoom d x.part = true) :
    queuedAs s (s.queueReleased d x) d x.part x.pasid x.task none (x.cell + 64) ∧ (s.queueReleased d x).mem = s.mem := by
  unfold State.queueReleased
  rw [if_pos h]
  extract_lets v
  have hv : queuedAs s v d x.part x.pasid x.task none (x.cell + 64) := ⟨_, putRec_queue s d _, rfl, rfl, rfl, rfl, rfl, rfl, rfl, rfl⟩
  have hmem : v.mem = s.mem := rfl
  clear_value v
  split
  · obtain ⟨l, hl⟩ := nameCell_cells v x.part x.pasid.toNat x.task.succ (96 + d)
    rw [hl]
    exact ⟨hv, hmem⟩
  · exact ⟨hv, hmem⟩

/-- Where there is none, the record is held as it is (R77). -/
theorem queueReleased_full {d : Nat} {x : HeldCell} (h : s.queueRoom d x.part = false) :
    s.queueReleased d x = s.modDie d fun y => { y with cells := y.cells ++ [x] } := by
  unfold State.queueReleased
  rw [if_neg (by rw [h]; exact Bool.false_ne_true)]

/-! ## No release touches the executing strand -/

theorem queueReleased_keepsStrand (s : State) (d : Nat) (x : HeldCell) : KeepsStrand s (s.queueReleased d x) := by
  unfold State.queueReleased
  extract_lets v
  have hv : KeepsStrand s v := ⟨rfl, rfl⟩
  clear_value v
  split
  · split
    · exact hv.trans (KeepsDies.nameCell _ _ _ _ _).toKeepsStrand
    · exact hv
  · exact ⟨rfl, rfl⟩

theorem releaseCell_keepsStrand (s : State) (d p : Nat) (pasid : BitVec 20) (cell : Dword) (launch : Option Word) :
    KeepsStrand s (s.releaseCell d p pasid cell launch) := by
  have counted : ∀ (va : Dword) (n party : Nat) (id : Word) (cause : Byte) (a : Dword),
      KeepsStrand s ((s.testWords p pasid.toNat va n party).countFault p id d cause a) := fun _ _ _ _ _ _ =>
    ((KeepsDies.testWords _ _ _ _ _ _).trans (.countFault _ _ _ _ _ _)).toKeepsStrand
  cases hf : s.vaFault p pasid.toNat cell 16 (96 + d) with
  | some e => rw [releaseCell_fault hf]; exact counted _ _ _ _ _ _
  | none =>
    by_cases hw : ∃ i < 7, wordAt s p pasid.toNat cell (i + 1) (96 + d) ≠ 0
    · rw [releaseCell_reserved hf hw]; exact (KeepsDies.countFault _ _ _ _ _ _).toKeepsStrand
    · rw [releaseCell_sound ⟨hf, by simpa using hw⟩]
      split
      · exact counted _ _ _ _ _ _
      · unfold releaseRecord
        split
        · exact (KeepsDies.countFault _ _ _ _ _ _).toKeepsStrand
        · exact (KeepsDies.refl s).toKeepsStrand
        · exact (KeepsDies.refl s).toKeepsStrand
        · exact queueReleased_keepsStrand _ _ _

end Sys2Proof.Claim
end

section
/-!
PROOF. arm adds its count to COUNT, and releases the cell that it takes from non-zero to 0 (O34).
-/
namespace Sys2Proof.Claim
open Sys2Proof.Machine
variable {s t : State} {c : Ctx} {f : RWord} {i : BitVec 6} {pa n : Nat}

/-! ## The atomic addition on a named COUNT (R76, R269) -/

/-- Of the named cells, none shares bytes with the eight from pa on but the one that lies there (log 12). -/
def cellsApart (s : State) (pa : Nat) : Prop := ∀ k ∈ s.cells, k < pa + 8 → pa < k + 8 → k = pa

theorem cellAt?_apart (h : cellsApart s pa) : cellAt? s pa 8 = if s.cells.contains pa then some pa else none := by
  unfold cellAt?
  split
  · rename_i hmem
    obtain ⟨k, hk⟩ : ∃ k, s.cells.find? (fun k => decide (k < pa + 8) && decide (pa < k + 8)) = some k :=
      Option.isSome_iff_exists.mp (List.find?_isSome.mpr ⟨pa, by simpa using hmem, by simp⟩)
    have hover := List.find?_some hk
    simp only [Bool.and_eq_true, decide_eq_true_eq] at hover
    rw [hk, h k (List.mem_of_find?_eq_some hk) hover.1 hover.2]
  · rename_i hmem
    rw [List.find?_eq_none]
    intro k hk hover
    simp only [Bool.and_eq_true, decide_eq_true_eq] at hover
    exact hmem (by rw [← h k hk hover.1 hover.2]; simpa using hk)

/-- A word of device memory is 0 where its bytes are. -/
theorem dev64_eq_zero (s : State) (pa : Nat) : s.dev64 pa = 0#64 ↔ s.devRead pa 8 = 0 := by
  have hlt : s.devRead pa 8 < 2 ^ 64 := devRead_lt s pa 8
  rw [← BitVec.toNat_inj, State.dev64, BitVec.toNat_ofNat, ← State.devRead, Nat.mod_eq_of_lt hlt]
  rfl

/-- The sum that arm leaves in COUNT (R328). -/
def armSum (s : State) (pa n : Nat) : Nat := (s.devRead pa 8 + n) % 2 ^ 64

/-- The state with the sum written. -/
def armWritten (s : State) (pa n : Nat) : State := s.devWrite pa (leBytes 8 (armSum s pa n))

/-- The addition takes a named COUNT from non-zero to 0 (R76). -/
def armReleases (s : State) (pa n : Nat) : Prop := s.cells.contains pa = true ∧ s.devRead pa 8 ≠ 0 ∧ armSum s pa n = 0

theorem devRead_armWritten (hm : s.mem.wf = true) (hj : s.snapsOf (pa / 4096 * 4096) = []) : (armWritten s pa n).devRead pa 8 = armSum s pa n := by
  have hlt : armSum s pa n < 2 ^ 64 := Nat.mod_lt _ (by decide)
  exact (devRead_devWrite hm hj 8 _).trans (Nat.mod_eq_of_lt hlt)

/-- The addition releases the cell exactly where it takes it from non-zero to 0. -/
theorem addReleases_armWritten (hm : s.mem.wf = true) (hj : s.snapsOf (pa / 4096 * 4096) = []) (hc : cellsApart s pa) :
    (armReleases s pa n → addReleases s (armWritten s pa n) pa 8 = some pa) ∧
      (¬armReleases s pa n → addReleases s (armWritten s pa n) pa 8 = none) := by
  have hold := dev64_eq_zero s pa
  have hnew := dev64_eq_zero (armWritten s pa n) pa
  rw [devRead_armWritten hm hj] at hnew
  unfold addReleases armReleases
  rw [cellAt?_apart hc]
  cases s.cells.contains pa <;> simp [hold, hnew]

/-- The addition of arm writes the sum, delivers the old COUNT, and releases the cell that addReleases names. -/
theorem atomLane_add (s : State) (c : Ctx) (hn : n < 2 ^ 64) (a : Dword) : atomLane s c .add true 8 n 0 a (.dev pa) =
    ((addReleases s (armWritten s pa n) pa 8).elim (armWritten s pa n) fun k =>
      (armWritten s pa n).releaseCell (State.dieOfPa pa) c.crew.part c.crew.pasid (a - BitVec.ofNat 64 (pa - k)) (some c.crew.task.launch), s.devRead pa 8) := by
  have hsum : AOp.new .add (8 * 8) (s.devRead pa 8) (n % 2 ^ (8 * 8)) (0 % 2 ^ (8 * 8)) = armSum s pa n := by
    rw [Nat.mod_eq_of_lt hn]
    rfl
  unfold atomLane
  extract_lets m v s1
  have hs1 : s1 = armWritten s pa n := congrArg (fun x => s.devWrite pa (leBytes 8 x)) hsum
  rw [hs1]
  show (match addReleases s (armWritten s pa n) pa 8 with | some k => _ | none => _) = _
  cases addReleases s (armWritten s pa n) pa 8 <;> rfl

/-- With the sum written, the cell at pa is released where the addition takes it to 0. -/
theorem atomLane_add_released (hm : s.mem.wf = true) (hj : s.snapsOf (pa / 4096 * 4096) = []) (hc : cellsApart s pa) (hn : n < 2 ^ 64) (a : Dword)
    (hr : armReleases s pa n) : atomLane s c .add true 8 n 0 a (.dev pa) =
      ((armWritten s pa n).releaseCell (State.dieOfPa pa) c.crew.part c.crew.pasid a (some c.crew.task.launch), s.devRead pa 8) := by
  rw [atomLane_add s c hn, (addReleases_armWritten hm hj hc).1 hr, Option.elim_some, Nat.sub_self, BitVec.sub_zero]

theorem atomLane_add_kept (hm : s.mem.wf = true) (hj : s.snapsOf (pa / 4096 * 4096) = []) (hc : cellsApart s pa) (hn : n < 2 ^ 64) (a : Dword)
    (hr : ¬armReleases s pa n) : atomLane s c .add true 8 n 0 a (.dev pa) = (armWritten s pa n, s.devRead pa 8) := by
  rw [atomLane_add s c hn, (addReleases_armWritten hm hj hc).2 hr, Option.elim_none]

/-! ## The word -/

/-- A commit with good operands of arm (R319, R328). -/
structure ArmIssues (s : State) (c : Ctx) (f : RWord) (i : BitVec 6) : Prop where
  may : MayCommit s c
  dst : f.d = .s i
  src : valueOperand f.a
  count : valueOperand f.b

theorem arm_codes (h : ArmIssues s c f i) : lowest [dstS17 f.d, srcVal f.a, srcVal f.b] = none := by
  rw [h.dst, srcVal_valueOperand h.src, srcVal_valueOperand h.count]
  rfl

theorem arm_unaligned (h : ArmIssues s c f i) (ha : (sval s c 1 f.a).toNat % 128 ≠ 0) :
    exec (.arm f) s = .next (takeTrap s c.r.core c.r.crew c.r.gid c.r.split 0x8B 0 (sval s c 1 f.a)) := by
  rw [exec_arm, execArm, runWord_commit h.may (arm_codes h), if_pos (by simpa using ha)]
  rfl

/-- The count is in the range that arm takes (R328). -/
theorem armCount_good (x : Dword) : (x == 0 || decide (2 ^ 31 ≤ x.toNat)) = true ↔ x.toNat = 0 ∨ 2 ^ 31 ≤ x.toNat := by
  rw [Bool.or_eq_true, beq_iff_eq, decide_eq_true_eq, ← BitVec.toNat_inj]
  rfl

theorem arm_badCount (h : ArmIssues s c f i) (ha : (sval s c 1 f.a).toNat % 128 = 0) (hn : (sval s c 2 f.b).toNat = 0 ∨ 2 ^ 31 ≤ (sval s c 2 f.b).toNat) :
    exec (.arm f) s = .next (takeTrap s c.r.core c.r.crew c.r.gid c.r.split 0x8D 0 (sval s c 1 f.a)) := by
  rw [exec_arm, execArm, runWord_commit h.may (arm_codes h), if_neg (by simpa using ha), if_pos ((armCount_good _).mpr hn)]
  rfl

/-- What lets arm reach its addition on the word at pa: a cell's alignment, a count in range, no wait, a writable place and no poison (R328). -/
structure ArmReaches (s : State) (c : Ctx) (f : RWord) (pa : Nat) : Prop where
  aligned : (sval s c 1 f.a).toNat % 128 = 0
  pos : 1 ≤ (sval s c 2 f.b).toNat
  lt : (sval s c 2 f.b).toNat < 2 ^ 31
  waits : accessWaits c true true false = []
  place : checkLane s c .dev 8 true (sval s c 1 f.a) = .ok (.dev pa)
  clean : poisonedAt s 8 (.dev pa) = false

/-- The word completes with the old COUNT, in the state after its addition (R328). -/
theorem arm_next {u : State} {old : Nat} (h : ArmIssues s c f i) (hr : ArmReaches s c f pa)
    (hu : atomLane (s.nameCell c.crew.part c.crew.pasid.toNat (sval s c 1 f.a)) c .add true 8 (sval s c 2 f.b).toNat 0 (sval s c 1 f.a) (.dev pa) = (u, old))
    (hk : KeepsStrand s u) : exec (.arm f) s = .next (commit u c (wrScalar f.d (BitVec.ofNat 64 old)) .t1) := by
  obtain ⟨ha, hpos, hlt, hwaits, hplace, hclean⟩ := hr
  have hcount : ¬((sval s c 2 f.b == 0 || decide (2 ^ 31 ≤ (sval s c 2 f.b).toNat)) = true) := by
    rw [armCount_good]
    omega
  have hcheck : checkDev s c .dev (sval s c 1 f.a) 8 true = .ok (.dev pa) := hplace
  rw [exec_arm, execArm, runWord_commit h.may (arm_codes h), if_neg (by simpa using ha), if_neg hcount, hwaits, hcheck]
  simp only [List.isEmpty_nil, Bool.not_true, Bool.false_eq_true, if_false, hclean, hu]
  exact finish_commit h.may hk _ _

/-! ## The effect of the word -/

/-- The state in which arm adds: the cell's COUNT has been named (log 12). -/
def armNamed (s : State) (c : Ctx) (f : RWord) : State := s.nameCell c.crew.part c.crew.pasid.toNat (sval s c 1 f.a)

/-- To name a cell changes no byte, no snapshot and no queue. -/
theorem armNamed_keeps (s : State) (c : Ctx) (f : RWord) :
    KeepsDies s (armNamed s c f) ∧ (armNamed s c f).mem = s.mem ∧ (∀ page, (armNamed s c f).snapsOf page = s.snapsOf page) ∧
      byteIn (armNamed s c f) = byteIn s := by
  refine ⟨.nameCell _ _ _ _ _, ?_⟩
  obtain ⟨l, hl⟩ := nameCell_cells s c.crew.part c.crew.pasid.toNat (sval s c 1 f.a) 104
  rw [armNamed, hl]
  exact ⟨rfl, fun _ => rfl, funext fun q => by cases q <;> rfl⟩

/-- What holds of the memory where arm adds: canonical form, no snapshot of the page, and no named cell that overlaps this one. -/
structure ArmMemory (s : State) (pa : Nat) : Prop where
  mem : s.mem.wf = true
  snaps : s.snapsOf (pa / 4096 * 4096) = []
  apart : cellsApart s pa

theorem armNamed_memory (hcan : canonical s) (hunj : unjournalled s [(0, .dev pa)]) (hap : cellsApart (armNamed s c f) pa) : ArmMemory (armNamed s c f) pa := by
  obtain ⟨-, hmem, hsnaps, -⟩ := armNamed_keeps s c f
  obtain ⟨hwf, -, -⟩ := hcan
  exact ⟨by rw [hmem, hwf], by rw [hsnaps, hunj _ (List.mem_singleton.mpr rfl) pa rfl], hap⟩

theorem armWritten_keeps (s : State) (c : Ctx) (f : RWord) (pa n : Nat) : KeepsDies s (armWritten (armNamed s c f) pa n) :=
  (armNamed_keeps s c f).1.trans (.devWrite _ _ _)

/-- arm releases the cell that it takes from non-zero to 0, with the launch of the crew (R76, R328). -/
theorem arm_released (h : ArmIssues s c f i) (hr : ArmReaches s c f pa) (hm : ArmMemory (armNamed s c f) pa)
    (hz : armReleases (armNamed s c f) pa (sval s c 2 f.b).toNat) : exec (.arm f) s = .next (commit ((armWritten (armNamed s c f) pa (sval s c 2 f.b).toNat).releaseCell
      (State.dieOfPa pa) c.crew.part c.crew.pasid (sval s c 1 f.a) (some c.crew.task.launch)) c (wrScalar f.d (BitVec.ofNat 64 ((armNamed s c f).devRead pa 8))) .t1) := by
  refine arm_next h hr (atomLane_add_released hm.mem hm.snaps hm.apart (sval s c 2 f.b).isLt _ hz) ?_
  exact (armWritten_keeps s c f pa _).toKeepsStrand.trans (releaseCell_keepsStrand _ _ _ _ _ _)

/-- Otherwise it adds and completes. -/
theorem arm_kept (h : ArmIssues s c f i) (hr : ArmReaches s c f pa) (hm : ArmMemory (armNamed s c f) pa)
    (hz : ¬armReleases (armNamed s c f) pa (sval s c 2 f.b).toNat) : exec (.arm f) s =
      .next (commit (armWritten (armNamed s c f) pa (sval s c 2 f.b).toNat) c (wrScalar f.d (BitVec.ofNat 64 ((armNamed s c f).devRead pa 8))) .t1) :=
  arm_next h hr (atomLane_add_kept hm.mem hm.snaps hm.apart (sval s c 2 f.b).isLt _ hz) (armWritten_keeps s c f pa _).toKeepsStrand

/-- In either case the old COUNT is in D, as after a commit. -/
theorem arm_old (h : ArmIssues s c f i) (hr : ArmReaches s c f pa) (hm : ArmMemory (armNamed s c f) pa) :
    ∃ u g q, exec (.arm f) s = .next u ∧ committed u c g q ∧ onlyS c g i (BitVec.ofNat 64 ((armNamed s c f).devRead pa 8)) := by
  have hwritten := (armWritten_keeps s c f pa (sval s c 2 f.b).toNat).toKeepsStrand
  obtain ⟨t, ht, hnext⟩ : ∃ t, KeepsStrand s t ∧ exec (.arm f) s = .next (commit t c (wrScalar f.d (BitVec.ofNat 64 ((armNamed s c f).devRead pa 8))) .t1) := by
    by_cases hz : armReleases (armNamed s c f) pa (sval s c 2 f.b).toNat
    · exact ⟨_, hwritten.trans (releaseCell_keepsStrand _ _ _ _ _ _), arm_released h hr hm hz⟩
    · exact ⟨_, hwritten, arm_kept h hr hm hz⟩
  obtain ⟨g, q, hcommit, hreg⟩ := commit_scalar (ht.mayCommit h.may) i (BitVec.ofNat 64 ((armNamed s c f).devRead pa 8)) .t1
  rw [h.dst] at hnext
  exact ⟨_, g, q, hnext, hcommit, hreg⟩

theorem byteIn_armWritten (hm : ArmMemory (armNamed s c f) pa) (q : Place) :
    byteIn (armWritten (armNamed s c f) pa n) q = writtenAt 8 (armSum (armNamed s c f) pa n) (.dev pa) (byteIn s) q := by
  obtain ⟨-, -, -, hbytes⟩ := armNamed_keeps s c f
  rw [armWritten, byteIn_devWrite hm.mem hm.snaps, hbytes]

end Sys2Proof.Claim

open Sys2Proof.Claim Sys2Proof.Machine in
/-- Settles O34: arm's addition names the cell (log 12) and releases it or not; a released cell is judged before the fate of its scope (log 82). -/
theorem armAndJoinCells : Obligations.ArmAndJoinCells := by
  refine ⟨fun f s c i pa hmay hd ha hb => ?_, fun s d p pasid cell launch => ?_⟩
  · have h : ArmIssues s c f i := ⟨hmay, hd, ha, hb⟩
    refine ⟨arm_unaligned h, arm_badCount h, fun hal hpos hlt hw hpl hcl hcan hunj hap => ?_⟩
    have hr : ArmReaches s c f pa := ⟨hal, hpos, hlt, hw, hpl, hcl⟩
    have hm : ArmMemory (armNamed s c f) pa := armNamed_memory hcan hunj hap
    obtain ⟨-, -, -, hbytes⟩ := armNamed_keeps s c f
    have hold : readThere 8 (.dev pa) (byteIn s) = (armNamed s c f).devRead pa 8 := by rw [← readThere_dev, hbytes]
    dsimp only
    rw [hold]
    refine ⟨arm_old h hr hm, fun hkeep => ?_, fun hne hsum hnamed => ?_⟩
    · have hz : ¬armReleases (armNamed s c f) pa (sval s c 2 f.b).toNat := fun ⟨_, hne, hsum⟩ => hkeep.elim hne fun h => h hsum
      refine ⟨_, arm_kept h hr hm hz, fun q => ?_, fun d => ?_⟩
      · rw [byteIn_commit, byteIn_armWritten hm]
        rfl
      · rw [commit_die, (armWritten_keeps s c f pa _).die]
    · refine ⟨armWritten (armNamed s c f) pa (sval s c 2 f.b).toNat, fun q => ?_, ?_⟩
      · rw [byteIn_armWritten hm, armSum, hsum]
      · rw [arm_released h hr hm ⟨hnamed, hne, hsum⟩, hd]
        rfl
  · intro ps t0 t good r
    have released : good → r = releaseRecord s d p pasid cell t := fun ⟨hf, hw, hroot, hbad⟩ => releaseCell_good ⟨⟨hf, hw⟩, hroot, hbad⟩
    refine ⟨fun hg hst hroom => ?_, fun hg hst hroom => ?_, fun hg hst => ?_, fun hg hst => ?_, fun hf hw => releaseCell_reserved hf hw,
      fun hf hw hbad => releaseCell_malformed ⟨hf, hw⟩ hbad, fun e he => releaseCell_fault he⟩
    · rw [released hg, releaseRecord_opened hst]
      exact queueReleased_room hroom
    · rw [released hg, releaseRecord_opened hst]
      exact queueReleased_full hroom
    · rw [released hg, releaseRecord_cancelled hst]
    · rw [released hg, releaseRecord_free hst]
end
